-- ==== Sys2Proof/Word.lean ====
section
/-! DEFINITION. The byte type and the plainest arithmetic on natural numbers seen as words. -/

namespace Sys2Proof

/-- One byte. -/
abbrev Byte := BitVec 8

/-- Bits [hi:lo] of a number, bit 0 the least significant (R6). -/
def bits (x hi lo : Nat) : Nat := (x / 2 ^ lo) % 2 ^ (hi + 1 - lo)

/-- Bit n of a number (R6). -/
def bit (x n : Nat) : Bool := (x / 2 ^ n) % 2 == 1

/-- Division rounded up. -/
def ceilDiv (a b : Nat) : Nat := (a + b - 1) / b

end Sys2Proof
end

