-- ==== Sys2Proof/Syntax.lean ====
section
/-! DEFINITION. The commands of the unit, one constructor per row of the opcode table, with their operands. -/

namespace Sys2Proof

/-- The modes of R400. -/
inductive Mode where
  | powerStandby | boot | maintenance | solo | paired | castOn | isolated | safe
  deriving DecidableEq, Repr

/-- The layouts of R169. -/
inductive Layout where
  | m2 | m3 | p1 | p2 | p3
  deriving DecidableEq, Repr

/-- The member states of R188. -/
inductive MemberState where
  | inSync | absent | failed | resyncing | rebuilding
  deriving DecidableEq, Repr

/-- The content of one logical block: its data bytes and its protection information, as little-endian numbers (R120). -/
structure Blk where
  data : Nat := 0
  pi : Nat := 0
  deriving DecidableEq, Repr

/-- The VDT header of an arriving packet (R41), with the port and addresses of its frame and the verdict of the
security engine on its tag (R56, R57). -/
structure Hdr where
  port : Nat := 0
  src : Nat := 0
  dst : Nat := 0
  twin : Bool := false
  acknow : Bool := false
  last : Bool := false
  cls : Nat := 3
  phase : Nat := 0
  assoc : Nat := 0
  seq : Nat := 0
  cum : Nat := 0
  sack : Nat := 0
  row : Nat := 0
  key : Nat := 0
  off : Nat := 0
  len : Nat := 0
  attempt : Nat := 0
  gcmOk : Bool := true
  deriving DecidableEq, Repr

/-- A HELLO-1 payload (R47). `ident` tells identical messages apart; `parses` says that the identity field parses and
`principal` names the principal it maps to, if any (R52). -/
structure Hello where
  port : Nat := 0
  src : Nat := 0
  dst : Nat := 0
  auth : Nat := 1
  twinCap : Bool := false
  maxPayload : Nat := 8192
  udpPort : Nat := 50000
  resumed : Nat := 0
  identLen : Nat := 1
  reservedZero : Bool := true
  parses : Bool := true
  principal : Option Nat := none
  ident : Nat := 0
  deriving DecidableEq, Repr

/-- A submission entry as R107 reads it. -/
structure Sqe where
  opcode : Nat := 0
  fuse : Nat := 0
  cid : Nat := 0
  nsid : Nat := 0
  qid : Nat := 0
  cdw10 : Nat := 0
  cdw11 : Nat := 0
  cdw12 : Nat := 0
  cdw13 : Nat := 0
  cdw14 : Nat := 0
  cdw15 : Nat := 0
  deriving DecidableEq, Repr

/-- A policy record: meter and shaper parameters and the tag limit (R363). -/
structure Policy where
  /-- meter enable, bit 0 of Enables (R363) -/
  meterOn : Bool := false
  /-- shaper enable, bit 1 of Enables (R363) -/
  shaperOn : Bool := false
  /-- committed rate, bytes/s (R363) -/
  cir : Nat := 1000000
  /-- peak rate, bytes/s (R363) -/
  pir : Nat := 1000000
  /-- committed burst, bytes (R363) -/
  cbs : Nat := 16384
  /-- peak burst, bytes (R363) -/
  pbs : Nat := 16384
  /-- shaper rate, bytes/s (R363) -/
  shRate : Nat := 1000000
  /-- shaper high limit, bytes (R363) -/
  hi : Nat := 1048576
  /-- shaper low limit, signed bytes (R363) -/
  lo : Int := -4194304
  /-- tag limit, 64 to 32,768 (R114) (R363) -/
  tagLimit : Nat := 2048
  deriving DecidableEq, Repr

/-- A principal record as a mailbox carries it (R450). -/
structure PrincRec where
  idx : Nat := 0
  roles : Nat := 0
  auth : Nat := 1
  name : Nat := 0
  pskIdLen : Nat := 1
  pskId : Nat := 0
  psk : Nat := 0
  pub : Nat := 0
  deriving DecidableEq, Repr

/-- The mailbox commands of the catalogue (R453) with their request payloads. -/
inductive MbCmd where
  | getSetting (grp sid inst : Nat)
  | setSetting (grp sid inst : Nat) (val : Int)
  | unitIdentify
  | getAlarms
  | clearConfigurationAlarm
  | changeMode (req : Nat)
  | moduleReset
  | controllerReset
  | operationStatus (op : Nat)
  | operationCancel (op : Nat)
  | setPortAddresses (port : Nat) (addrs : List Nat)
  | writeIndirectionTable (mask : Nat) (entries : List Nat)
  | writeDscpTables (mask : Nat) (rx tx : List Nat)
  | associationReset (assoc : Nat)
  | listAssociations (first : Nat)
  | principalCreate (r : PrincRec)
  | principalModify (r : PrincRec)
  | principalRemove (idx : Nat)
  | principalList (first : Nat)
  | generateUnitKey
  | installUnitCertificate (len : Nat) (cert key : Nat)
  | setOutboundCredential (cred len psk ident : Nat)
  | arrayCreate (arr lay n shift : Nat) (bays : List Nat)
  | arrayDelete (arr : Nat)
  | assignDrive (bay role : Nat)
  | markMemberFailed (arr pos : Nat)
  | arrayStatus (arr : Nat)
  | listLostBlocks (arr first : Nat)
  | listPatrolReports (arr first : Nat)
  | importArray (mask : Nat)
  | volumeCreate (vol arr kind flags size allot : Nat)
  | volumeDelete (vol : Nat)
  | volumeResize (vol size : Nat)
  | copyStart (vol dstVol cred gate dst : Nat)
  | copyCutover (op : Nat)
  | listMapInconsistencies (vol first : Nat)
  | writeGateList (list base change : Nat) (entries : List Nat)
  | readGateList (list : Nat)
  | setPolicyRecord (target idx : Nat) (p : Policy)
  | clearQueueRecords (cls inst : Nat)
  | setWitnessAddress (addr : Nat)
  | setWitnessKey (key : Nat)
  | handover (arr : Nat)
  | startProofRun
  | clearNoClaimMarks (mask : Nat)
  | readDivergenceSnapshot (off len : Nat)
  | pairStatus
  | bayPower (bay action : Nat)
  | removalRequest (bay step : Nat)
  | locate (bay on : Nat)
  | powerStateRequest (ps : Nat)
  | powerStatus
  | exportSwatch
  | writeSwatchEntry (check entry : Nat) (val : Int)
  | readAuditEntries (first n : Nat)
  | exportAuditLog (first last : Nat)
  | sealAuditLog (last : Nat)
  | readObject (addr off len : Nat)
  | freeze (us : Nat)
  | releaseFreeze
  | stageSegment (off : Nat) (len ident : Nat)
  | verifyStagedImage (len : Nat)
  | activate
  | discardStagedImage
  | takeOutOfService (cls inst : Nat)
  | returnToService (cls inst : Nat)
  | runOnlineTest (cls inst code : Nat)
  | engineRecall (cls inst : Nat)
  | setTime (t : Nat)
  | getTime
  | installUnlockKey (idx principal key : Nat)
  | removeUnlockKey (idx : Nat)
  | debugPortPolicy (p : Nat)
  | revokeUnlock
  deriving DecidableEq, Repr

/-- A mailbox frame as a Vendor Mailbox Passthrough, a debug MAILBOX packet or a SETTING stitch carries it (R439).
`cmd` is absent for an opcode that the catalogue does not list. -/
structure MbFrame where
  ok : Bool := true
  tag : Nat := 0
  slot : Nat := 0
  force : Bool := false
  fieldsOk : Bool := true
  opcode : Nat := 0
  cmd : Option MbCmd := none
  deriving DecidableEq, Repr

/-- What every mailbox row carries beside its payload: path, slot, tag, principal, force flag, whether the reserved
fields are zero and the fields consistent, and the management session (R435, R439). -/
structure MbF where
  path : Nat := 1
  slot : Nat := 0
  tag : Nat := 0
  principal : Nat := 0
  force : Bool := false
  fieldsOk : Bool := true
  session : Nat := 0
  deriving DecidableEq, Repr

/-- EtherType of a received frame, as far as the parser tells them apart (R330, R344). -/
inductive EthKind where
  | ipv6 | ipv4 | ptp | arp | lldp | other
  deriving DecidableEq, Repr

/-- UDP checksum of a received frame (R40, R342). -/
inductive SumKind where
  | good | zero | bad
  deriving DecidableEq, Repr

/-- What a slow-path frame asks for (R344). -/
inductive SlowKind where
  | resolve | echo | linkInfo | other
  deriving DecidableEq, Repr

/-- A received frame (R329 to R331). -/
structure Frame where
  port : Nat := 0
  fcsOk : Bool := true
  ownMac : Bool := true
  tags : Nat := 0
  pcp : Nat := 0
  dscp : Nat := 0
  eth : EthKind := .ipv6
  fragment : Bool := false
  extHdr : Bool := false
  proto : Nat := 17
  dst : Nat := 0
  sport : Nat := 0
  dport : Nat := 47370
  bytes : Nat := 64
  short : Bool := false
  ipLenOk : Bool := true
  udpLen : Nat := 0
  sum : SumKind := .good
  dataOff : Nat := 5
  version : Nat := 1
  ptype : Nat := 1
  resume : Bool := false
  h : Hdr := {}
  nsid : Nat := 0
  slow : SlowKind := .other
  ident : Nat := 0
  deriving DecidableEq, Repr

/-- The label of a drive as read from LBA 0, or none (R240). -/
structure DriveLabel where
  shelf : Nat := 0
  arrayId : Nat := 0
  spare : Bool := false
  arr : Nat := 0
  pos : Nat := 0
  gen : Nat := 0
  edition : Nat := 3
  layout : Nat := 0
  n : Nat := 0
  shift : Nat := 16
  size : Nat := 0
  deriving DecidableEq, Repr

/-- A volume as the superblock and the map of an imported array describe it (R201, R243, R244): its table entry, its extents
(extent, role, skein state, index) and its map entries. -/
structure ImpVol where
  no : Nat := 0
  packed : Bool := false
  b512 : Bool := false
  prot : Bool := false
  size : Nat := 0
  created : Nat := 0
  nguid : Nat := 0
  allot : Nat := 0
  exts : List (Nat × Nat × Nat × Nat) := []
  map : List (Nat × Nat) := []
  deriving DecidableEq, Repr

/-- A drive as Identify reports it (R163). -/
structure DriveInfo where
  serial : Nat := 0
  model : Nat := 0
  cap : Nat := 0
  ok : Bool := true
  gen5 : Bool := false
  vwc : Bool := true
  states : List (Nat × Nat) := []
  nonop : Option (Nat × Nat) := none
  capTo : Nat := 10000000000
  warn : Nat := 70
  deriving DecidableEq, Repr

/-- The header of an arriving stitch (R277). -/
structure StHdr where
  num : Nat := 1
  time : Nat := 0
  arr : Nat := 255
  assoc : Nat := 0
  deriving DecidableEq, Repr

/-- The association context of an ASSOC stitch (R53, R278). -/
structure AssocCtx where
  src : Nat := 0
  udpPort : Nat := 0
  net : Nat := 0
  principal : Nat := 0
  auth : Nat := 1
  twinCap : Bool := false
  maxPayload : Nat := 8192
  tagLimit : Nat := 2048
  policy : Policy := {}
  deriving DecidableEq, Repr

/-- A witness message as it arrives (R262, R264). `valid` is the verdict on its MAC, `shelfOk` on its shelf ID. -/
structure WMsg where
  valid : Bool := true
  shelfOk : Bool := true
  unit : Nat := 0
  arr : Nat := 0
  ctr : Nat := 0
  echo : Nat := 0
  epoch : Nat := 0
  dur : Nat := 20000
  shadowed : Bool := false
  holder : Nat := 2
  reason : Nat := 0
  relayed : Bool := false
  deriving DecidableEq, Repr

/-- A PTP message as the unit's clock takes it (R423, R424). -/
inductive PtpMsg where
  | announce (gm : Nat) (utc : Option Int) (leap : Option (Nat × Int)) (interval : Nat)
  | sync (offset : Int)
  deriving DecidableEq, Repr

/-- A packet that the outbound copy association receives from the destination (R202). -/
inductive CopyPkt where
  | hello2 (ok : Bool) (assoc : Nat) (paired : Bool)
  | keys4 (ok : Bool)
  | resp (seq row status : Nat)
  | ack (cum : Nat)
  | nak (reason : Nat)
  | flush (seq id covered : Nat)
  deriving DecidableEq, Repr

/-- A member position as a CAST message carries it (R187, R188, R242). -/
structure CastPos where
  st : MemberState := .inSync
  bay : Nat := 255
  serial : Nat := 0
  depGen : Nat := 0
  absence : Option (List Nat) := none
  deriving DecidableEq, Repr

/-- What a CAST message carries (R296). `tables` closes an object class: everything of it has been copied; `restart` asks for the
copies of step 3 and 4 anew. -/
inductive CastSeg where
  | assoc (id : Nat) (c : AssocCtx) (tcp : Bool) (floor : Nat) (done : List Nat) (ioQueues kato : Nat) (feats heads : List (Nat × Nat))
  | windows (id : Nat) (wins : List (Nat × Nat)) (zone : Option (Nat × Nat)) (revoked : List Nat)
  | settings (l : List (Nat × Nat × Int))
  | principals (l : List (PrincRec × Policy))
  | credentials (l : List (Nat × Nat × Nat))
  | witness (addr : Nat)
  | existing (arrs vols : List Nat)
  | array (arr lay strip size gen id created : Nat) (pos : List CastPos) (keepers : List Nat)
  | bitmap (arr : Nat) (regions resync : List Nat)
  | progress (arr patrolRow : Nat) (rebuildRow : Option Nat) (rebuildPos resyncTgt : List Nat)
  | lost (arr row pos reason first cnt time : Nat)
  | volume (arr : Nat) (v : ImpVol) (version skSeq : Nat)
  | skein (arr idx state fill live seq : Nat) (chunks : List (Nat × Nat × Nat))
  | mapPage (vol : Nat) (entries : List (Nat × Nat))
  | journal (arr jSeq replay ckpt : Nat) (recs : List (Nat × Nat × Nat × Nat × Nat × Nat))
  | copy (op vol dstVol cred gate dst pass : Nat) (todo changed : List Nat)
  | dirty (vol lba : Nat) (b : Blk) (assoc row : Nat)
  | push (assoc row off len data : Nat)
  | tables (cls : Nat)
  | restart
  deriving DecidableEq, Repr

/-- The commands of the unit. -/
inductive Instr where
  /-- HELLO_1 (R52). -/
  | hello1 (h : Hello)
  /-- HELLO_1_RESUME (R67). -/
  | hello1Resume (h : Hello)
  /-- KEYS_3 (R52). -/
  | keys3 (h : Hdr) (finishedOk sigOk chainOk : Bool)
  /-- HELLO_LOCKOUT_EXPIRY (R52). -/
  | helloLockoutExpiry (src : Nat)
  /-- HALF_OPEN_EXPIRY (R54). -/
  | halfOpenExpiry (assoc : Nat)
  /-- CMD (R70). -/
  | cmd (h : Hdr) (q : Sqe) (data : Nat) (ranges : List (Nat × Nat)) (frame : Option MbFrame)
  /-- PUSH (R92). -/
  | push (h : Hdr) (data : Nat)
  /-- ACK (R63). -/
  | ack (h : Hdr)
  /-- NAK (R64). -/
  | nak (h : Hdr) (reason : Nat) (ranges : List (Nat × Nat))
  /-- VDT_FLUSH (R95). -/
  | vdtFlush (h : Hdr) (id covered : Nat)
  /-- FLUSH_ACK (R94). -/
  | flushAck (h : Hdr) (id status : Nat)
  /-- VIOLATION (R104). -/
  | violation (h : Hdr) (reason offType len offSeq key off row : Nat)
  /-- KEEPALIVE (R68). -/
  | keepalive (h : Hdr) (release : Bool)
  /-- ACKNOWLEDGEMENT_DELAY_EXPIRY (R63). -/
  | acknowledgementDelayExpiry (assoc : Nat)
  /-- GAP_DELAY_EXPIRY (R64). -/
  | gapDelayExpiry (assoc : Nat)
  /-- RETRANSMISSION_TIMER_EXPIRY (R65). -/
  | retransmissionTimerExpiry (assoc seq : Nat)
  /-- RESUME_WINDOW_EXPIRY (R66). -/
  | resumeWindowExpiry (assoc : Nat)
  /-- KEEPALIVE_INTERVAL_EXPIRY (R68). -/
  | keepaliveIntervalExpiry (assoc : Nat)
  /-- KEY_PHASE_TIMEOUT (R58). -/
  | keyPhaseTimeout (assoc : Nat)
  /-- PREVIOUS_KEY_DISCARD (R59). -/
  | previousKeyDiscard (assoc : Nat)
  /-- VIOLATION_INTERVAL_END (R104). -/
  | violationIntervalEnd
  /-- WINDOW_REGISTER (R82). -/
  | windowRegister (assoc row : Nat)
  /-- WINDOW_REVOKE (R96). -/
  | windowRevoke (assoc row : Nat)
  /-- ZONE_GRANT (R90). -/
  | zoneGrant (assoc row : Nat)
  /-- ZONE_RELEASE (R97). -/
  | zoneRelease (assoc row : Nat)
  /-- WINDOW_DRAIN_END (R96). -/
  | windowDrainEnd (assoc key : Nat)
  /-- ZONE_DATA_WAIT_EXPIRY (R97). -/
  | zoneDataWaitExpiry (assoc : Nat)
  /-- ZONE_DRAIN_END (R97). -/
  | zoneDrainEnd (assoc : Nat)
  /-- GET_LOG_PAGE (R139). -/
  | getLogPage (assoc row : Nat)
  /-- IDENTIFY (R125). -/
  | identify (assoc row : Nat)
  /-- ABORT (R149). -/
  | abort (assoc row : Nat)
  /-- SET_FEATURES (R127). -/
  | setFeatures (assoc row : Nat)
  /-- GET_FEATURES (R127). -/
  | getFeatures (assoc row : Nat)
  /-- ASYNCHRONOUS_EVENT_REQUEST (R145). -/
  | asynchronousEventRequest (assoc row : Nat)
  /-- DEVICE_SELF_TEST (R155). -/
  | deviceSelfTest (assoc row : Nat)
  /-- SELF_TEST_RESUME (R157). -/
  | selfTestResume
  /-- SELF_TEST_END (R156). -/
  | selfTestEnd (result segment : Nat)
  /-- KEEP_ALIVE (R128). -/
  | keepAlive (assoc row : Nat)
  /-- KATO_EXPIRY (R128). -/
  | katoExpiry (assoc : Nat)
  /-- VENDOR_MAILBOX_PASSTHROUGH (R124). -/
  | vendorMailboxPassthrough (assoc row : Nat)
  /-- FLUSH (R133). -/
  | flush (assoc row : Nat)
  /-- WRITE (R131). -/
  | write (assoc row : Nat)
  /-- WRITE_EXECUTABLE (R71). -/
  | writeExecutable (assoc row : Nat)
  /-- WRITE_START (R388). -/
  | writeStart (assoc row : Nat)
  /-- READ (R135). -/
  | read (assoc row : Nat)
  /-- READ_ADMISSION (R309). -/
  | readAdmission (assoc row : Nat)
  /-- SHAPER_RELEASE (R362). -/
  | shaperRelease (assoc : Nat)
  /-- WRITE_ZEROES (R122). -/
  | writeZeroes (assoc row : Nat)
  /-- DATASET_MANAGEMENT (R122). -/
  | datasetManagement (assoc row : Nat)
  /-- VERIFY (R123). -/
  | verify (assoc row : Nat)
  /-- NVME_TCP_CONNECTION (R159). -/
  | nvmeTcpConnection (src port : Nat) (tlsOk : Bool) (principal : Option Nat) (controller : Option Nat) (qid : Nat)
  /-- NVME_TCP_COMMAND_CAPSULE (R160). -/
  | nvmeTcpCommandCapsule (assoc : Nat) (q : Sqe) (len data : Nat) (ranges : List (Nat × Nat))
  /-- NVME_TCP_H2C_DATA (R159). -/
  | nvmeTcpH2cData (assoc row off len data : Nat)
  /-- DRIVE_COMPLETION (R280). -/
  | driveCompletion (dc : Nat) (ok : Bool) (status : Nat) (fatal : Bool) (blocks : List Blk)
  /-- ORPHAN_TIMER_EXPIRY (R151). -/
  | orphanTimerExpiry (dc : Nat)
  /-- DRIVE_COMMAND_TIMEOUT (R475). -/
  | driveCommandTimeout (dc : Nat)
  /-- DRIVE_READY (R476). -/
  | driveReady (bay : Nat) (label : Option DriveLabel)
  /-- DRIVE_READY_TIMEOUT (R476). -/
  | driveReadyTimeout (bay : Nat)
  /-- DRIVE_SUBMISSION (R357). -/
  | driveSubmission (bay : Nat)
  /-- DRAIN_ROW (R178). -/
  | drainRow (arr vol row : Nat)
  /-- DRAIN_ROW_COMPLETE (R179). -/
  | drainRowComplete (arr row : Nat)
  /-- BITMAP_SET_RECORDED (R180). -/
  | bitmapSetRecorded (arr region : Nat)
  /-- BITMAP_IDLE_EXPIRY (R181). -/
  | bitmapIdleExpiry (arr region : Nat)
  /-- RESYNC_ROW (R183). -/
  | resyncRow (arr row : Nat)
  /-- REBUILD_ROW (R190). -/
  | rebuildRow (arr row : Nat)
  /-- MEMBER_ABSENT (R186). -/
  | memberAbsent (arr pos : Nat)
  /-- MEMBER_RETURN (R188). -/
  | memberReturn (arr pos bay : Nat)
  /-- RETURN_GRACE_EXPIRY (R188). -/
  | returnGraceExpiry (arr pos : Nat)
  /-- KEEPER_COPY_COMPLETE (R182). -/
  | keeperCopyComplete (arr pos : Nat)
  /-- PATROL_ROW (R197). -/
  | patrolRow (arr row : Nat) (finding : List (List (Nat × Bool)))
  /-- IMPORT_END (R201). -/
  | importEnd (arr : Nat) (vols : List ImpVol)
  /-- COPY_PASS_END (R203). -/
  | copyPassEnd (op : Nat)
  /-- COPY_FINAL_PASS_END (R203). -/
  | copyFinalPassEnd (op : Nat)
  /-- COPY_FINAL_PASS_TIMEOUT (R203). -/
  | copyFinalPassTimeout (op : Nat)
  /-- CHUNK_COMPRESSED (R224). -/
  | chunkCompressed (vol chunk engine : Nat) (streamLen crc : Nat) (zero : Bool)
  /-- ROW_TIMEOUT (R224). -/
  | rowTimeout (vol : Nat) (frog : Bool)
  /-- ROW_COMMIT (R225). -/
  | rowCommit (vol skein row : Nat)
  /-- CHECKPOINT_INTERVAL_EXPIRY (R220). -/
  | checkpointIntervalExpiry (arr : Nat)
  /-- CHECKPOINT_END (R250). -/
  | checkpointEnd (arr : Nat)
  /-- FROG_SELECT (R232). -/
  | frogSelect (vol skein : Nat)
  /-- MAP_PAGE_FETCH (R219). -/
  | mapPageFetch (vol page : Nat) (entries : List (Nat × Nat))
  /-- LEASE_RENEWAL_TIMER (R269). -/
  | leaseRenewalTimer (arr : Nat)
  /-- GRANT (R268). -/
  | grant (m : WMsg)
  /-- REFUSE (R267). -/
  | refuse (m : WMsg)
  /-- STATE (R273). -/
  | state (m : WMsg)
  /-- WITNESS_POLL (R265). -/
  | witnessPoll
  /-- STOP_POINT (R270). -/
  | stopPoint (arr : Nat)
  /-- RELAY (R271). -/
  | relay (isAnswer : Bool) (m : WMsg) (reachable : Bool)
  /-- PROMISE (R271). -/
  | promise (arr : Nat) (expiry : Nat)
  /-- PROMISE_EXPIRY (R272). -/
  | promiseExpiry (arr : Nat)
  /-- CLAIM_WAIT_EXPIRY (R273). -/
  | claimWaitExpiry (arr : Nat)
  /-- YARN_LINK_DOWN (R274). -/
  | yarnLinkDown (link : Nat)
  /-- YARN_LINK_UP (R274). -/
  | yarnLinkUp (link : Nat)
  /-- HEARTBEAT_TIMER (R274). -/
  | heartbeatTimer (link : Nat)
  /-- HEARTBEAT (R275). -/
  | heartbeat (link : Nat) (mode : Mode) (mains : Bool) (high : Nat) (dialect shelf pool slot : Nat) (endBoot ptpLocked : Bool)
  /-- STITCH_RETRANSMIT_TIMER (R276). -/
  | stitchRetransmitTimer (num : Nat)
  /-- STITCH_ACK (R276). -/
  | stitchAck (num credits : Nat)
  /-- ARRIVAL_STITCH (R279). -/
  | arrivalStitch (h : StHdr) (row qid cid opcode lane disp source nsid blocks slba status : Nat)
  /-- DRIVE_STITCH (R280). -/
  | driveStitch (h : StHdr) (row dc bay outcome status lba : Nat)
  /-- TIMER_STITCH (R278). -/
  | timerStitch (h : StHdr) (code obj : Nat)
  /-- WRITE_PLAN_STITCH (R278). -/
  | writePlanStitch (h : StHdr) (row vol method engine : Nat) (dcs : List (Nat × Nat))
  /-- BITMAP_STITCH (R278). -/
  | bitmapStitch (h : StHdr) (isSet : Bool) (regions : List Nat)
  /-- MEMBER_STITCH (R278). -/
  | memberStitch (h : StHdr) (pos : Nat) (st : MemberState) (gen bay : Nat) (keepers : List Nat)
  /-- LOST_STITCH (R278). -/
  | lostStitch (h : StHdr) (row pos reason first cnt time : Nat)
  /-- PATROL_STITCH (R278). -/
  | patrolStitch (h : StHdr) (row blk mask : Nat) (reported : Bool)
  /-- ROW_STITCH (R278). -/
  | rowStitch (h : StHdr) (vol skein row : Nat) (chunks : List (Nat × Nat × Nat × Nat))
  /-- COMMIT_STITCH (R226). -/
  | commitStitch (h : StHdr) (vol skein row : Nat) (entries : List (Nat × Nat × Nat))
  /-- CHECKPOINT_STITCH (R278). -/
  | checkpointStitch (h : StHdr) (n : Nat) (isEnd : Bool)
  /-- FROG_STITCH (R278). -/
  | frogStitch (h : StHdr) (vol kind skein chunk : Nat)
  /-- ABORT_STITCH (R150). -/
  | abortStitch (h : StHdr) (row kind abortRow : Nat)
  /-- DELIVERED_STITCH (R287). -/
  | deliveredStitch (h : StHdr) (row status : Nat)
  /-- DEFERRED_STITCH (R138). -/
  | deferredStitch (h : StHdr) (seq lba nsid cnt row cause : Nat)
  /-- ASSOC_STITCH (R53). -/
  | assocStitch (h : StHdr) (kind : Nat) (c : AssocCtx)
  /-- ASSOC_STATE_STITCH (R288). -/
  | assocStateStitch (h : StHdr) (kind : Nat)
  /-- ZONE_STITCH (R86). -/
  | zoneStitch (h : StHdr) (row key mib : Nat)
  /-- VIOLATION_STITCH (R103). -/
  | violationStitch (h : StHdr) (reason key off row len : Nat)
  /-- LEASE_STITCH (R269). -/
  | leaseStitch (h : StHdr) (epoch : Nat) (shadowed : Bool) (successor : Nat)
  /-- SETTING_STITCH (R445). -/
  | settingStitch (h : StHdr) (proposal result internal : Bool) (path principal : Nat) (frame : MbFrame) (code kind value : Nat)
  /-- COPY_STITCH (R204). -/
  | copyStitch (h : StHdr) (op pass range : Nat)
  /-- CONFIRM (R286). -/
  | confirm (assoc row : Nat)
  /-- MISSING (R285). -/
  | missing (assoc row : Nat)
  /-- FORWARD (R285). -/
  | forward (assoc row : Nat) (cls key off : Nat) (q : Sqe) (blocks : List Blk)
  /-- TWIN_WAIT_EXPIRY (R285). -/
  | twinWaitExpiry (assoc row : Nat)
  /-- SINGLE_SIDED_ENTRY (R288). -/
  | singleSidedEntry (assoc : Nat)
  /-- TWINLESS_HOLD_EXPIRY (R288). -/
  | twinlessHoldExpiry (assoc row : Nat)
  /-- RELAY_READ (R288). -/
  | relayRead (assoc row status : Nat) (blocks : List (Nat × Blk))
  /-- DIGEST (R291). -/
  | digest (block value : Nat) (ownStream : Bool)
  /-- WARM (R298). -/
  | warm (assoc row status dw0 dw1 : Nat)
  /-- CAST (R296). -/
  | cast (seg : CastSeg) (num : Nat)
  /-- HANDOVER_DRAIN_DEADLINE (R293). -/
  | handoverDrainDeadline (arr : Nat)
  /-- HANDOVER_RESEND_TIMER (R293). -/
  | handoverResendTimer (arr : Nat)
  /-- PROOF_RUN_START (R294). -/
  | proofRunStart
  /-- PROOF_RUN_NEXT (R294). -/
  | proofRunNext (labelsOk vectorsOk : Bool)
  /-- CAST_ON_START (R296). -/
  | castOnStart (joiner : Bool)
  /-- CAST_ON_STEP_COMPLETE (R296). -/
  | castOnStepComplete (pathOk : Bool)
  /-- CAST_ON_DEADLINE (R296). -/
  | castOnDeadline
  /-- CAST_ON_RETRY (R296). -/
  | castOnRetry
  /-- JOINT_START_YIELD (R406). -/
  | jointStartYield (arrs : List Nat)
  /-- FRAME_RECEIVE (R329). -/
  | frameReceive (f : Frame)
  /-- CONTEXT_FETCH_COMPLETE (R337). -/
  | contextFetchComplete (assoc : Nat)
  /-- SLOW_PATH_FRAME (R344). -/
  | slowPathFrame
  /-- PAUSE_REPEAT_TIMER (R313). -/
  | pauseRepeatTimer (port prio : Nat)
  /-- PAUSE_FRAME (R315). -/
  | pauseFrame (port cls quanta : Nat)
  /-- PAUSE_EXPIRY (R315). -/
  | pauseExpiry (port cls : Nat)
  /-- CREDIT_RETURN_TIMER (R315). -/
  | creditReturnTimer (link cls : Nat)
  /-- YARN_CREDIT (R315). -/
  | yarnCredit (link cls cells : Nat)
  /-- EGRESS_SELECT (R354). -/
  | egressSelect (port : Nat)
  /-- AGEING_SWEEP (R318). -/
  | ageingSweep
  /-- PLANE_FAILURE (R324). -/
  | planeFailure (plane : Nat) (lost : List Nat)
  /-- BANK_SWAP_PAUSE (R347). -/
  | bankSwapPause (port : Nat)
  /-- PARSER_STOP (R347). -/
  | parserStop (port : Nat)
  /-- BANK_SWAP (R347). -/
  | bankSwap (port : Nat)
  /-- GATE_INTERVAL_END (R366). -/
  | gateIntervalEnd (list : Nat)
  /-- QUEUE_SAMPLE (R370). -/
  | queueSample
  /-- BAY_INSERT (R381). -/
  | bayInsert (bay : Nat) (d : DriveInfo)
  /-- BAY_REMOVE (R378). -/
  | bayRemove (bay : Nat)
  /-- OUTPUT_REACHES_THRESHOLD (R378). -/
  | outputReachesThreshold (bay : Nat)
  /-- RAMP_TIMEOUT (R378). -/
  | rampTimeout (bay : Nat)
  /-- QUALIFICATION_COMPLETE (R378). -/
  | qualificationComplete (bay : Nat)
  /-- FAULT_TIMER_START (R378). -/
  | faultTimerStart (bay : Nat)
  /-- FAULT_TIMER_CLEAR (R378). -/
  | faultTimerClear (bay : Nat)
  /-- FAULT_TIMER_EXPIRY (R378). -/
  | faultTimerExpiry (bay : Nat)
  /-- MODEL_OVER_TEMPERATURE (R377). -/
  | modelOverTemperature (bay : Nat)
  /-- POWER_GOOD_LOSS (R378). -/
  | powerGoodLoss (bay : Nat)
  /-- PERST_RELEASE (R379). -/
  | perstRelease (bay : Nat)
  /-- COOL_DOWN_END (R378). -/
  | coolDownEnd (bay : Nat) (temp : Int)
  /-- RETRY_BUDGET_RESTORE (R378). -/
  | retryBudgetRestore (bay : Nat)
  /-- BAY_RELINK (R375). -/
  | bayRelink (bay : Nat)
  /-- PARTNER_SLOT_EMPTY_TIMEOUT (R403). -/
  | partnerSlotEmptyTimeout
  /-- BAY_BUTTON_PRESS (R393). -/
  | bayButtonPress (bay : Nat)
  /-- BAY_BUTTON_HELD (R393). -/
  | bayButtonHeld (bay : Nat)
  /-- REMOVAL_PREPARATION_LAPSE (R393). -/
  | removalPreparationLapse (bay : Nat)
  /-- REMOVAL_FLUSH_DEADLINE (R393). -/
  | removalFlushDeadline (bay : Nat)
  /-- REMOVAL_SHUTDOWN_DEADLINE (R393). -/
  | removalShutdownDeadline (bay : Nat) (done : Bool)
  /-- LINE_VOLTAGE_CHANGE (R385). -/
  | lineVoltageChange (volts : Nat)
  /-- BUDGET_RISE_HOLD (R385). -/
  | budgetRiseHold
  /-- POWER_MEASUREMENT_CHECK (R385). -/
  | powerMeasurementCheck (powers : List Nat)
  /-- MAINS_LOSS (R386). -/
  | mainsLoss
  /-- HOLD_UP_DRIVE_DEADLINE (R386). -/
  | holdUpDriveDeadline
  /-- HOLD_UP_DUMP_END (R386). -/
  | holdUpDumpEnd (doneRuns : List Nat)
  /-- HOLD_UP_END (R386). -/
  | holdUpEnd
  /-- MAINS_RETURN (R389). -/
  | mainsReturn
  /-- DUMP_RATE_MEASUREMENT (R388). -/
  | dumpRateMeasurement (arr rate : Nat)
  /-- HOLD_UP_TIME_MEASUREMENT (R388). -/
  | holdUpTimeMeasurement (ns : Nat)
  /-- FAN_LOOP (R390). -/
  | fanLoop (sensors : List Int) (drives : List Nat) (tachs : List Nat) (failing : List Nat)
  /-- FAN_FAILURE (R390). -/
  | fanFailure (fan : Nat)
  /-- OSFP_PRESENCE (R391). -/
  | osfpPresence (cage : Nat) (present : Bool) (watts : Nat)
  /-- OSFP_MONITOR (R391). -/
  | osfpMonitor (cage : Nat) (temp : Int) (highAlarm : Bool)
  /-- SERVICE_KEY_TOUCH (R394). -/
  | serviceKeyTouch
  /-- SERVICE_KEY_HOLD (R394). -/
  | serviceKeyHold
  /-- SERVICE_KEY_LONG_HOLD (R394). -/
  | serviceKeyLongHold
  /-- BACKLIGHT_TIMEOUT (R395). -/
  | backlightTimeout
  /-- MAINS_APPLIED (R407). -/
  | mainsApplied
  /-- SERVICE_DOMAIN_READY (R407). -/
  | serviceDomainReady (slotOpen swatchOk configOk : Bool)
  /-- ROOT_LOCK (R421). -/
  | rootLock
  /-- MANAGEMENT_FIRMWARE_RUNNING (R407). -/
  | managementFirmwareRunning (imageOk : Bool) (volts : Nat)
  /-- BAY_GROUP_TIMER (R407). -/
  | bayGroupTimer
  /-- DRIVE_READY_WAIT_EXPIRY (R407). -/
  | driveReadyWaitExpiry (bay : Nat)
  /-- ARRAYS_ASSEMBLED (R405). -/
  | arraysAssembled (bitmaps : List (Nat × List Nat)) (badRuns : List Nat) (ms : Nat)
  /-- MODE_DRAIN_COMPLETE (R404). -/
  | modeDrainComplete
  /-- WATCHDOG_LAPSE (R270). -/
  | watchdogLapse
  /-- ROOT_LOCK_LOSS (R420). -/
  | rootLockLoss
  /-- THERMAL_LIMIT (R508). -/
  | thermalLimit
  /-- THERMAL_RECOVERY (R508). -/
  | thermalRecovery
  /-- PTP_MESSAGE (R424). -/
  | ptpMessage (m : PtpMsg)
  /-- ANNOUNCE_RECEIPT_TIMEOUT (R428). -/
  | announceReceiptTimeout
  /-- DEVICE_TIME_SAVE (R428). -/
  | deviceTimeSave
  /-- LEAP_SECOND (R423). -/
  | leapSecond
  /-- PS1_ENTRY (R430). -/
  | ps1Entry (load : Nat) (idle : List Nat)
  /-- PS2_IDLE_EXPIRY (R430). -/
  | ps2IdleExpiry
  /-- PS2_SAFE_POINT (R432). -/
  | ps2SafePoint
  /-- POWER_STATE_EXIT (R430). -/
  | powerStateExit (why : Nat)
  /-- MAILBOX_BAD_FRAME (R442). -/
  | mailboxBadFrame (path slot tag opcode session : Nat) (slotFault : Bool)
  /-- MAILBOX_UNKNOWN_OPCODE (R453). -/
  | mailboxUnknownOpcode (f : MbF) (opcode : Nat)
  /-- SERVICE_BUS_RESULT_READ (R436). -/
  | serviceBusResultRead (slot : Nat)
  /-- MANAGEMENT_SESSION_OPEN (R436). -/
  | managementSessionOpen (principal : Option Nat)
  /-- SESSION_IDLE_TIMEOUT (R436). -/
  | sessionIdleTimeout (session : Nat)
  /-- GET_SETTING (R451). -/
  | getSetting (f : MbF) (grp sid inst : Nat)
  /-- SET_SETTING (R451). -/
  | setSetting (f : MbF) (grp sid inst : Nat) (val : Int)
  /-- UNIT_IDENTIFY (R453). -/
  | unitIdentify (f : MbF)
  /-- GET_ALARMS (R453). -/
  | getAlarms (f : MbF)
  /-- CLEAR_CONFIGURATION_ALARM (R414). -/
  | clearConfigurationAlarm (f : MbF)
  /-- CHANGE_MODE (R403). -/
  | changeMode (f : MbF) (req : Nat)
  /-- MODULE_RESET (R409). -/
  | moduleReset (f : MbF)
  /-- CONTROLLER_RESET (R412). -/
  | controllerReset (f : MbF)
  /-- OPERATION_STATUS (R444). -/
  | operationStatus (f : MbF) (op : Nat)
  /-- OPERATION_CANCEL (R453). -/
  | operationCancel (f : MbF) (op : Nat)
  /-- SET_PORT_ADDRESSES (R330). -/
  | setPortAddresses (f : MbF) (port : Nat) (addrs : List Nat)
  /-- WRITE_INDIRECTION_TABLE (R341). -/
  | writeIndirectionTable (f : MbF) (mask : Nat) (entries : List Nat)
  /-- WRITE_DSCP_TABLES (R346). -/
  | writeDscpTables (f : MbF) (mask : Nat) (rx tx : List Nat)
  /-- ASSOCIATION_RESET (R152). -/
  | associationReset (f : MbF) (assoc : Nat)
  /-- LIST_ASSOCIATIONS (R453). -/
  | listAssociations (f : MbF) (first : Nat)
  /-- PRINCIPAL_CREATE (R449). -/
  | principalCreate (f : MbF) (r : PrincRec)
  /-- PRINCIPAL_MODIFY (R449). -/
  | principalModify (f : MbF) (r : PrincRec)
  /-- PRINCIPAL_REMOVE (R449). -/
  | principalRemove (f : MbF) (idx : Nat)
  /-- PRINCIPAL_LIST (R453). -/
  | principalList (f : MbF) (first : Nat)
  /-- GENERATE_UNIT_KEY (R453). -/
  | generateUnitKey (f : MbF)
  /-- INSTALL_UNIT_CERTIFICATE (R453). -/
  | installUnitCertificate (f : MbF) (len : Nat) (cert key : Nat)
  /-- SET_OUTBOUND_CREDENTIAL (R453). -/
  | setOutboundCredential (f : MbF) (cred len psk ident : Nat)
  /-- ARRAY_CREATE (R453). -/
  | arrayCreate (f : MbF) (arr lay n shift : Nat) (bays : List Nat)
  /-- ARRAY_DELETE (R453). -/
  | arrayDelete (f : MbF) (arr : Nat)
  /-- ASSIGN_DRIVE (R164). -/
  | assignDrive (f : MbF) (bay role : Nat)
  /-- MARK_MEMBER_FAILED (R186). -/
  | markMemberFailed (f : MbF) (arr pos : Nat)
  /-- ARRAY_STATUS (R453). -/
  | arrayStatus (f : MbF) (arr : Nat)
  /-- LIST_LOST_BLOCKS (R194). -/
  | listLostBlocks (f : MbF) (arr first : Nat)
  /-- LIST_PATROL_REPORTS (R199). -/
  | listPatrolReports (f : MbF) (arr first : Nat)
  /-- IMPORT_ARRAY (R201). -/
  | importArray (f : MbF) (mask : Nat)
  /-- VOLUME_CREATE (R206). -/
  | volumeCreate (f : MbF) (vol arr kind flags size allot : Nat)
  /-- VOLUME_DELETE (R453). -/
  | volumeDelete (f : MbF) (vol : Nat)
  /-- VOLUME_RESIZE (R173). -/
  | volumeResize (f : MbF) (vol size : Nat)
  /-- COPY_START (R202). -/
  | copyStart (f : MbF) (vol dstVol cred gate dst : Nat)
  /-- COPY_CUTOVER (R203). -/
  | copyCutover (f : MbF) (op : Nat)
  /-- LIST_MAP_INCONSISTENCIES (R217). -/
  | listMapInconsistencies (f : MbF) (vol first : Nat)
  /-- WRITE_GATE_LIST (R366). -/
  | writeGateList (f : MbF) (list base change : Nat) (entries : List Nat)
  /-- READ_GATE_LIST (R453). -/
  | readGateList (f : MbF) (list : Nat)
  /-- SET_POLICY_RECORD (R363). -/
  | setPolicyRecord (f : MbF) (target idx : Nat) (p : Policy)
  /-- CLEAR_QUEUE_RECORDS (R371). -/
  | clearQueueRecords (f : MbF) (cls inst : Nat)
  /-- SET_WITNESS_ADDRESS (R402). -/
  | setWitnessAddress (f : MbF) (addr : Nat)
  /-- SET_WITNESS_KEY (R259). -/
  | setWitnessKey (f : MbF) (key : Nat)
  /-- HANDOVER (R293). -/
  | handover (f : MbF) (arr : Nat)
  /-- START_PROOF_RUN (R294). -/
  | startProofRun (f : MbF)
  /-- CLEAR_NO_CLAIM_MARKS (R273). -/
  | clearNoClaimMarks (f : MbF) (mask : Nat)
  /-- READ_DIVERGENCE_SNAPSHOT (R292). -/
  | readDivergenceSnapshot (f : MbF) (off len : Nat)
  /-- PAIR_STATUS (R453). -/
  | pairStatus (f : MbF)
  /-- BAY_POWER (R378). -/
  | bayPower (f : MbF) (bay action : Nat)
  /-- REMOVAL_REQUEST (R393). -/
  | removalRequest (f : MbF) (bay step : Nat)
  /-- LOCATE (R392). -/
  | locate (f : MbF) (bay on : Nat)
  /-- POWER_STATE_REQUEST (R430). -/
  | powerStateRequest (f : MbF) (ps : Nat)
  /-- POWER_STATUS (R399). -/
  | powerStatus (f : MbF)
  /-- EXPORT_SWATCH (R462). -/
  | exportSwatch (f : MbF)
  /-- WRITE_SWATCH_ENTRY (R463). -/
  | writeSwatchEntry (f : MbF) (check entry : Nat) (val : Int)
  /-- READ_AUDIT_ENTRIES (R453). -/
  | readAuditEntries (f : MbF) (first n : Nat)
  /-- EXPORT_AUDIT_LOG (R459). -/
  | exportAuditLog (f : MbF) (first last : Nat)
  /-- SEAL_AUDIT_LOG (R460). -/
  | sealAuditLog (f : MbF) (last : Nat)
  /-- READ_OBJECT (R466). -/
  | readObject (f : MbF) (addr off len : Nat)
  /-- FREEZE (R467). -/
  | freeze (f : MbF) (us : Nat)
  /-- FREEZE_EXPIRY (R467). -/
  | freezeExpiry
  /-- RELEASE_FREEZE (R467). -/
  | releaseFreeze (f : MbF)
  /-- STAGE_SEGMENT (R453). -/
  | stageSegment (f : MbF) (off : Nat) (len ident : Nat)
  /-- VERIFY_STAGED_IMAGE (R453). -/
  | verifyStagedImage (f : MbF) (len : Nat)
  /-- ACTIVATE (R153). -/
  | activate (f : MbF)
  /-- ACTIVATION_DRAIN_END (R153). -/
  | activationDrainEnd
  /-- ACTIVATION_DRAIN_TIMEOUT (R153). -/
  | activationDrainTimeout
  /-- DISCARD_STAGED_IMAGE (R453). -/
  | discardStagedImage (f : MbF)
  /-- TAKE_OUT_OF_SERVICE (R477). -/
  | takeOutOfService (f : MbF) (cls inst : Nat)
  /-- PART_DRAIN_COMPLETE (R478). -/
  | partDrainComplete (cls inst : Nat)
  /-- RETURN_TO_SERVICE (R477). -/
  | returnToService (f : MbF) (cls inst : Nat)
  /-- RUN_ONLINE_TEST (R483). -/
  | runOnlineTest (f : MbF) (cls inst code : Nat)
  /-- ONLINE_TEST_END (R477). -/
  | onlineTestEnd (cls inst : Nat) (pass : Bool)
  /-- ENGINE_RECALL (R473). -/
  | engineRecall (f : MbF) (cls inst : Nat)
  /-- TILE_WATCHDOG (R473). -/
  | tileWatchdog (cls inst cause : Nat)
  /-- HBM_UNCORRECTED_ERROR (R481). -/
  | hbmUncorrectedError (pcp : Nat) (lostBlocks : List (Nat × Nat))
  /-- HBM_COPY_COMPLETE (R481). -/
  | hbmCopyComplete (pcp : Nat)
  /-- NET_PORT_DRAIN_END (R480). -/
  | netPortDrainEnd (port : Nat)
  /-- SET_TIME (R425). -/
  | setTime (f : MbF) (t : Nat)
  /-- GET_TIME (R427). -/
  | getTime (f : MbF)
  /-- INSTALL_UNLOCK_KEY (R493). -/
  | installUnlockKey (f : MbF) (idx principal key : Nat)
  /-- REMOVE_UNLOCK_KEY (R453). -/
  | removeUnlockKey (f : MbF) (idx : Nat)
  /-- DEBUG_PORT_POLICY (R494). -/
  | debugPortPolicy (f : MbF) (p : Nat)
  /-- REVOKE_UNLOCK (R488). -/
  | revokeUnlock (f : MbF)
  /-- DDP_CONNECT (R492). -/
  | ddpConnect (q : Nat)
  /-- DDP_UNLOCK (R493). -/
  | ddpUnlock (q key : Nat) (sigOk : Bool)
  /-- DDP_HALT (R500). -/
  | ddpHalt (q core : Nat)
  /-- DDP_RESUME (R492). -/
  | ddpResume (q core : Nat)
  /-- DDP_STEP (R497). -/
  | ddpStep (q core : Nat)
  /-- DDP_STATE (R498). -/
  | ddpState (q core : Nat)
  /-- DDP_SET_BREAK (R497). -/
  | ddpSetBreak (q core idx : Nat) (on : Bool) (addr : Nat)
  /-- DDP_SET_WATCH (R497). -/
  | ddpSetWatch (q core idx access shift addr : Nat)
  /-- DDP_REG_READ (R496). -/
  | ddpRegRead (q core idx : Nat)
  /-- DDP_REG_WRITE (R496). -/
  | ddpRegWrite (q core idx val : Nat)
  /-- DDP_MEM_READ (R499). -/
  | ddpMemRead (q space core len off addr : Nat)
  /-- DDP_MEM_WRITE (R499). -/
  | ddpMemWrite (q space core off addr : Nat) (bytes : List Nat)
  /-- DDP_MAILBOX (R492). -/
  | ddpMailbox (q slot : Nat) (f : MbFrame)
  /-- DDP_MAILBOX_RESULT (R492). -/
  | ddpMailboxResult (q slot : Nat)
  /-- DDP_DEBUG_RESET (R413). -/
  | ddpDebugReset (q core : Nat)
  /-- DDP_DISCONNECT (R488). -/
  | ddpDisconnect (q : Nat)
  /-- DDP_BAD_PACKET (R490). -/
  | ddpBadPacket (q type : Nat) (unknownType : Bool)
  /-- LINK_RESET (R486). -/
  | linkReset
  /-- DEBUG_PRESENCE_CHANGE (R488). -/
  | debugPresenceChange (present : Bool)
  /-- BREAKPOINT_HIT (R497). -/
  | breakpointHit (core idx : Nat)
  /-- WATCHPOINT_HIT (R497). -/
  | watchpointHit (core idx : Nat)
  /-- DEBUG_HOLD_END (R502). -/
  | debugHoldEnd
  /-- UNLOCK_LOCKOUT_EXPIRY (R494). -/
  | unlockLockoutExpiry
  /-- CHALLENGE_EXPIRY (R493). -/
  | challengeExpiry
  /-- CONSOLE_RECEIVE (R489). -/
  | consoleReceive (char : Nat)
  /-- PORT_LINK_STATE_CHANGE (R351). -/
  | portLinkStateChange (port : Nat) (up : Bool) (rate : Nat)
  /-- BAY_LINK_STATE_CHANGE (R186). -/
  | bayLinkStateChange (bay : Nat) (up : Bool)
  /-- PARTNER_PRESENCE_CHANGE (R510). -/
  | partnerPresenceChange (present : Bool)
  /-- MOD_PRES_BREAK (R512). -/
  | modPresBreak
  /-- RECOVERY_RUNG_OVERRUN (R472). -/
  | recoveryRungOverrun (rung obj : Nat)
  /-- DEBUG_HOLD_DEADLINE (R502). -/
  | debugHoldDeadline
  /-- PS2_REQUEST_TIMEOUT (R431). -/
  | ps2RequestTimeout
  /-- WITNESS_QUERY_REPEAT (R402). -/
  | witnessQueryRepeat
  /-- STANDBY_SHUTDOWN_DEADLINE (R403). -/
  | standbyShutdownDeadline
  /-- INBAND_SLOT_WAIT_EXPIRY (R436). -/
  | inbandSlotWaitExpiry (assoc row : Nat)
  /-- STAGED_IMAGE_VERIFY_END (R453). -/
  | stagedImageVerifyEnd (ok : Bool) (version dialect : Nat)
  /-- AUDIT_EXPORT_END (R459). -/
  | auditExportEnd
  /-- ACTIVATION_RESTART_COMPLETE (R153). -/
  | activationRestartComplete
  /-- LEDGER_HEADER_WRITE_TIMER (R246). -/
  | ledgerHeaderWriteTimer (arr : Nat)
  /-- MANAGEMENT_SESSION_CLOSE (R441). -/
  | managementSessionClose (session : Nat)
  /-- NVME_TCP_CONNECTION_CLOSE (R160). -/
  | nvmeTcpConnectionClose (assoc qid : Nat)
  /-- COPY_ASSOCIATION_PACKET (R202). -/
  | copyAssociationPacket (op : Nat) (p : CopyPkt)
  deriving DecidableEq, Repr

end Sys2Proof
end

