-- ==== Sys2Proof/Config.lean ====
section
/-! DEFINITION. What the manual leaves open: constants without a body, so that no proof can use a value of them. -/

namespace Sys2Proof.Config

/-- A candidate association ID (R46 leaves the choice to the image); the machine takes the first admissible ID from it on. -/
opaque assocId : Nat → Nat

/-- Random data drawn by the unit: NGUIDs (R126), shelf and array IDs (R240), challenges (R493), ephemeral keys (R48). -/
opaque random : Nat → Nat

/-- SHA-256 as a number, over a list of field values (R292, R456, R457, R460). -/
opaque sha256 : List Nat → Nat

/-- The 64-bit guard of protection information over a block's data (R120). -/
opaque guard64 : Nat → Nat

/-- Magnitude of the rate adjustment chosen for a slew (R422 bounds it; the manual gives no law). -/
opaque slew : Nat → Nat

/-- A byte of processor memory, tag SRAM or HBM that the debug port has not written (R499). -/
opaque byte : Nat → Nat → Nat

/-- Register content of a core that runs or has stepped (the instruction set is not described). -/
opaque coreReg : Nat → Nat → Nat

/-- The public half of a generated Ed25519 key (0314h). -/
opaque unitKey : Nat → Nat

/-- The bytes of an Ed25519 signature by the unit key (R459). -/
opaque signature : List Nat → Nat

/-- Content of log pages and records whose bytes the manual names by reference only (SMART, R139). -/
opaque smart : Nat → Nat

/-- Rail rating, 0.1 W, at a line voltage in 0.1 V outside the bands of R382. -/
opaque railRating : Nat → Nat

/-- Duty of the fans above the minimum that the 1 s loop chooses, percent (R390 gives the aims of the loop, not its law). -/
opaque fanDuty : Nat → Nat

/-- Replay credits that a STITCH-ACK grants (R282 bounds the queued work, not the number). -/
opaque credits : Nat → Nat

/-- A block's content as the drives hold it, where no drive result is at hand (R2: drives are surroundings). -/
opaque media : Nat → Nat

/-- The 4,112 covered bytes of a granule of a compressed or raw chunk, from its array, skein, granule, chunk and time: the manual fixes the
stream's format, not the compressor's choice (R210, R213). -/
opaque granule : List Nat → Nat

/-- The bytes of a record whose content the manual lists without giving its layout (R104, R199, R343, R350, R399, R442), from a number for
the record and its field values. -/
opaque encoding : Nat → List Nat → List Nat

end Sys2Proof.Config
end

