-- ==== Sys2Proof/Machine/State.lean ====
section
/-! DEFINITION. The state of one unit, its reset value, the faults and refusals of a step. -/

namespace Sys2Proof.Machine

/-- Why a command stops the model. Every constructor is raised by a command that reports a physical event on a part the
unit does not have; no such event exists (R18, R22), so stopping is safe. -/
inductive Fault where
  /-- A bay event names a bay above 23; raised by the bay and panel rows. Safe: the bays are 0 to 23 (R18). -/
  | noSuchBay
  /-- A frame or link event names a port the event cannot have; raised by FRAME_RECEIVE and the link rows. Safe (R304). -/
  | noSuchPort
  /-- A core event names a core above 35; raised by the breakpoint rows. Safe: the cores are 0 to 35 (R492). -/
  | noSuchCore
  deriving DecidableEq, Repr

/-- Why a command has no meaning in the model. -/
inductive Refusal where
  /-- The row of this mnemonic is not modelled; raised by its arm of exec. Safe: nothing follows from it. -/
  | notModelled (mnemonic : String)
  deriving DecidableEq, Repr

/-- Memory that the debug port has written: (address, byte) pairs, addresses strictly rising. -/
abbrev Memory := List Host.Cell

/-- Half-open, live or suspended (R335, R66). -/
inductive AssocState where
  | halfOpen | live | suspended
  deriving DecidableEq, Repr

/-- The states of a bay channel (R376, R378). -/
inductive ChanState where
  | empty | off | ramp | qualify | on | coolDown | latched
  deriving DecidableEq, Repr

/-- The roles of a drive (R164). -/
inductive DriveRole where
  | member | spare | unassigned | refused
  deriving DecidableEq, Repr

/-- The states of a skein (R230). -/
inductive SkeinState where
  | reserved | openHost | openFrog | closed | frogging
  deriving DecidableEq, Repr

/-- Where an accepted command stands: it waits for its own step, for its data, for room under the caps of R388, for
CONFIRM, for the media, for admission, for its drives, for the host's FLUSH_ACK, for an acknowledgement of its stitch,
or for another event. -/
inductive CmdState where
  | accepted | needData | executable | waitConfirm | waitMedia | waitAdmission | reading | placing | waitStitch | waiting
  deriving DecidableEq, Repr

/-- What a read waits for before its data move: `deferred` once its admission has been held back, and counted (R326). -/
inductive WaitWhy where
  | none | admission | deferred | shaper | drives | mapPage
  deriving DecidableEq, Repr

/-- The completion entry of a RESP (R108). `sc` is SCT x 256 + SC. -/
structure Resp where
  assoc : Nat := 0
  row : Nat := 0
  dw0 : Nat := 0
  dw1 : Nat := 0
  sqHead : Nat := 0
  qid : Nat := 0
  cid : Nat := 0
  sc : Nat := 0
  more : Bool := false
  dnr : Bool := false
  deriving DecidableEq, Repr

/-- What a sequenced packet of the module carries (R43, R51, R68, R73). -/
inductive PktBody where
  | keys4 (addrs : List (Nat × Nat × Nat))
  | keepalive (release : Bool)
  | place (row key off len : Nat) (last : Bool) (data : Nat)
  | resp (r : Resp)
  | flush (id covered : Nat)
  | flushAck (id status : Nat)
  | violation (reason offType len offSeq key off row : Nat)
  deriving DecidableEq, Repr

/-- What a drive command does (R280, R357). -/
inductive DrvOp where
  | read | write | dealloc | flush | shutdown | setPower (ps : Nat) | abort (dc : Nat) | selfTest
  deriving DecidableEq, Repr

/-- What a drive command serves. -/
inductive DrvWhy where
  | other
  | hostRead (assoc row lba cnt : Nat)
  | recon (assoc row lba cnt pos : Nat)
  | chunk (assoc row vol chunk : Nat)
  | drainRead (arr row pos blk : Nat)
  | drainWrite (arr row pos : Nat)
  | jobRead (arr row kind pos : Nat)
  | jobWrite (arr row kind pos : Nat)
  | rowWrite (vol skein row pos : Nat)
  | journal (arr blk : Nat)
  | metaData (arr : Nat)
  | superblock (arr : Nat)
  | index (vol skein : Nat)
  | hostFlush (assoc row : Nat)
  | removal
  | selfTest
  | copy (op range : Nat)
  deriving DecidableEq, Repr

/-- What leaves the unit by a port. `vdtRef` names a sequenced packet while it is queued; its acknowledgement fields are
those of the moment it leaves (R63). -/
inductive OutMsg where
  | vdtRef (assoc seq : Nat)
  | vdt (assoc dst udp seq attempt phase cls : Nat) (ackNow : Bool) (cum sack : Nat) (body : PktBody)
  | ackPkt (assoc dst udp cum sack : Nat)
  | nakPkt (assoc dst udp cum sack reason : Nat) (ranges : List (Nat × Nat))
  | nakClear (dst reason : Nat)
  | hello2 (dst assoc auth unit : Nat) (paired : Bool) (maxPayload ident key : Nat)
  | tcpAccept (src port qid : Nat)
  | tcpRefuse (src port : Nat)
  | tcpData (assoc row data : Nat)
  | tcpR2t (assoc row len : Nat)
  | tcpResp (r : Resp)
  | tcpClose (assoc qid : Nat)
  | stitch (num link kind arr assoc time : Nat) (data : List Nat)
  | stitchAck (num credits : Nat)
  | heartbeat (link : Nat) (mode : Mode) (mains : Bool) (high dialect shelf pool slot : Nat) (endBoot ptpLocked : Bool)
  | confirm (assoc row : Nat)
  | missing (assoc row : Nat)
  | forward (assoc row cls key off : Nat) (q : Sqe) (blocks : List Blk)
  | relayRead (assoc row status : Nat) (blocks : List (Nat × Blk))
  | digest (block value : Nat) (ownStream : Bool)
  | relay (isAnswer : Bool) (arr ctr : Nat) (fields : List Nat)
  | promise (arr expiry : Nat)
  | yielded (arrs : List Nat)
  | warm (assoc row status dw0 dw1 : Nat)
  | cast (seg : CastSeg) (num : Nat)
  | witness (path kind arr ctr epoch durUs : Nat) (shadowed : Bool)
  | arpReply
  | echoReply (ident : Nat)
  | lldp (ident : Nat)
  | yarnCredit (link cls cells : Nat)
  | copyHello (op dst : Nat)
  | copyKeys (op assoc : Nat)
  | copyWrite (op assoc seq row range : Nat) (twin : Bool)
  | copyAck (op assoc cum : Nat)
  | copyFlushAck (op assoc id : Nat)
  | driveData (dc cells : Nat)
  deriving DecidableEq, Repr

/-- A result frame sent on a mailbox path (R439). -/
structure MbOut where
  path : Nat := 1
  slot : Nat := 0
  tag : Nat := 0
  opcode : Nat := 0
  code : Nat := 0
  auditSeq : Nat := 0
  payload : List Nat := []
  deriving DecidableEq, Repr

/-- A response of the debug port (R487, R492). -/
structure DdpResp where
  seq : Nat := 0
  type : Nat := 0
  status : Nat := 0
  payload : List Nat := []
  deriving DecidableEq, Repr

/-- What follows when the unit has no array left to hand over (R293, R404, R153, R394, R502). -/
inductive AfterHand where
  | standby | maintenance | activation | moduleReset | debugHold | withdraw | holdUp
  deriving DecidableEq, Repr

/-- A frame in the slow-path queue (R344). -/
structure SlowFrame where
  port : Nat := 0
  kind : SlowKind := .other
  ident : Nat := 0
  src : Nat := 0
  dst : Nat := 0
  t : Nat := 0
  frag : Bool := false
  punt : Option Nat := none
  deriving DecidableEq, Repr

/-- The swatch as shipped: gain 1.0, offset 0, rth 2,500 mK/W, tau 8,000 us per bay, metering gain 1.0, sensor offsets 0,
reference trim 0 (R462, R377; gains and offsets are a DESIGN CHOICE, log 2). -/
def swatchFactory : List Int :=
  List.replicate 24 16777216 ++ List.replicate 24 0 ++ List.replicate 24 2500 ++ List.replicate 24 8000
    ++ [16777216] ++ List.replicate 17 0

/-- An association's two-rate three-colour meter and its policing record (R359, R364). -/
structure Meter where
  /-- committed bucket, 10^-9 bytes (R359) -/
  tc : Nat := 0
  /-- peak bucket, 10^-9 bytes (R359) -/
  tp : Nat := 0
  /-- elapsed ns at the last update of the buckets (R359) -/
  t : Nat := 0
  /-- green packets (R364) -/
  greenPk : Nat := 0
  /-- green cost (R364) -/
  greenCost : Nat := 0
  /-- yellow packets (R364) -/
  yellowPk : Nat := 0
  /-- yellow cost (R364) -/
  yellowCost : Nat := 0
  /-- red packets (R364) -/
  redPk : Nat := 0
  /-- red cost (R364) -/
  redCost : Nat := 0
  /-- shaper deferrals (R364) -/
  deferrals : Nat := 0
  /-- shaper wait, ns (R364) -/
  shWait : Nat := 0
  deriving DecidableEq, Repr

/-- An association's credit shaper (R361, R362). -/
structure Shaper where
  /-- signed credit, 10^-9 bytes (R361) -/
  credit : Int := 0
  /-- elapsed ns at the last update (R361) -/
  t : Nat := 0
  /-- whether work waits (R361) -/
  waiting : Bool := false
  deriving DecidableEq, Repr

/-- One sequenced packet of the module that is not yet acknowledged (R60, R65, R310). -/
structure TxPkt where
  /-- its packet sequence (R60) -/
  seq : Nat := 0
  /-- 0 at the first sending, at most 16 (R60) -/
  attempt : Nat := 0
  /-- key phase of its last sending (R60) -/
  phase : Nat := 0
  /-- what it carries (R43) -/
  body : PktBody := .keepalive false
  /-- row of its command, 0 if none (R41) -/
  row : Nat := 0
  /-- traffic class (R75) -/
  cls : Nat := 5
  /-- retained cells (R310) -/
  cells : Nat := 1
  /-- retained cells moved to SPILL (R307) -/
  spilled : Bool := false
  /-- elapsed ns of its last departure, none while queued (R310) -/
  sentAt : Option Nat := none
  /-- RTO value with which its timer is armed (R65) -/
  armed : Nat := 0
  /-- elapsed ns at which the timer expires (R65) -/
  timer : Option Nat := none
  /-- elapsed ns of the last NAK-driven retransmission (R64) -/
  lastRetx : Option Nat := none
  deriving DecidableEq, Repr

/-- A host window of an association (R82, R87, R96). -/
structure Window where
  /-- window key (R82) -/
  key : Nat := 0
  /-- length in bytes (R82) -/
  len : Nat := 0
  /-- revocation in drain (R96) -/
  closing : Bool := false
  /-- rows of the Window Revoke commands that wait for the drain (R83) -/
  revokeRows : List Nat := []
  /-- commands cancelled in the drain (R82) -/
  cancelled : Nat := 0
  deriving DecidableEq, Repr

/-- PUSH data held for a row (R92). -/
structure PushData where
  /-- row (R92) -/
  row : Nat := 0
  /-- zone offset of the first byte (R92) -/
  off : Nat := 0
  /-- bytes (R92) -/
  len : Nat := 0
  /-- the bytes carried, as a little-endian number (R92) -/
  data : Nat := 0
  deriving DecidableEq, Repr

/-- An association's landing zone (R82, R90, R97). -/
structure Zone where
  /-- zone key (R82) -/
  key : Nat := 0
  /-- granted size, MiB (R90) -/
  mib : Nat := 0
  /-- release in drain (R97) -/
  closing : Bool := false
  /-- elapsed ns at closing (R97) -/
  closedAt : Nat := 0
  /-- rows of the Zone Release commands that wait for the drain (R83) -/
  releaseRows : List Nat := []
  /-- writes cancelled in the drain (R82) -/
  cancelled : Nat := 0
  /-- PUSH data by row and offset (R92) -/
  held : List PushData := []
  deriving DecidableEq, Repr

/-- Association statistics, log page C3h, and violation counters (R144, R104). -/
structure AStats where
  /-- commands completed (R144) -/
  completed : Nat := 0
  /-- reads (R144) -/
  reads : Nat := 0
  /-- writes, Write Zeroes included (R144) -/
  writes : Nat := 0
  /-- bytes read (R144) -/
  bytesRead : Nat := 0
  /-- bytes written (R144) -/
  bytesWritten : Nat := 0
  /-- aborts received (R144) -/
  abortsRx : Nat := 0
  /-- aborts already completed (R150) (R144) -/
  abortsDone : Nat := 0
  /-- Tags Exhausted completions (R144) -/
  tagsExh : Nat := 0
  /-- violations detected or received (R104) (R144) -/
  violations : Nat := 0
  /-- violations by reason 1 to 5 (R104) -/
  violBy : List Nat := [0, 0, 0, 0, 0]
  /-- packets retransmitted by the unit (R144) -/
  retx : Nat := 0
  /-- duplicates received from the host (R144) -/
  dups : Nat := 0
  /-- latency histogram (R144) -/
  hist : List Nat := List.replicate 16 0
  deriving DecidableEq, Repr

/-- An asynchronous event that waits for a request (R145, R146). -/
structure Event where
  /-- event type 1, 2 or 7 (R146) -/
  etype : Nat := 0
  /-- event information (R146) -/
  info : Nat := 0
  /-- log page named (R146) -/
  page : Nat := 0
  deriving DecidableEq, Repr

/-- The context of one association, or of one NVMe/TCP host controller (R44 prose, R45, R160). -/
structure Assoc where
  /-- association ID (R46) -/
  id : Nat := 0
  /-- source address (R45) -/
  src : Nat := 0
  /-- host UDP port (R47) -/
  udpPort : Nat := 0
  /-- NET port on which it last received (R480) -/
  net : Nat := 0
  /-- half-open, live or suspended (R335) -/
  st : AssocState := .halfOpen
  /-- context index (R335) -/
  ctx : Nat := 0
  /-- entry in the overflow area (R334) -/
  overflow : Bool := false
  /-- this unit is the responding unit (R53) -/
  responding : Bool := true
  /-- an NVMe/TCP host controller (R160) -/
  tcp : Bool := false
  /-- queue IDs of its open NVMe/TCP connections (R159) -/
  tcpConns : List Nat := []
  /-- principal index (R52) -/
  principal : Nat := 0
  /-- 1 pre-shared key, 2 certificate (R47) -/
  authMode : Nat := 1
  /-- host performs twin send (R47) -/
  twinCap : Bool := false
  /-- maximum payload of the association (R48) -/
  maxPayload : Nat := 8192
  /-- identity of the HELLO-1 held half-open (R54) -/
  hello : Nat := 0
  /-- elapsed ns at which the half-open handshake began (R54) -/
  created : Nat := 0
  /-- ASSOC stitch whose confirmation KEYS-4 waits for (R53) -/
  awaitStitch : Option Nat := none
  /-- single-sided operation (R288) -/
  singleSided : Bool := false
  /-- the partner has stitched a suspension (R288) -/
  partnerSuspended : Bool := false
  /-- elapsed ns since which the partner sent MISSING for every ARRIVAL (R288) -/
  missSince : Option Nat := none
  /-- MISSINGs received in that run (R288) -/
  missCount : Nat := 0
  /-- cumulative acknowledgement N of the host's direction (R41) -/
  rxCum : Nat := 0
  /-- sequences above N received (R61) -/
  rxSet : List Nat := []
  /-- newly received packets not yet acknowledged (R63) -/
  rxNew : Nat := 0
  /-- elapsed ns at which the acknowledgement delay expires (R63) -/
  rxOldest : Option Nat := none
  /-- elapsed ns since which a gap stands (R64) -/
  gapSince : Option Nat := none
  /-- elapsed ns of the last NAK of reason 1 (R64) -/
  lastNak : Option Nat := none
  /-- current key phase of the host's direction (R59) -/
  rxPhase : Nat := 0
  /-- previous key phase (R59) -/
  rxPrev : Option Nat := none
  /-- the key of the previous phase is held (R59) -/
  rxPrevKey : Bool := false
  /-- elapsed ns at which the previous key is discarded (R59) -/
  rxPrevUntil : Nat := 0
  /-- next packet sequence of the unit's direction (R60) -/
  txNext : Nat := 1
  /-- packets queued or sent and not acknowledged (R61) -/
  unacked : List TxPkt := []
  /-- packets (body, row, class) that wait for room in the 1,024 (R310) -/
  txWait : List (PktBody × Nat × Nat) := []
  /-- key phase of the unit's direction (R58) -/
  txPhase : Nat := 0
  /-- elapsed ns at which the phase began (R58) -/
  txPhaseAt : Nat := 0
  /-- packets sent in the phase (R58) -/
  txPhaseN : Nat := 0
  /-- retransmission timeout, ns (R65) -/
  rto : Nat := 50000
  /-- smoothed round-trip time, ns (R65) -/
  srtt : Option Nat := none
  /-- round-trip variation, ns (R65) -/
  rttvar : Nat := 0
  /-- acknowledgement delay at establishment, ns (R81) -/
  ackDelay : Nat := 10000
  /-- packets per acknowledgement (R81) -/
  pktsPerAck : Nat := 16
  /-- gap delay, ns (R81) -/
  gapDelay : Nat := 20000
  /-- keepalive interval, ns (R81) -/
  keepalive : Nat := 1000000000
  /-- resume window, ns (R81) -/
  resumeWin : Nat := 60000000000
  /-- key phase time limit, ns (R81) -/
  phaseTime : Nat := 86400000000000
  /-- elapsed ns of the last packet sent or received (R68) -/
  lastAct : Nat := 0
  /-- elapsed ns at suspension (R66) -/
  suspAt : Nat := 0
  /-- next flush ID of the unit (R73) -/
  flushNext : Nat := 1
  /-- sequences of the host refused by VIOLATION and not yet reported by a FLUSH_ACK (R73) -/
  refusedRx : List Nat := []
  /-- host FLUSHes (ID, covered sequence) that wait (R74) -/
  hostFlushes : List (Nat × Nat) := []
  /-- being released: freed when its last command has ended (R68) -/
  releasing : Bool := false
  /-- a resume handshake is in progress (R67) -/
  resuming : Bool := false
  /-- key and random value of its HELLO-2 (R54) -/
  helloKey : Nat := 0
  /-- module address to which the host sent HELLO-1 (R51) -/
  dst : Nat := 0
  /-- operation ID of the principal removal that releases it (R100) -/
  removing : Option Nat := none
  /-- lowest row not completed (R76) -/
  floor : Nat := 1
  /-- completed rows above the floor (R76) -/
  doneRows : List Nat := []
  /-- lowest row whose CMD has not arrived (R84) -/
  arrFloor : Nat := 1
  /-- arrived rows above it (R84) -/
  arrRows : List Nat := []
  /-- I/O queues (R111) -/
  ioQueues : Nat := 1
  /-- commands accepted per queue, modulo 1,024 (R108) -/
  sqHead : List (Nat × Nat) := []
  /-- feature values that differ from their default (R127) -/
  feats : List (Nat × Nat) := []
  /-- over-temperature threshold, degrees C (R127) -/
  tempOver : Nat := 85
  /-- under-temperature threshold, degrees C (R127) -/
  tempUnder : Int := 0
  /-- keep alive timeout, ms, 0 off (R127) -/
  kato : Nat := 0
  /-- elapsed ns at which KATO expires (R128) -/
  katoAt : Option Nat := none
  /-- events that wait, oldest first (R145) -/
  events : List Event := []
  /-- events (type, log page) sent and not re-armed (R147) -/
  unarmed : List (Nat × Nat) := []
  /-- volumes read or written since the handshake (R147) -/
  seenVols : List Nat := []
  /-- tag limit (R114) -/
  tagLimit : Nat := 2048
  /-- the association's policy copy (R363) -/
  policy : Policy := {}
  /-- meter (R359) -/
  meter : Meter := {}
  /-- shaper (R362) -/
  shaper : Shaper := {}
  /-- windows registered or closing (R87) -/
  windows : List Window := []
  /-- landing zone (R90) -/
  zone : Option Zone := none
  /-- revoked-key list, newest first (R99) -/
  revoked : List Nat := []
  /-- statistics (R144) -/
  stats : AStats := {}
  /-- (volume, C1h sequence) of deferred errors not yet carried (R138) -/
  deferred : List (Nat × Nat) := []
  deriving DecidableEq, Repr

/-- One command outstanding at the unit, with its tag or shadow record (R111 to R115, R317). -/
structure Cmd where
  /-- association ID (R113) -/
  assoc : Nat := 0
  /-- row number (R76) -/
  row : Nat := 0
  /-- submission entry (R107) -/
  sqe : Sqe := {}
  /-- class of the CMD (R75) -/
  cls : Nat := 3
  /-- window or zone key of the header (R70) -/
  key : Nat := 0
  /-- window or zone offset (R70) -/
  off : Nat := 0
  /-- command lane (R339) -/
  lane : Nat := 0
  /-- command processor (R25) -/
  cp : Nat := 0
  /-- holds a tag; otherwise a shadow record (R113) -/
  tag : Bool := false
  /-- 0 host copy, 1 forwarded, 2 NVMe/TCP (R279) -/
  source : Nat := 0
  /-- TWIN was set (R42) -/
  twin : Bool := false
  /-- elapsed ns of acceptance (R148) -/
  t : Nat := 0
  /-- where the command stands (R25) -/
  st : CmdState := .accepted
  /-- write data inline (R70) -/
  inl : Bool := false
  /-- payload length of its CMD (R70) -/
  xlen : Nat := 0
  /-- packet sequence of its CMD (R73) -/
  seq : Nat := 0
  /-- write data received in H2CData PDUs (R159) -/
  h2c : List PushData := []
  /-- elapsed ns since which the shaper holds it back (R362) -/
  shAt : Option Nat := none
  /-- write data in its inline slot (R317) -/
  blocks : List Blk := []
  /-- mailbox frame of a Vendor Mailbox Passthrough (R124) -/
  frame : Option MbFrame := none
  /-- Dataset Management ranges (first LBA, blocks) (R119) -/
  ranges : List (Nat × Nat) := []
  /-- its ARRIVAL has been issued or replayed (R284) -/
  ordered : Bool := false
  /-- stitch number of its ARRIVAL (R284) -/
  arrival : Option Nat := none
  /-- the host copy has arrived at this unit (R284) -/
  hostCopy : Bool := true
  /-- dispatched to a drive or to the write buffer (R96) -/
  dispatched : Bool := false
  /-- order in which a write became executable (R388) -/
  execSeq : Nat := 0
  /-- what it waits for (R309) -/
  wait : WaitWhy := .none
  /-- drive commands outstanding for it (R309) -/
  drive : List Nat := []
  /-- read blocks at hand (LBA, content) (R135) -/
  got : List (Nat × Blk) := []
  /-- drive blocks read for it (position, drive LBA, content) (R191) -/
  strips : List (Nat × Nat × Blk) := []
  /-- some block is unrecovered (R130) -/
  lost : Bool := false
  /-- drive blocks (position, drive LBA) whose reads for it failed (R191) -/
  bad : List (Nat × Nat) := []
  /-- a reconstruction from redundancy has been attempted (R121) -/
  redone : Bool := false
  /-- those of them that ended with a read error and are rewritten in place (R191) -/
  mend : List (Nat × Nat) := []
  /-- final status decided, SCT x 256 + SC (R129) -/
  sc : Nat := 0
  /-- commands accepted on its queue, modulo 1,024 (R108) -/
  sqHead : Nat := 0
  /-- completion DW0 (R108) -/
  dw0 : Nat := 0
  /-- completion DW1 (R108) -/
  dw1 : Nat := 0
  /-- More bit (R108) -/
  more : Bool := false
  /-- (flush ID, covered sequence) of the FLUSH it waits for (R94) -/
  flushSeq : Option (Nat × Nat) := none
  /-- a VIOLATION named its row under that FLUSH (R94) -/
  refused : Bool := false
  /-- stitch whose acknowledgement its RESP waits for (R286) -/
  waitStitch : Option Nat := none
  /-- CONFIRM sent or received (R286) -/
  confirmed : Bool := false
  /-- write-buffer order numbers a Flush waits for (R133) -/
  covered : List Nat := []
  /-- bays whose drive flush a Flush waits for (R133) -/
  drvFlush : List Nat := []
  /-- lowest C1h sequence a Flush met (R133) -/
  defErr : Option Nat := none
  /-- row of the Abort that ended it (R150) -/
  abortRow : Option Nat := none
  /-- elapsed ns at which an abort reached its match point (R151) -/
  matchAt : Option Nat := none
  /-- ended by an association reset (R153) -/
  byReset : Bool := false
  /-- ends without a RESP (R153) -/
  noResp : Bool := false
  /-- elapsed ns at which a held twinless CMD ends (R288) -/
  twinHold : Option Nat := none
  /-- elapsed ns at which the twin wait passes (R285) -/
  twinWait : Option Nat := none
  /-- last stitch of the partner's stream that concerned it (R291) -/
  relStitch : Nat := 0
  /-- the partner has sent MISSING for it (R288) -/
  missed : Bool := false
  /-- read data go to the partner in RELAY-READ (R288) -/
  relayTo : Bool := false
  deriving DecidableEq, Repr

/-- One member position of an array (R172, R188, R242). -/
structure Pos where
  /-- position state (R188) -/
  st : MemberState := .inSync
  /-- bay of its drive, 255 if none (R241) -/
  bay : Nat := 255
  /-- serial of the drive holding or last holding it (R242) -/
  serial : Nat := 0
  /-- departure generation (R187) -/
  depGen : Nat := 0
  /-- absence bitmap, as the regions set (R187) -/
  absence : Option (List Nat) := none
  /-- bitmap slot 1 to 3 of its absence bitmap, 0 none (R242) -/
  slot : Nat := 0
  /-- elapsed ns at which the return grace expires (R188) -/
  graceAt : Option Nat := none
  deriving DecidableEq, Repr

/-- A ledger keeper (R180, R182). -/
structure Keeper where
  /-- position (R182) -/
  pos : Nat := 0
  /-- IN-SYNC with its whole ledger copy (R180) -/
  live : Bool := true
  deriving DecidableEq, Repr

/-- An entry of the lost-block list (R248). -/
structure LostBlk where
  /-- row (R248) -/
  row : Nat := 0
  /-- member position (R248) -/
  pos : Nat := 0
  /-- reason 1 to 4 (R248) -/
  reason : Nat := 1
  /-- first lost drive block within the strip (R248) -/
  first : Nat := 0
  /-- block count (R248) -/
  cnt : Nat := 1
  /-- device time found (R248) -/
  time : Nat := 0
  deriving DecidableEq, Repr

/-- A patrol repair or report (R199). -/
structure PatrolRep where
  /-- row (R199) -/
  row : Nat := 0
  /-- drive block within the strip (R453) -/
  blk : Nat := 0
  /-- position mask (R453) -/
  mask : Nat := 0
  /-- reported rather than repaired (R453) -/
  reported : Bool := false
  /-- device time (R453) -/
  time : Nat := 0
  deriving DecidableEq, Repr

/-- One extent of an array (R244). -/
structure Ext where
  /-- volume, FFFFh free (R244) -/
  owner : Nat := 65535
  /-- 0 free, 1 direct, 2 map, 3 skein, 4 reserved (R244) -/
  role : Nat := 0
  /-- skein state (R230) -/
  skein : SkeinState := .reserved
  /-- index in the volume (R244) -/
  index : Nat := 0
  /-- next unwritten payload granule of an open skein (R207) -/
  fill : Nat := 1
  /-- live payload granules (R230) -/
  live : Nat := 0
  /-- elapsed ns at which the skein closed (R232) -/
  closedAt : Nat := 0
  /-- skein sequence (R252) -/
  seq : Nat := 0
  /-- chunk index: (chunk, map entry, version) (R253) -/
  index2 : List (Nat × Nat × Nat) := []
  /-- trailer written (R255) -/
  trailer : Bool := false
  /-- device time at which the skein opened (R252) -/
  opened : Nat := 0
  /-- membership generation at its opening (R252) -/
  openGen : Nat := 0
  /-- opened as OPEN-FROG (R252) -/
  frogOpen : Bool := false
  /-- device time at which it closed (R253) -/
  closedDev : Nat := 0
  /-- drive writes of its index outstanding (R255) -/
  ixWait : List Nat := []
  deriving DecidableEq, Repr

/-- A drain of one row in progress (R178, R179, R192). -/
structure Drain where
  /-- row (R178) -/
  row : Nat := 0
  /-- volume drained (R178) -/
  vol : Nat := 0
  /-- (data strip, offset block, first byte in the block, new content) (R178) -/
  blks : List (Nat × Nat × Nat × Blk) := []
  /-- write-buffer order numbers it drains (R178) -/
  orders : List Nat := []
  /-- (offset block, 0 full 1 read-modify 2 reconstruct 3 mirror) (R178) -/
  methods : List (Nat × Nat) := []
  /-- (position, offset block, content) read for it (R178) -/
  olds : List (Nat × Nat × Blk) := []
  /-- drive reads outstanding (R178) -/
  reads : List Nat := []
  /-- regions whose bit it waits for (R180) -/
  regions : List Nat := []
  /-- drive writes outstanding (R179) -/
  writes : List Nat := []
  /-- writes issued (R179) -/
  issued : Bool := false
  /-- positions whose read for it failed (R191) -/
  unread : List Nat := []
  /-- positions whose write failed with its retry (R179) -/
  failed : List Nat := []
  /-- parity engine (R177) -/
  par : Nat := 0
  deriving DecidableEq, Repr

/-- One row under its lock: resynchronised, rebuilt or repaired (R183, R190, R192, R199). -/
structure RowJob where
  /-- row (R192) -/
  row : Nat := 0
  /-- 0 resynchronisation, 1 the same ahead of a drain, 2 rebuild, 3 repair by patrol (R192) -/
  kind : Nat := 0
  /-- drive reads outstanding (R190) -/
  reads : List Nat := []
  /-- positions whose strip is read (R191) -/
  tried : List Nat := []
  /-- (position, offset block, content) read (R191) -/
  olds : List (Nat × Nat × Blk) := []
  /-- (position, offset block) that cannot be read, or is to be repaired (R193) -/
  unread : List (Nat × Nat) := []
  /-- drive writes outstanding (R190) -/
  writes : List Nat := []
  /-- writes issued (R190) -/
  issued : Bool := false
  deriving DecidableEq, Repr

/-- A map journal record with the sequence of its block (R249). -/
structure JRec where
  /-- sequence of its journal block (R249) -/
  blk : Nat := 0
  /-- 1 set entry, 2 checkpoint begin, 3 checkpoint end (R249) -/
  kind : Nat := 1
  /-- volume (R249) -/
  vol : Nat := 0
  /-- chunk (R249) -/
  chunk : Nat := 0
  /-- map entry or checkpoint number (R249) -/
  value : Nat := 0
  /-- version of the content (R249) -/
  version : Nat := 0
  deriving DecidableEq, Repr

/-- An array (R165 to R205). -/
structure Arr where
  /-- array number (R18) -/
  no : Nat := 0
  /-- array ID (R240) -/
  id : Nat := 0
  /-- layout (R169) -/
  layout : Layout := .p2
  /-- strip size, bytes (R171) -/
  strip : Nat := 65536
  /-- member size, bytes (R165) -/
  memberSize : Nat := 0
  /-- membership generation (R187) -/
  gen : Nat := 1
  /-- positions 0 to N - 1 (R172) -/
  pos : List Pos := []
  /-- ledger keepers (R182) -/
  keepers : List Keeper := []
  /-- device time of creation (R240) -/
  created : Nat := 0
  /-- extent table (R244) -/
  ext : List Ext := []
  /-- superblock sequence (R241) -/
  sbSeq : Nat := 0
  /-- superblock write in progress: 0 none, 1 tables, 2 header (R245) -/
  sbStep : Nat := 0
  /-- drive writes of that step outstanding (R245) -/
  sbWait : List Nat := []
  /-- a field changed since; the superblock is written again (R245) -/
  sbAgain : Bool := false
  /-- the labels are rewritten after the superblock (R245) -/
  sbLabel : Bool := false
  /-- ledger header sequence (R246) -/
  ledSeq : Nat := 0
  /-- elapsed ns at which a pending ledger header write falls due (R246) -/
  hdrAt : Option Nat := none
  /-- regions whose dirty-region bit is set (HBM copy) (R180) -/
  bits : List Nat := []
  /-- regions recorded in the vault copy (R180) -/
  bitsVault : List Nat := []
  /-- regions recorded in the ledgers of every live keeper (R180) -/
  bitsLed : List Nat := []
  /-- regions recorded in the marionette's copy (R180) -/
  bitsPart : List Nat := []
  /-- regions set and not yet recorded in every copy (R180) -/
  bitWait : List Nat := []
  /-- (region, elapsed ns of its last drive write) (R181) -/
  regAct : List (Nat × Nat) := []
  /-- regions to resynchronise (R183) -/
  resync : List Nat := []
  /-- next row of the running resynchronisation (R246) -/
  resyncRow : Option Nat := none
  /-- positions in RESYNCING (R188) -/
  resyncTgt : List Nat := []
  /-- rows resynchronised ahead for a host write (R183) -/
  resyncTouched : List Nat := []
  /-- next row of the running rebuild (R246) -/
  rebuildRow : Option Nat := none
  /-- positions being rebuilt (R246) -/
  rebuildPos : List Nat := []
  /-- (position, row at which it joined): its rows before are left to the next pass (R190) -/
  rebuild2 : List (Nat × Nat) := []
  /-- (position, row) in a later pass: its rows from there on are written (R190) -/
  rebuildTail : List (Nat × Nat) := []
  /-- regions whose rows could not be resynchronised while a member was away (R184) -/
  unconf : List Nat := []
  /-- rows locked while they are resynchronised, rebuilt or repaired (R192) -/
  jobs : List RowJob := []
  /-- next row of the patrol pass (R246) -/
  patrolRow : Nat := 0
  /-- device time at which the pass began (R246) -/
  patrolStart : Nat := 0
  /-- rows skipped, to be visited at the end (R196) -/
  patrolSkip : List Nat := []
  /-- repairs and reports (R199) -/
  patrolRep : List PatrolRep := []
  /-- patrol repairs (R199) -/
  repairs : Nat := 0
  /-- patrol reports (R199) -/
  reports : Nat := 0
  /-- lost-block list (R248) -/
  lost : List LostBlk := []
  /-- overflow flag (R248) -/
  lostOver : Bool := false
  /-- drains in progress (R178) -/
  drains : List Drain := []
  /-- sequence of the next map journal block (R249) -/
  jSeq : Nat := 1
  /-- journal records still needed, in stitch order, with their block (R249) -/
  jRecs : List JRec := []
  /-- journal drive writes outstanding (R225) -/
  jWait : List Nat := []
  /-- replay start (R246) -/
  replay : Nat := 1
  /-- last completed checkpoint (R246) -/
  ckpt : Nat := 0
  /-- checkpoint in progress, as the block of its kind 2 record (R250) -/
  ckptRun : Option Nat := none
  /-- elapsed ns of the last checkpoint (R220) -/
  ckptAt : Nat := 0
  /-- dump rate r_a, bytes per second (R388) -/
  dumpRate : Nat := 0
  /-- import of edition 2 in progress (R201) -/
  importing : Bool := false
  /-- no spare found for a failed position (R146) -/
  sparesShort : Bool := false
  deriving DecidableEq, Repr

/-- A compressed chunk in a row assembly or a row write (R224). -/
structure Asm where
  /-- chunk (R224) -/
  chunk : Nat := 0
  /-- skein it is placed in (R224) -/
  skein : Nat := 0
  /-- first granule (R224) -/
  gran : Nat := 1
  /-- granules (R213) -/
  cnt : Nat := 1
  /-- bits [5:0] of the image CRC (R216) -/
  check : Nat := 0
  /-- elapsed ns at which it entered (R224) -/
  t : Nat := 0
  /-- write-buffer order numbers it carries (R225) -/
  orders : List Nat := []
  /-- for a frog copy: the entry it moves (R233) -/
  frog : Option Nat := none
  /-- compression engine (R221) -/
  engine : Nat := 0
  /-- version of the content, for a frog copy (R254) -/
  version : Nat := 0
  deriving DecidableEq, Repr

/-- A skein row whose drive writes are in progress (R224, R225). -/
structure RowW where
  /-- skein (R224) -/
  skein : Nat := 0
  /-- row (R224) -/
  row : Nat := 0
  /-- chunks placed in it (R224) -/
  chunks : List Asm := []
  /-- drive writes outstanding (R225) -/
  writes : List Nat := []
  /-- members whose write failed (R225) -/
  failed : Nat := 0
  /-- second writing in a new row (R225) -/
  again : Bool := false
  /-- a frog row (R233) -/
  frog : Bool := false
  /-- its journal records are written or being written (R225) -/
  jour : Bool := false
  deriving DecidableEq, Repr

/-- A volume (R118, R173, R206, R243). -/
structure Volume where
  /-- volume number (R18) -/
  no : Nat := 0
  /-- array (R243) -/
  arr : Nat := 0
  /-- packed volume (R243) -/
  packed : Bool := false
  /-- logical blocks of 512 bytes (R243) -/
  b512 : Bool := false
  /-- protection information (R120) -/
  prot : Bool := false
  /-- logical size, bytes (R243) -/
  size : Nat := 0
  /-- device time of creation (R243) -/
  created : Nat := 0
  /-- NGUID (R126) -/
  nguid : Nat := 0
  /-- skein allotment (R208) -/
  allot : Nat := 0
  /-- map extents (R218) -/
  mapExt : Nat := 0
  /-- map entries that are not 0 (chunk, entry) (R216) -/
  map : List (Nat × Nat) := []
  /-- highest content version (R254) -/
  version : Nat := 0
  /-- highest skein sequence (R252) -/
  skSeq : Nat := 0
  /-- row assembly of the OPEN-HOST skein (R224) -/
  asm : List Asm := []
  /-- row assembly of the OPEN-FROG skein (R224) -/
  asmFrog : List Asm := []
  /-- rows being written (R225) -/
  rows : List RowW := []
  /-- skein being frogged (R232) -/
  frog : Option Nat := none
  /-- records of its index moved so far (R230) -/
  frogLast : Nat := 0
  /-- inconsistent map entries (chunk, entry) (R217) -/
  badMap : List (Nat × Nat) := []
  deriving DecidableEq, Repr

/-- A page of the map cache (R219). -/
structure MapPage where
  /-- volume (R219) -/
  vol : Nat := 0
  /-- page (R218) -/
  page : Nat := 0
  /-- holds changes not checkpointed (R219) -/
  dirty : Bool := false
  /-- elapsed ns of its last use (R219) -/
  used : Nat := 0
  /-- written by the running checkpoint (R220) -/
  ck : Bool := false
  deriving DecidableEq, Repr

/-- One logical block in the write buffer (R135, R317, R388). -/
structure WbBlk where
  /-- volume (R135) -/
  vol : Nat := 0
  /-- logical block address (R135) -/
  lba : Nat := 0
  /-- content (R135) -/
  blk : Blk := {}
  /-- dirty, else clean (R135) -/
  dirty : Bool := true
  /-- order in which it became dirty (R178) -/
  order : Nat := 0
  /-- writing association (R137) -/
  assoc : Nat := 0
  /-- row of the write (R137) -/
  row : Nat := 0
  /-- its write has been acknowledged (R137) -/
  acked : Bool := false
  /-- written through, not counted as dirty data (R388) -/
  through : Bool := false
  /-- (association, row) of acknowledged writes whose dirty content it replaced (R137) -/
  older : List (Nat × Nat) := []
  deriving DecidableEq, Repr

/-- Metadata of a drive block, 14h to 27h (R167). -/
structure BlkMeta where
  /-- kind 0 blank to 7 (R167) -/
  kind : Nat := 0
  /-- array (R167) -/
  arr : Nat := 0
  /-- volume, FFFFh in parity blocks (R167) -/
  vol : Nat := 65535
  /-- stripe row (R167) -/
  row : Nat := 0
  /-- membership generation when written (R167) -/
  gen : Nat := 0
  deriving DecidableEq, Repr

/-- A drive command of this unit (R309, R357, R475). -/
structure DrvCmd where
  /-- the unit's number of the drive command (R280) -/
  id : Nat := 0
  /-- bay (R280) -/
  bay : Nat := 0
  /-- class at drive submission (R357) -/
  cls : Nat := 4
  /-- what it does (R357) -/
  op : DrvOp := .flush
  /-- drive LBA (R280) -/
  lba : Nat := 0
  /-- drive blocks (R353) -/
  cnt : Nat := 0
  /-- position that a host read is made at, 255 none (R191) -/
  pos : Nat := 255
  /-- what it serves (R280) -/
  why : DrvWhy := .other
  /-- elapsed ns at which it was queued (R370) -/
  queued : Nat := 0
  /-- elapsed ns of submission, none while queued (R475) -/
  subAt : Option Nat := none
  /-- a retry of a failed command (R186) -/
  retry : Bool := false
  /-- what a write carries (R178) -/
  data : List Blk := []
  /-- the metadata of its written blocks beside their protection information (R167) -/
  tags : List BlkMeta := []
  /-- elapsed ns at which its slot is orphaned (R151) -/
  abortAt : Option Nat := none
  /-- the drive completes it only from its media (R132) -/
  fua : Bool := false
  /-- held back by its bay's egress queue, and counted (R326) -/
  held : Bool := false
  deriving DecidableEq, Repr

/-- A drive present in a bay, as the module knows it (R163, R164). -/
structure Drive where
  /-- serial number (R240) -/
  serial : Nat := 0
  /-- model (R240) -/
  model : Nat := 0
  /-- capacity, bytes (R163) -/
  cap : Nat := 0
  /-- meets R163 (R163) -/
  ok : Bool := true
  /-- trained at Gen5 (R163) -/
  gen5 : Bool := false
  /-- volatile write cache (R133) -/
  vwc : Bool := true
  /-- operational power states (number, mW), best first (R384) -/
  states : List (Nat × Nat) := []
  /-- lowest non-operational state of exit latency at most 150 ms (R432) -/
  nonop : Option (Nat × Nat) := none
  /-- CAP.TO, ns (R476) -/
  capTo : Nat := 10000000000
  /-- role (R164) -/
  role : DriveRole := .unassigned
  /-- reported ready (R407) -/
  ready : Bool := false
  /-- shutdown notification sent at the end of a hold-up (R386) -/
  notified : Bool := false
  /-- link up (R186) -/
  linkUp : Bool := false
  /-- elapsed ns at which the link went down (R186) -/
  downAt : Option Nat := none
  /-- elapsed ns of unrecovered read errors (R186) -/
  readErrs : List Nat := []
  /-- elapsed ns of controller resets (R186) -/
  resets : List Nat := []
  /-- orphaned command slots (R151) -/
  orphans : Nat := 0
  /-- elapsed ns by which it must be ready after a reset (R476) -/
  resetting : Option Nat := none
  /-- label last read or written (R240) -/
  label : Option DriveLabel := none
  /-- label of another shelf (R164) -/
  foreign : Bool := false
  /-- NVMe power state in force (R398) -/
  pstate : Nat := 0
  /-- composite temperature, degrees C (R390) -/
  health : Nat := 0
  /-- warning threshold, degrees C (R390) -/
  warn : Nat := 70
  deriving DecidableEq, Repr

/-- A volume copy (R202, R203, R204). -/
structure Copy where
  /-- operation ID (R444) -/
  op : Nat := 0
  /-- source volume (R202) -/
  vol : Nat := 0
  /-- destination volume (R202) -/
  dstVol : Nat := 0
  /-- outbound credential (R453) -/
  cred : Nat := 0
  /-- gate list (R453) -/
  gate : Nat := 255
  /-- destination address (R453) -/
  dst : Nat := 0
  /-- running pass, from 1 (R203) -/
  pass : Nat := 1
  /-- 1 MiB ranges left in the pass (R203) -/
  todo : List Nat := []
  /-- last 1 MiB range recorded as complete (R204) -/
  last : Option Nat := none
  /-- ranges written since the pass began (R203) -/
  changed : List Nat := []
  /-- bytes the last completed pass copied (R203) -/
  lastBytes : Nat := 0
  /-- bytes copied in the running pass (R203) -/
  bytes : Nat := 0
  /-- some pass is complete (R203) -/
  lastDone : Bool := false
  /-- elapsed ns by which the final pass must end (R203) -/
  final : Option Nat := none
  /-- path and slot of the waiting Copy Cutover (R453) -/
  cutTag : Option (Nat × Nat) := none
  /-- outbound association: 0 none, 1 HELLO sent, 2 KEYS sent, 3 live, 4 suspended (R202) -/
  assocSt : Nat := 0
  /-- its association ID (R202) -/
  assocId : Nat := 0
  /-- the destination is paired (R202) -/
  twin : Bool := false
  /-- its next packet sequence (R202) -/
  txSeq : Nat := 1
  /-- outstanding (row, range) (R202) -/
  rows : List (Nat × Nat) := []
  /-- its next row (R202) -/
  row : Nat := 1
  /-- sequences received from the destination (R202) -/
  rxSeqs : List Nat := []
  deriving DecidableEq, Repr

/-- The running device self-test (R155 to R158). -/
structure SelfTest where
  /-- association that started it (R155) -/
  assoc : Nat := 0
  /-- 1 short, 2 extended (R155) -/
  code : Nat := 1
  /-- scope (R155) -/
  nsid : Nat := 0
  /-- paused (R157) -/
  paused : Bool := false
  /-- elapsed ns since which no host command is outstanding (R157) -/
  idleAt : Option Nat := none
  deriving DecidableEq, Repr

/-- The pair's record of one array at this unit (R268 to R273). -/
structure Lease where
  /-- this unit holds the lease (R268) -/
  held : Bool := false
  /-- epoch, also in the vault (R269) -/
  epoch : Nat := 0
  /-- a marionette is in step (R269) -/
  shadowed : Bool := false
  /-- t_s of the lease in force, elapsed ns (R268) -/
  ts : Nat := 0
  /-- duration of the lease in force, ns (R268) -/
  dur : Nat := 20000000
  /-- elapsed ns of the next renewal point (R269) -/
  renewAt : Option Nat := none
  /-- consecutive renewals unanswered (R271) -/
  missed : Nat := 0
  /-- a SOLO unit that acted without leases has its lease for the array (R402) -/
  leased : Bool := false
  /-- the lease in force counts from a PROMISE (R271) -/
  byPromise : Bool := false
  /-- the preferred survivor acts without renewal (R272) -/
  tie : Bool := false
  /-- this unit acts on the array (R270) -/
  acting : Bool := false
  /-- this unit is its marionette (R258) -/
  marion : Bool := false
  /-- vault: 0 none, 1 holder, 2 marionette at the stored epoch, 3 array made here and not yet leased (R273) -/
  stored : Nat := 0
  /-- no-claim mark, in the vault (R272) -/
  noClaim : Bool := false
  /-- elapsed ns at which the claim wait passes (R273) -/
  waitAt : Option Nat := none
  /-- a claim is pending (R273) -/
  claimed : Bool := false
  /-- the pending claim is a recovery claim (R273) -/
  recovery : Bool := false
  /-- elapsed ns at which the last PROMISE given expires, margin included (R272) -/
  promised : Option Nat := none
  /-- epoch of the witness record last reported (R273) -/
  partEpoch : Nat := 0
  /-- witness record last reported: 0 A, 1 B, 2 none, 3 not yet reported (R273) -/
  witHolder : Nat := 2
  deriving DecidableEq, Repr

/-- A witness message of this unit that awaits its answer (R264, R266). -/
structure WReq where
  /-- counter (R264) -/
  ctr : Nat := 0
  /-- array (R262) -/
  arr : Nat := 0
  /-- request kind, 0 QUERY (R262) -/
  kind : Nat := 0
  /-- elapsed ns of first sending (R268) -/
  t : Nat := 0
  /-- shadowed flag carried (R262) -/
  shadowed : Bool := false
  /-- epoch carried (R262) -/
  epoch : Nat := 0
  deriving DecidableEq, Repr

/-- A stitch sent and not acknowledged (R276). -/
structure Stitch where
  /-- stitch number (R276) -/
  num : Nat := 0
  /-- kind (R278) -/
  kind : Nat := 1
  /-- array, FFh none (R277) -/
  arr : Nat := 255
  /-- association ID (R277) -/
  assoc : Nat := 0
  /-- row concerned, 0 if none (R279) -/
  row : Nat := 0
  /-- body fields in order (R277) -/
  data : List Nat := []
  /-- elapsed ns of its last sending (R276) -/
  t : Nat := 0
  /-- link of its last sending (R276) -/
  link : Nat := 0
  /-- device time at issue (R277) -/
  time : Nat := 0
  deriving DecidableEq, Repr

/-- A cast-on in progress (R296). -/
structure CastOn where
  /-- this unit is the joiner (R296) -/
  joiner : Bool := true
  /-- running step, 1 to 6 (R296) -/
  step : Nat := 1
  /-- elapsed ns of its start (R296) -/
  t0 : Nat := 0
  /-- restarts (R296) -/
  restarts : Nat := 0
  /-- bytes of buffered stitches (R296) -/
  buffered : Nat := 0
  /-- object classes copied: 0 associations, 1 members and bitmaps, 2 maps, 3 dirty data (R296) -/
  copied : List Nat := []
  /-- buffered stitches, oldest first (R296) -/
  queue : List Instr := []
  deriving DecidableEq, Repr

/-- A handover in progress (R293). -/
structure Handover where
  /-- array (R293) -/
  arr : Nat := 0
  /-- elapsed ns of its start (R293) -/
  t0 : Nat := 0
  /-- hand-over request sent (R293) -/
  sent : Bool := false
  /-- elapsed ns of the next resend (R293) -/
  resendAt : Nat := 0
  /-- attempts in a debug hold (R502) -/
  tries : Nat := 0
  /-- path and slot of the waiting Handover mailbox (R453) -/
  mb : Option (Nat × Nat) := none
  deriving DecidableEq, Repr

/-- A proof run in progress (R294). -/
structure Proof where
  /-- operation ID (R453) -/
  op : Option Nat := none
  /-- arrays left to cross (R294) -/
  todo : List Nat := []
  /-- elapsed ns at which the next handover begins (R294) -/
  nextAt : Nat := 0
  /-- balancing phase (R294) -/
  back : Bool := false
  deriving DecidableEq, Repr

/-- Leases, witness, yarn, stitches, cast-on (chapter 08). -/
structure Pair where
  /-- the record of each array (R258) -/
  leases : List Lease := List.replicate 8 {}
  /-- message counter, with its high-water mark in the vault (R264) -/
  wctr : Nat := 0
  /-- last counter accepted from the witness (R264) -/
  wlast : Nat := 0
  /-- messages awaiting an answer (R266) -/
  wreqs : List WReq := []
  /-- witness-bus frames that wait for the poll (R265) -/
  busQ : List OutMsg := []
  /-- the witness has answered since start-up (R260) -/
  witOk : Bool := false
  /-- YARN0 and YARN1 up (R274) -/
  links : List Bool := [false, false]
  /-- elapsed ns of the last frame sent on each link (R274) -/
  lastTx : List Nat := [0, 0]
  /-- elapsed ns of the last valid frame on each link (R274) -/
  lastRx : List Nat := [0, 0]
  /-- elapsed ns since which a retrained link carries unbroken heartbeats (R274) -/
  hbSince : List Nat := [0, 0]
  /-- partner's mode in its last HEARTBEAT (R275) -/
  pMode : Option Mode := none
  /-- partner's mains flag (R275) -/
  pMains : Bool := false
  /-- partner's highest stitch number (R275) -/
  pHigh : Nat := 0
  /-- partner's stitch dialect (R298) -/
  pDialect : Option Nat := none
  /-- partner's shelf ID (R260) -/
  pShelf : Nat := 0
  /-- partner's landing-zone pool, GiB (R86) -/
  pPool : Nat := 0
  /-- slot the partner reads: 0 A, 1 B, 2 unknown (R524) -/
  pSlot : Nat := 2
  /-- partner is at the end of BOOT (R405) -/
  pEndBoot : Bool := false
  /-- partner's drive budget, 0.1 W (R383) -/
  pBudget : Option Nat := none
  /-- partner's PTP is locked (R426) -/
  pTimeLocked : Bool := false
  /-- next stitch number of this unit's stream (R276) -/
  txStitch : Nat := 1
  /-- stitches not acknowledged (R276) -/
  stitches : List Stitch := []
  /-- replay credits in hand (R282) -/
  credits : Nat := 64
  /-- next stitch number to replay (R276) -/
  rxStitch : Nat := 1
  /-- elapsed ns of stitches whose lag exceeded 50 us (R282) -/
  lagOver : List Nat := []
  /-- elapsed ns of stitches replayed in the last 1 s (R282) -/
  lagAll : List Nat := []
  /-- digests received and not yet compared (block, value) (R291) -/
  digWait : List (Nat × Nat) := []
  /-- next block of the partner's stream whose digest this unit sends (R291) -/
  rxDig : Nat := 0
  /-- RESPs released by stitches of this unit's stream, with the stitch number (R291) -/
  digAcc : List (Nat × Resp) := []
  /-- RESPs released by stitches of the partner's stream, with the stitch number (R291) -/
  digAccRx : List (Nat × Resp) := []
  /-- divergence snapshot in the vault, bytes (R292) -/
  snapshot : List Nat := []
  /-- device times of withdrawals, in the vault (R292) -/
  withdrawn : List Nat := []
  /-- cast-on in progress (R296) -/
  castOn : Option CastOn := none
  /-- elapsed ns of the retry (R296) -/
  castRetry : Option Nat := none
  /-- warm standby (R298) -/
  warm : Bool := false
  /-- handovers in progress (R293) -/
  hand : List Handover := []
  /-- arrays still to hand over, ascending (R404) -/
  handQ : List Nat := []
  /-- handovers abandoned (R293) -/
  handAbandoned : Nat := 0
  /-- what follows when no array is left to hand over (R404) -/
  after : List AfterHand := []
  /-- proof run (R294) -/
  proof : Option Proof := none
  /-- device time at which the last run began (R294) -/
  proofLast : Option Nat := none
  /-- pair fault raised (R292) -/
  faultPair : Bool := false
  /-- the partner is out of step: lost, or in another mode, until the next cast-on (R299) -/
  apart : Bool := false
  /-- proposals sent to unit A (path, slot, opcode) (R445) -/
  proposals : List (Nat × Nat × Nat) := []
  /-- (elapsed ns, round trip) over the last 1 s (R426) -/
  rttAt : List (Nat × Nat) := []
  /-- elapsed ns of the next QUERY repeat in SOLO (R402) -/
  queryAt : Option Nat := none
  /-- SOLO unit acts without leases (R401) -/
  soloNoLease : Bool := false
  /-- (counter, array) of messages carried for the partner (R271) -/
  relayed : List (Nat × Nat) := []
  /-- tiebreak lost: no-claim marks and ISOLATED follow the stop points (R272) -/
  tieLoser : Bool := false
  /-- tiebreak won: the unit acts without the witness (R272) -/
  tieWinner : Bool := false
  /-- joint start in progress (R406) -/
  joint : Bool := false
  deriving DecidableEq, Repr

/-- Port and class counters (R326). -/
structure PortCnt where
  /-- port (R326) -/
  port : Nat := 0
  /-- class (R326) -/
  cls : Nat := 0
  /-- cells in (R326) -/
  cin : Nat := 0
  /-- cells out (R326) -/
  cout : Nat := 0
  /-- packets aged (R326) -/
  pkAged : Nat := 0
  /-- cells aged (R326) -/
  ceAged : Nat := 0
  /-- cells spilled (R326) -/
  spilled : Nat := 0
  /-- cells restored (R326) -/
  restored : Nat := 0
  /-- pauses sent, or credit stalls on the yarn (R326) -/
  pSent : Nat := 0
  /-- pauses received (R326) -/
  pRecv : Nat := 0
  /-- ns paused (R326) -/
  pTime : Nat := 0
  /-- headroom overruns (R326) -/
  hdrOver : Nat := 0
  /-- admissions deferred (R326) -/
  defer : Nat := 0
  /-- packets released (R326) -/
  released : Nat := 0
  /-- depth high-water (R326) -/
  high : Nat := 0
  deriving DecidableEq, Repr

/-- A packet queued at an egress port (R306, R318, R323). -/
structure QItem where
  /-- order of entry (R323) -/
  id : Nat := 0
  /-- destination port (R304) -/
  port : Nat := 0
  /-- class (R306) -/
  cls : Nat := 5
  /-- frame length, bytes (R302) -/
  bytes : Nat := 64
  /-- what leaves (R321) -/
  msg : OutMsg := .arpReply
  /-- elapsed ns of entry (R318) -/
  t : Nat := 0
  /-- cells in SPILL (R307) -/
  spilled : Bool := false
  /-- source port (R323) -/
  srcP : Nat := 46
  deriving DecidableEq, Repr

/-- Cells of a received frame on their way to a sink (R306, R313). -/
structure InItem where
  /-- port it arrived at (R313) -/
  port : Nat := 0
  /-- wire priority (R332) -/
  prio : Nat := 0
  /-- switch class (R333) -/
  cls : Nat := 0
  /-- cells (R302) -/
  cells : Nat := 1
  /-- association ID (R334) -/
  assoc : Nat := 0
  /-- packet sequence (R62) -/
  seq : Nat := 0
  /-- in the port headroom (R306) -/
  head : Bool := false
  deriving DecidableEq, Repr

/-- The tables of one parser bank (R346). -/
structure Bank where
  /-- indirection table (R340) -/
  lanes : List Nat := []
  /-- receive DSCP map (R332) -/
  dscp : List Nat := []
  /-- transmit DSCP table (R333) -/
  txDscp : List Nat := []
  /-- malformed actions (R343) -/
  mal : List Nat := []
  /-- NVMe/TCP class (R330) -/
  tcpCls : Nat := 3
  deriving DecidableEq, Repr

/-- A port's parser record and its tables (R340, R346, R350). -/
structure Parser where
  /-- port, 0 to 7 or 47 (R350) -/
  port : Nat := 0
  /-- frames per profile (R350) -/
  frames : List Nat := List.replicate 5 0
  /-- malformed per profile (R350) -/
  malformed : List Nat := List.replicate 5 0
  /-- punted frames (R350) -/
  punted : Nat := 0
  /-- slow-path frames (R350) -/
  slow : Nat := 0
  /-- slow-path overflow (R350) -/
  slowOver : Nat := 0
  /-- fragments (R350) -/
  frags : Nat := 0
  /-- lookups that matched no entry (R350) -/
  noAssoc : Nat := 0
  /-- context misses (R350) -/
  misses : Nat := 0
  /-- miss-queue stalls (R350) -/
  stalls : Nat := 0
  /-- priority mismatches (R350) -/
  mism : Nat := 0
  /-- misdirected (R350) -/
  misdir : Nat := 0
  /-- bank swaps (R350) -/
  swaps : Nat := 0
  /-- swap pause time, ns (R350) -/
  swapTime : Nat := 0
  /-- association table refusals (R350) -/
  tabRef : Nat := 0
  /-- failed UDP checksums (R40) -/
  badSum : Nat := 0
  /-- key phases refused (R69) -/
  badPhase : Nat := 0
  /-- tags that failed (R57) -/
  badTag : Nat := 0
  /-- classes not permitted for the type (R69) -/
  badClass : Nat := 0
  /-- sequences above the window (R61) -/
  aboveWin : Nat := 0
  /-- packets discarded on a half-open entry (R69) -/
  halfOpenD : Nat := 0
  /-- HELLOs discarded (R54) -/
  helloD : Nat := 0
  /-- frames discarded by the MAC (R329) -/
  macD : Nat := 0
  /-- frames waiting for a context, oldest first (R337) -/
  missQ : List Frame := []
  /-- frames held unparsed while the pipeline stalls or is stopped, oldest first (R337) -/
  stalled : List Frame := []
  /-- captured malformed frames (profile, identity) (R343) -/
  capture : List (Nat × Nat) := []
  /-- active indirection table (R340) -/
  lanes : List Nat := List.map (fun i => i % 16) (List.range 1024)
  /-- standby indirection table, written and waiting for its swap (R346) -/
  lanesS : Option (List Nat) := none
  /-- active receive DSCP map (R332) -/
  dscp : List Nat := List.map (fun i => i / 8) (List.range 64)
  /-- standby DSCP tables (R346) -/
  dscpS : Option (List Nat × List Nat) := none
  /-- active transmit DSCP table (R333) -/
  txDscp : List Nat := List.map (fun i => i * 8) (List.range 8)
  /-- standby malformed actions (R346) -/
  malS : Option (List Nat) := none
  /-- active malformed actions (R343) -/
  mal : List Nat := [0, 0, 0, 1, 1]
  /-- the complete bank that a running swap brings in (R347) -/
  bankNext : Option Bank := none
  /-- standby NVMe/TCP class (R346) -/
  tcpClsS : Option Nat := none
  /-- active NVMe/TCP class (R330) -/
  tcpCls : Nat := 3
  /-- bank swap: 0 none, 1 pause sent, 2 parser stopped (R347) -/
  swap : Nat := 0
  /-- elapsed ns of the swap's t0 (R347) -/
  swapAt : Nat := 0
  deriving DecidableEq, Repr

/-- A gate control list (R365, R366). -/
structure Gate where
  /-- running entries (interval ticks, open mask) (R365) -/
  entries : List (Nat × Nat) := []
  /-- base time of the running list (R366) -/
  base : Nat := 0
  /-- the list runs (R366) -/
  started : Bool := false
  /-- running entry (R366) -/
  cur : Nat := 0
  /-- device time at which the interval ends (R366) -/
  curEnd : Nat := 0
  /-- entries written and not yet running (R366) -/
  newE : Option (List (Nat × Nat)) := none
  /-- their base time (R366) -/
  newBase : Nat := 0
  /-- their change time (R366) -/
  change : Nat := 0
  deriving DecidableEq, Repr

/-- An observed queue's record (R370, R371). -/
structure QRec where
  /-- queue: port x 8 + class, or (100h + bay) x 8 + class (R371) -/
  q : Nat := 0
  /-- depth histogram (R371) -/
  depth : List Nat := List.replicate 16 0
  /-- age histogram (R371) -/
  age : List Nat := List.replicate 16 0
  /-- samples (R371) -/
  samples : Nat := 0
  /-- gate waits (R371) -/
  gateWaits : Nat := 0
  /-- gate overruns (R371) -/
  overruns : Nat := 0
  /-- ceiling waits (R371) -/
  ceilWaits : Nat := 0
  deriving DecidableEq, Repr

/-- State of one scheduler instance (R354 to R368). -/
structure Sched where
  /-- instance: port 0 to 47, or 100h + bay (R351) -/
  inst : Nat := 0
  /-- class whose turn it is (R355) -/
  turn : Nat := 4
  /-- its quantum is not yet added (R355) -/
  fresh : Bool := true
  /-- deficits of TC0 to TC4 (R355) -/
  deficit : List Nat := [0, 0, 0, 0, 0]
  /-- credit of the TC6 ceiling, 10^-9 bytes (R356) -/
  ceil6 : Int := 0
  /-- credit of the TC5 ceiling, 10^-9 bytes (R356) -/
  ceil5 : Int := 0
  /-- elapsed ns of the ceilings' last update (R356) -/
  ceilAt : Nat := 0
  /-- window finish F of each class, elapsed ns (R368) -/
  wfin : List Nat := List.replicate 8 0
  /-- head item of each class last counted as a gate wait, plus 1 (R371) -/
  gw : List Nat := List.replicate 8 0
  deriving DecidableEq, Repr

/-- Switch core, buffers, parser and schedulers (chapters 09 to 11). -/
structure Sw where
  /-- queued packets, oldest first (R306) -/
  egress : List QItem := []
  /-- order number of the next entry (R323) -/
  nextItem : Nat := 0
  /-- received cells not yet at their destination (R313) -/
  inflight : List InItem := []
  /-- counters (absent records are all 0) (R326) -/
  ports : List PortCnt := []
  /-- SRAM high-water (R327) -/
  sramHigh : Nat := 0
  /-- SPILL high-water (R327) -/
  spillHigh : Nat := 0
  /-- multicast residue (item, destination) (R322) -/
  residue : List (Nat × Nat) := []
  /-- planes in service (R327) -/
  planes : List Bool := [true, true, true, true]
  /-- plane cell drops (R327) -/
  planeDrops : Nat := 0
  /-- pauses in force sent by the module (port, priority) (R313) -/
  pausedBy : List (Nat × Nat) := []
  /-- (port, priority, elapsed ns of the next repeat) (R313) -/
  pauseRep : List (Nat × Nat × Nat) := []
  /-- pauses received: (port, class, elapsed ns of their end and of their start) (R315) -/
  pauseRx : List (Nat × Nat × Nat × Nat) := []
  /-- pause frames sent, newest last (port, priority, quanta) (R313) -/
  pauseTx : List (Nat × Nat × Nat) := []
  /-- yarn credits spent (link, class, cells) (R315) -/
  credTx : List (Nat × Nat × Nat) := []
  /-- freed cells not yet returned (link, class, cells, elapsed ns of the first) (R315) -/
  credRx : List (Nat × Nat × Nat × Nat) := []
  /-- what has left the unit, newest last (port, message) (R358) -/
  wire : List (Nat × OutMsg) := []
  /-- parser of each port (R329) -/
  parsers : List Parser := List.map (fun p => { port := p }) [0, 1, 2, 3, 4, 5, 6, 7, 47]
  /-- frames waiting for the slow path (R344) -/
  slowQ : List SlowFrame := []
  /-- elapsed ns of slow-path frames of the last 1 s (R345) -/
  slowRate : List Nat := []
  /-- (port, elapsed ns) of echoes answered in the last 1 s (R344) -/
  echoRate : List (Nat × Nat) := []
  /-- association contexts cached, most recent first (R337) -/
  cached : List Nat := []
  /-- link state of NET0 to NET7 and MGMT (R400) -/
  linkUp : List Bool := List.replicate 9 false
  /-- line rate, bytes/s, of NET0 to NET7 and MGMT (R351) -/
  rate : List Nat := [100000000000, 100000000000, 100000000000, 100000000000, 100000000000, 100000000000, 100000000000, 100000000000, 1250000000]
  /-- gate control lists 0 to 7 (R365) -/
  gates : List Gate := List.replicate 8 {}
  /-- observed-queue records (absent records are all 0) (R371) -/
  qrecs : List QRec := []
  /-- scheduler instances (absent ones are as new) (R351) -/
  scheds : List Sched := []
  /-- departures of the last 1 ms (queue, elapsed ns, bytes) (R309) -/
  depRate : List (Nat × Nat × Nat) := []
  /-- association table bucket high-water mark (R350) -/
  assocHigh : Nat := 0
  deriving DecidableEq, Repr

/-- A bay channel with its bay (R376 to R398). -/
structure Chan where
  /-- channel state (R398) -/
  st : ChanState := .empty
  /-- power-good (R398) -/
  pg : Bool := false
  /-- PG-AT-RISK (R398) -/
  atRisk : Bool := false
  /-- PERST# asserted (R398) -/
  perst : Bool := true
  /-- presence (R398) -/
  present : Bool := false
  /-- lanes x4, else x2 (R398) -/
  x4 : Bool := true
  /-- retry budget (R378) -/
  budget : Nat := 3
  /-- elapsed ns at which the fault timer started, none while idle (R376) -/
  faultAt : Option Nat := none
  /-- elapsed ns at which qualification completes (R378) -/
  qualAt : Option Nat := none
  /-- elapsed ns at which the ramp began (R378) -/
  rampAt : Option Nat := none
  /-- elapsed ns by which its drive must report ready after PERST# (R407) -/
  readyAt : Option Nat := none
  /-- elapsed ns at which PERST# is released (R379) -/
  perstAt : Option Nat := none
  /-- elapsed ns at which 2 s have passed since the trip (R376) -/
  coolAt : Option Nat := none
  /-- elapsed ns since which it is ON without a trip (R378) -/
  onSince : Option Nat := none
  /-- elapsed ns of the debounced removal (R381) -/
  removedAt : Option Nat := none
  /-- state in force at removal (R381) -/
  removedIn : ChanState := .empty
  /-- output voltage, mV (R398) -/
  vout : Nat := 0
  /-- current, mA (R398) -/
  cur : Nat := 0
  /-- model temperature, 0.1 degrees C (R398) -/
  temp : Int := 400
  /-- model rise, microkelvin (R377) -/
  dt : Int := 0
  /-- allotment, 0.1 W (R398) -/
  allot : Nat := 0
  /-- allotment taken away by the measurement check, 0.1 W (R385) -/
  lowered : Nat := 0
  /-- measured power averaged over 1 s, 0.1 W (R385) -/
  power : Nat := 0
  /-- trips (R398) -/
  trips : Nat := 0
  /-- device time of the last trip (R398) -/
  lastTrip : Nat := 0
  /-- energy, J (R398) -/
  energy : Nat := 0
  /-- elapsed ns at which a prepared removal lapses (R393) -/
  prep : Option Nat := none
  /-- confirmed removal: 1 flushing, 2 shutting down, 3 safe to remove (R393) -/
  remStep : Nat := 0
  /-- elapsed ns t1 of the confirmation (R393) -/
  remAt : Nat := 0
  /-- removal Flush completed (R393) -/
  flushDone : Bool := false
  /-- elapsed ns until which amber shows a refused removal (R392) -/
  refusedAt : Option Nat := none
  /-- locate (R392) -/
  locate : Bool := false
  /-- elapsed ns by which its relink ends (R375) -/
  relink : Option Nat := none
  /-- switched off for the budget (R384) -/
  switchedOff : Bool := false
  deriving DecidableEq, Repr

/-- A fan output (R390). -/
structure Fan where
  /-- duty, percent (R390) -/
  duty : Nat := 30
  /-- speed read (R399) -/
  rpm : Nat := 0
  /-- failed (R390) -/
  failed : Bool := false
  deriving DecidableEq, Repr

/-- An OSFP cage (R391). -/
structure Osfp where
  /-- module plugged (R391) -/
  present : Bool := false
  /-- advertised maximum, 0.1 W (R391) -/
  watts : Nat := 0
  /-- high-power mode (R391) -/
  high : Bool := false
  /-- port shut down by a high-temperature alarm (R391) -/
  shut : Bool := false
  deriving DecidableEq, Repr

/-- A run of the hold-up dump directory or of the dirty-run directory (R387, R410). -/
structure DumpRun where
  /-- array (R387) -/
  arr : Nat := 0
  /-- volume (R387) -/
  vol : Nat := 0
  /-- first LBA (R387) -/
  lba : Nat := 0
  /-- its blocks (R387) -/
  blks : List Blk := []
  /-- association (R387) -/
  assoc : Nat := 0
  /-- row (R387) -/
  row : Nat := 0
  /-- its writes completed (R387) -/
  done : Bool := false
  deriving DecidableEq, Repr

/-- A hold-up in progress (R386 to R389). -/
structure HoldUp where
  /-- elapsed ns of the declaration (R386) -/
  t0 : Nat := 0
  /-- arrays are handed over; nothing is dumped (R386) -/
  handing : Bool := false
  /-- 0 drives finishing, 1 dumping, 2 metadata written (R386) -/
  phase : Nat := 0
  /-- mains has returned (R389) -/
  back : Bool := false
  /-- runs of the dump (R387) -/
  runs : List DumpRun := []
  deriving DecidableEq, Repr

/-- Bays, power path and front panel (chapter 12). -/
structure Bays where
  /-- bay channels 0 to 23 (R376) -/
  ch : List Chan := List.replicate 24 {}
  /-- drive of each bay (R164) -/
  drives : List (Option Drive) := List.replicate 24 none
  /-- trips of the last 10 min by drive serial number (serial, elapsed ns) (R380) -/
  tripLog : List (Nat × Nat) := []
  /-- RMS line voltage averaged over 200 ms, 0.1 V (R382) -/
  volts : Nat := 0
  /-- own drive budget b, 0.1 W (R383) -/
  drvBudget : Int := 0
  /-- budget in force, 0.1 W (R383) -/
  budget : Int := 0
  /-- higher budget waiting and elapsed ns at which it applies (R385) -/
  rise : Option (Int × Nat) := none
  /-- elapsed ns since which the measured sum is at or below b (R385) -/
  overSince : Option Nat := none
  /-- alarm BUDGET-OVER (R384) -/
  budgetOver : Bool := false
  /-- fan outputs (R390) -/
  fans : List Fan := List.replicate 6 {}
  /-- alarm FAN (R390) -/
  fanAlarm : Bool := false
  /-- OSFP cages (R391) -/
  osfp : List Osfp := List.replicate 8 {}
  /-- hold-up time T_h, ns (R386) -/
  th : Nat := 30000000
  /-- hold-up in progress (R386) -/
  hold : Option HoldUp := none
  /-- dump directory in the vault, with the runs in the dump extents (R387) -/
  dumpDir : List DumpRun := []
  /-- module locate (R394) -/
  modLocate : Bool := false
  /-- display page: 0 status, 1 network, 2 bays, 3 power, 4 pair (R395) -/
  page : Nat := 0
  /-- elapsed ns at which the backlight goes off, none while off (R395) -/
  lightAt : Option Nat := none
  /-- next slot of the front panel (R436) -/
  panelSlot : Nat := 0
  /-- module sensors, degrees C (R462) -/
  sensors : List Int := List.replicate 16 40
  deriving DecidableEq, Repr

/-- A principal record (R450). -/
structure Principal where
  /-- index (R450) -/
  idx : Nat := 0
  /-- roles: bit 0 O, 1 P, 2 A, 3 C, 4 S (R450) -/
  roles : Nat := 0
  /-- authentication: bit 0 pre-shared key, bit 1 Ed25519 (R450) -/
  auth : Nat := 1
  /-- name (R450) -/
  name : Nat := 0
  /-- PSK identity length (R450) -/
  pskIdLen : Nat := 0
  /-- PSK identity (R450) -/
  pskId : Nat := 0
  /-- pre-shared key, write only (R450) -/
  psk : Nat := 0
  /-- Ed25519 public key (R450) -/
  pub : Nat := 0
  /-- policy record (R363) -/
  policy : Policy := {}
  deriving DecidableEq, Repr

/-- The built-in principals: firmware, panel, enclosure (R435, R437). The enclosure holds the observer role; the panel's
operator role is limited by R436; the firmware holds every role (DESIGN CHOICE, log 2). -/
def builtinPrincipals : List Principal :=
  [{ idx := 0, roles := 31 }, { idx := 1, roles := 2 }, { idx := 2, roles := 1 }]

/-- The configuration record and other vault settings (R414). -/
structure Cfg where
  /-- settings that differ from their default: (ID, instance, value) (R452) -/
  set : List (Nat × Nat × Int) := []
  /-- principals (R449) -/
  principals : List Principal := builtinPrincipals
  /-- module addresses of NET0 to NET7 (R330) -/
  addrs : List (List Nat) := List.replicate 8 []
  /-- witness address, 0 none (R259) -/
  witAddr : Nat := 0
  /-- witness key of the unit (R259) -/
  witKey : Option Nat := none
  /-- outbound credentials (number, PSK, identity) (R453) -/
  creds : List (Nat × Nat × Nat) := []
  /-- public half of the unit's Ed25519 key (R453) -/
  unitKey : Option Nat := none
  /-- unit certificate (R453) -/
  cert : Option Nat := none
  /-- debug unlock keys (principal index, public key) (R493) -/
  unlockKeys : List (Option (Nat × Nat)) := List.replicate 4 none
  /-- debug port policy: 0 disabled, 1 unlock required (R494) -/
  dbgPolicy : Nat := 1
  /-- alarm CONFIG-DEFAULT (R414) -/
  alarm : Bool := false
  /-- landing-zone pool in use, GiB (R90) -/
  poolUse : Nat := 4
  /-- sequence of the newer vault copy (R414) -/
  seq : Nat := 0
  deriving DecidableEq, Repr

/-- A mailbox slot that is busy (R441). -/
structure Slot where
  /-- path code (R435) -/
  path : Nat := 1
  /-- slot (R441) -/
  slot : Nat := 0
  /-- tag (R439) -/
  tag : Nat := 0
  /-- opcode (R439) -/
  opcode : Nat := 0
  /-- result waiting to be read: (code, audit sequence, payload) (R441) -/
  ready : Option (Nat × Nat × List Nat) := none
  /-- its session has closed: the result is discarded (R441) -/
  orphan : Bool := false
  /-- principal (R456) -/
  principal : Nat := 0
  /-- management session (R436) -/
  session : Nat := 0
  /-- association and row of its Vendor Mailbox Passthrough (R124) -/
  inband : Option (Nat × Nat) := none
  /-- force flag (R456) -/
  force : Bool := false
  /-- of scope S, executed in a pair: its result leaves as a SETTING stitch (R445) -/
  shelf : Bool := false
  /-- receiving path at the other unit, for path 3 (R446) -/
  recv : Nat := 0
  /-- slot at the other unit, for path 3 (R446) -/
  recvSlot : Nat := 0
  /-- object of its audit entry (R456) -/
  obj : Nat := 0
  /-- digest of the object before the change (R456) -/
  old : Nat := 0
  /-- digest of the object after the change (R456) -/
  new : Nat := 0
  /-- what its result waits for: 1 the reset commands of an association, 2 those of all associations (R453) -/
  await : Nat × Nat := (0, 0)
  /-- drive writes that its result waits for (R453) -/
  dcs : List Nat := []
  deriving DecidableEq, Repr

/-- An operation (R444). -/
structure Oper where
  /-- operation ID (R444) -/
  id : Nat := 1
  /-- opcode (R453) -/
  opcode : Nat := 0
  /-- 0 running, 1 done, 2 failed, 3 cancelled (R453) -/
  st : Nat := 0
  /-- result code (R453) -/
  code : Nat := 0
  /-- progress in per mille (R453) -/
  prog : Nat := 0
  /-- device time (R453) -/
  started : Nat := 0
  /-- device time, 0 while running (R453) -/
  ended : Nat := 0
  /-- what it concerns (R464) -/
  obj : Nat := 0
  deriving DecidableEq, Repr

/-- A management session (R436). -/
structure Session where
  /-- session number 0 to 3 (R436) -/
  id : Nat := 0
  /-- authenticated principal (R436) -/
  principal : Nat := 0
  /-- elapsed ns at which it closes for idleness (R436) -/
  idleAt : Nat := 0
  /-- its principal is removed: it closes once its slots are free (R449) -/
  closing : Bool := false
  deriving DecidableEq, Repr

/-- Mailbox fabric (chapter 15). -/
structure Mbx where
  /-- busy slots (R441) -/
  slots : List Slot := []
  /-- open management sessions (R436) -/
  sessions : List Session := []
  /-- frames refused at checks 1 and 2, per path code (R442) -/
  bad : List Nat := List.replicate 8 0
  /-- operations of this power-on (R444) -/
  opers : List Oper := []
  /-- next operation ID (R444) -/
  nextOp : Nat := 1
  /-- result frames sent, newest last (R439) -/
  results : List MbOut := []
  /-- in-band mailboxes that wait for a slot (association, row, elapsed ns of the limit) (R436) -/
  waitSlot : List (Nat × Nat × Nat) := []
  deriving DecidableEq, Repr

/-- An audit entry (R456, R525); its chain is computed (R457). -/
structure AEntry where
  /-- sequence (R456) -/
  seq : Nat := 1
  /-- device time (R456) -/
  time : Nat := 0
  /-- origin (R456) -/
  origin : Nat := 7
  /-- kind 1 to 6 (R456) -/
  kind : Nat := 1
  /-- principal index (R456) -/
  principal : Nat := 0
  /-- opcode (R456) -/
  opcode : Nat := 0
  /-- result (R456) -/
  result : Nat := 0
  /-- object address (R456) -/
  obj : Nat := 0
  /-- old value digest (R456) -/
  old : Nat := 0
  /-- new value digest (R456) -/
  new : Nat := 0
  /-- flags (R456) -/
  flags : Nat := 0
  /-- detail (R456) -/
  detail : Nat := 0
  /-- chain (R457) -/
  chain : Nat := 0
  deriving DecidableEq, Repr

/-- A deferred write error (R142). -/
structure Dwe where
  /-- sequence (R142) -/
  seq : Nat := 1
  /-- device time (R142) -/
  time : Nat := 0
  /-- first LBA (R142) -/
  lba : Nat := 0
  /-- NSID (R142) -/
  nsid : Nat := 1
  /-- block count (R142) -/
  cnt : Nat := 1
  /-- writer (R142) -/
  assoc : Nat := 0
  /-- row (R142) -/
  row : Nat := 0
  /-- cause (R142) -/
  cause : Nat := 1
  /-- array (R142) -/
  arr : Nat := 0
  deriving DecidableEq, Repr

/-- An entry of log page 01h (R139). -/
structure ErrEnt where
  /-- association (R139) -/
  assoc : Nat := 0
  /-- row (R139) -/
  row : Nat := 0
  /-- status (R129) -/
  sc : Nat := 0
  /-- volume, FFFFh none (R209) -/
  vol : Nat := 0
  deriving DecidableEq, Repr

/-- Audit log, swatch, state space freeze (chapter 16). -/
structure Audit where
  /-- entries present, newest first (R455) -/
  log : List AEntry := []
  /-- next sequence (R455) -/
  next : Nat := 1
  /-- sealed through (R461) -/
  sealed : Nat := 0
  /-- exported through (R461) -/
  exported : Nat := 0
  /-- entries left out since power-on (R461) -/
  leftOut : Nat := 0
  /-- entries left out since the last gap entry (R458) -/
  gapDue : Nat := 0
  /-- device time of the last seal (R461) -/
  lastSeal : Nat := 0
  /-- export image: first, last, anchor, device time, entries (R459) -/
  image : Option (Nat × Nat × Nat × Nat × List AEntry) := none
  /-- export in progress: first, last, operation (R459) -/
  exporting : Option (Nat × Nat × Nat) := none
  /-- violation entries in the running interval (R104) -/
  violN : Nat := 0
  /-- violations left out in it (R104) -/
  violOut : Nat := 0
  /-- elapsed ns at which the interval ends (R104) -/
  violEnd : Nat := 1000000000
  /-- swatch entries (R462) -/
  swEntries : List Int := swatchFactory
  /-- swatch write count (R462) -/
  swWrites : Nat := 0
  /-- device time of the last swatch write (R462) -/
  swLast : Nat := 0
  /-- entries overwritten (R462) -/
  swOver : List Nat := []
  /-- CRC of the last export since the last write (R463) -/
  swExport : Option Nat := none
  /-- the swatch verifies (R408) -/
  swOk : Bool := true
  /-- freeze: elapsed ns of its end and the records (address, bytes) (R467) -/
  frozen : Option (Nat × List (Nat × List Nat)) := none
  /-- deferred write errors kept in the vault, oldest first (R142) -/
  dwe : List Dwe := []
  /-- deferred write errors ever recorded (R142) -/
  dweTotal : Nat := 0
  /-- deferred write errors since power-on (R141) -/
  dweOn : Nat := 0
  /-- log page 01h, newest first (R139) -/
  errLog : List ErrEnt := []
  /-- aborts completed since power-on (R141) -/
  abortsDone : Nat := 0
  /-- drive tags orphaned since power-on (R141) -/
  orphaned : Nat := 0
  /-- drive controller resets since power-on (R141) -/
  drvResets : Nat := 0
  /-- tags high-water (R141) -/
  tagsHigh : Nat := 0
  /-- self-test results (code, result, segment), newest first (R139) -/
  selfRes : List (Nat × Nat × Nat) := []
  deriving DecidableEq, Repr

/-- A part that the state space names, when its record is not as new (R465, R477). -/
structure Part where
  /-- state-space class (R464) -/
  cls : Nat := 0
  /-- instance (R464) -/
  inst : Nat := 0
  /-- 0 in service, 1 draining, 2 out for test, 3 failed, 4 replaced (R465) -/
  st : Nat := 0
  /-- instance of the spare in use (R465) -/
  spare : Nat := 255
  /-- recalls (R465) -/
  recalls : Nat := 0
  /-- corrected errors (R465) -/
  corr : Nat := 0
  /-- uncorrected errors (R465) -/
  uncorr : Nat := 0
  /-- device time of the last change (R465) -/
  change : Nat := 0
  /-- elapsed ns of its recalls (R473) -/
  recallAt : List Nat := []
  /-- a passing test since the failure (R477) -/
  passed : Bool := false
  /-- operation that drains or tests it (R477) -/
  op : Option Nat := none
  /-- test code in progress, 0 none (R483) -/
  code : Nat := 0
  /-- returns to service after a pass (R477) -/
  back : Bool := false
  /-- elapsed ns at which a draining NET port's link goes down (R480) -/
  drainAt : Option Nat := none
  deriving DecidableEq, Repr

/-- Firmware images (R153, R453). -/
structure Image where
  /-- version of the running image (R4) -/
  active : Nat := 196608
  /-- stitch dialect of the running image (R141) -/
  dialect : Nat := 1
  /-- staged segments (offset, length, identity of the bytes) (R453) -/
  staged : List (Nat × Nat × Nat) := []
  /-- verified length, none while not verified (R453) -/
  stagedLen : Option Nat := none
  /-- version of the verified staged image (R453) -/
  stagedVer : Nat := 0
  /-- dialect of the verified staged image (R298) -/
  stagedDia : Nat := 1
  /-- verification: length, operation (R453) -/
  verifying : Option (Nat × Nat) := none
  /-- activation: phase 0 drain 1 hold 2 handover 3 restart, elapsed ns of its limit, operation (R153) -/
  act : Option (Nat × Nat × Nat) := none
  /-- some firmware slot verifies (R408) -/
  slotsOk : Bool := true
  deriving DecidableEq, Repr

/-- A processor core behind the debug port (R496 to R498). -/
structure Core where
  /-- halted (R498) -/
  halted : Bool := false
  /-- reason (R498) -/
  reason : Nat := 0
  /-- breakpoint or watchpoint that halted it (R498) -/
  idx : Nat := 0
  /-- general registers, PC, STATUS, CAUSE (R496) -/
  regs : List Nat := List.replicate 35 0
  /-- breakpoints set (index, address) (R497) -/
  brk : List (Nat × Nat) := []
  /-- watchpoints set (index, access, shift, address) (R497) -/
  wat : List (Nat × Nat × Nat × Nat) := []
  /-- core-local memory, as written through the debug port (R499) -/
  mem : Memory := []
  /-- halted by the session (R488) -/
  bySession : Bool := false
  deriving DecidableEq, Repr

/-- Debug port (chapter 18). -/
structure Dbg where
  /-- probe present, debounced (R488) -/
  present : Bool := false
  /-- a session is open (R488) -/
  session : Bool := false
  /-- challenge and elapsed ns of its end (R493) -/
  chal : Option (Nat × Nat) := none
  /-- unlocked: key index, principal (R493) -/
  unlocked : Option (Nat × Nat) := none
  /-- elapsed ns of failed UNLOCKs (R494) -/
  fails : List Nat := []
  /-- elapsed ns at which the lockout ends (R494) -/
  lockAt : Option Nat := none
  /-- last request executed (sequence) and its response (R487) -/
  lastReq : Option (Nat × DdpResp) := none
  /-- cores 0 to 35 (R492) -/
  cores : List Core := List.replicate 36 {}
  /-- spaces written in the session (4 for registers) (R495) -/
  wrote : List Nat := []
  /-- writes of the session, saturating at 255 (R495) -/
  writes : Nat := 0
  /-- debug hold in progress: core, elapsed ns of its 50 ms limit (R502) -/
  hold : Option (Nat × Nat) := none
  /-- debug hold in force, with the elapsed ns of the last HALT (R502) -/
  held : Option Nat := none
  /-- core whose HALT the debug hold in force serves (R413) -/
  heldBy : Nat := 0
  /-- sequence of the HALT that waits for the hold (R502) -/
  holdSeq : Nat := 0
  /-- characters received on CRX and discarded (R489) -/
  crx : Nat := 0
  /-- responses sent, newest last (R487) -/
  out : List DdpResp := []
  /-- tag-context SRAM, as written through the debug port (R499) -/
  tagMem : Memory := []
  /-- HBM, as written through the debug port (R499) -/
  hbm : Memory := []
  deriving DecidableEq, Repr

/-- Timebase and clocks (chapter 14). -/
structure Time where
  /-- elapsed time, ns, in which every deadline is kept (R425) -/
  now : Nat := 0
  /-- device time, ns (R422) -/
  dev : Nat := 0
  /-- fraction of device time, 10^-6 ns (R422) -/
  frac : Nat := 0
  /-- rate adjustment, 10^-6 ns per tick (R422) -/
  adj : Int := 0
  /-- timebase state 0 to 5 (R427) -/
  st : Nat := 0
  /-- UTC offset taken from PTP (R427) -/
  utcPtp : Bool := false
  /-- leap second pending: device time of the day's end, change (R423) -/
  leap : Option (Nat × Int) := none
  /-- grandmaster identity (R427) -/
  gm : Nat := 0
  /-- last offset, ns (R427) -/
  lastOff : Int := 0
  /-- steps since power-on (R427) -/
  steps : Nat := 0
  /-- last step, ns (R427) -/
  lastStep : Int := 0
  /-- yarn delay, ns (R427) -/
  yarnDelay : Nat := 0
  /-- partner differences (R427) -/
  diffs : Nat := 0
  /-- consecutive Sync messages below 1 us (R424) -/
  good : Nat := 0
  /-- elapsed ns of the announce receipt timeout (R424) -/
  annAt : Option Nat := none
  /-- rate adjustments of the last 60 s (elapsed ns, value) (R428) -/
  rates : List (Nat × Int) := []
  /-- elapsed ns of the next save (R428) -/
  saveAt : Nat := 60000000000
  /-- device time in the vault (R428) -/
  saved : Nat := 0
  /-- device time unsynchronised (R415) -/
  unsync : Bool := true
  /-- CLK_SVC runs from root/600 (R421) -/
  clkRoot : Bool := false
  deriving DecidableEq, Repr

/-- Modes, start-up and power states (chapters 13 and 14). -/
structure Md where
  /-- the module has power (R403) -/
  powered : Bool := true
  /-- mains present (R275) -/
  mains : Bool := true
  /-- mode (R400) -/
  mode : Mode := .powerStandby
  /-- service domain up (R407) -/
  svcReady : Bool := false
  /-- slot: 0 A, 1 B (R510) -/
  slot : Nat := 0
  /-- level of the SLOT_ID contact (R510) -/
  slotIn : Nat := 0
  /-- elapsed ns of the start-up's t0 (R407) -/
  t0 : Nat := 0
  /-- BOOT under way: 0 no, 1 power-on, 2 module reset (R407) -/
  boot : Nat := 0
  /-- root synthesizer locked (R420) -/
  rootLock : Bool := false
  /-- management firmware running (R407) -/
  fw : Bool := false
  /-- next bay to look at for the start-up groups (R407) -/
  bayNext : Nat := 0
  /-- elapsed ns of the next bay group (R407) -/
  bayAt : Option Nat := none
  /-- arrays assembled (R405) -/
  assembled : Bool := false
  /-- partner slot occupied (R510) -/
  pSlot : Bool := false
  /-- elapsed ns at which the partner slot has been empty 60 s (R403) -/
  pEmptyAt : Option Nat := none
  /-- MOD_PRES mated (R512) -/
  modPres : Bool := true
  /-- package held in reset: 0 no, 1 watchdog, 2 root lock, 3 temperature (R508) -/
  held : Nat := 0
  /-- device times of module resets by watchdog, in the vault (R408) -/
  wdResets : List Nat := []
  /-- SAFE condition, row of R408, 0 none (R408) -/
  safe : Nat := 0
  /-- fault record in the vault (R403) -/
  safeRec : Nat := 0
  /-- mode drain: request (1 standby, 2 maintenance), operation (R404) -/
  drain : Option (Nat × Nat) := none
  /-- elapsed ns of the standby shutdown deadline (R403) -/
  standbyAt : Option Nat := none
  /-- power state (R429) -/
  ps : Nat := 0
  /-- PS2 entry: steps completed plus 1, 0 none (R432) -/
  psIn : Nat := 0
  /-- elapsed ns of the entry's start (R432) -/
  psT0 : Nat := 0
  /-- request waiting: state, elapsed ns of its limit, mailbox path and slot (R431) -/
  psReq : Option (Nat × Nat × Option (Nat × Nat)) := none
  /-- elapsed ns at which PS1 was last left (R430) -/
  psLeft : Nat := 0
  /-- compression clusters gated (R429) -/
  psGated : List Nat := []
  /-- elapsed ns of the last host command (R430) -/
  idleAt : Nat := 0
  /-- elapsed ns by which a running controller reset ends (R417) -/
  ctrlReset : Option Nat := none
  /-- serial number of the unit (R4) -/
  serial : Nat := 0
  /-- shelf ID (R240) -/
  shelf : Option Nat := none
  /-- a module reset follows a handover (R394) -/
  resetAfter : Bool := false
  deriving DecidableEq, Repr

/-- Arrays, volumes, write buffer, commands and drive commands (chapters 04 to 07). -/
structure Io where
  /-- arrays (R169) -/
  arrs : List Arr := []
  /-- volumes (R118) -/
  vols : List Volume := []
  /-- write-buffer blocks, oldest first (R317) -/
  wb : List WbBlk := []
  /-- next write-buffer order number (R178) -/
  order : Nat := 1
  /-- next executable-order number (R388) -/
  execSeq : Nat := 1
  /-- commands outstanding (R113) -/
  cmds : List Cmd := []
  /-- drive commands queued or outstanding (R357) -/
  dcs : List DrvCmd := []
  /-- next drive command number (R280) -/
  nextDc : Nat := 1
  /-- map cache (R219) -/
  pages : List MapPage := []
  /-- volume copies (R202) -/
  copies : List Copy := []
  /-- device self-test (R155) -/
  st : Option SelfTest := none
  /-- association table and contexts (R334) -/
  assocs : List Assoc := []
  /-- association IDs released (ID, elapsed ns) (R46) -/
  freed : List (Nat × Nat) := []
  /-- handshake failures (source address, elapsed ns) (R52) -/
  fails : List (Nat × Nat) := []
  /-- ignored source addresses (address, elapsed ns of the end) (R52) -/
  lockouts : List (Nat × Nat) := []
  /-- HELLO-1 discarded beyond 256 half-open (R54) -/
  halfOver : Nat := 0
  /-- write-through forced by T_h below 20 ms (R388) -/
  gradeDump : Bool := false
  /-- volumes whose new writes a cutover holds (R203) -/
  wtHold : List Nat := []
  deriving DecidableEq, Repr
/-- The whole state of the unit. -/
structure State where
  /-- timebase and clocks (chapter 14) -/
  time : Time := {}
  /-- modes, start-up and power states (chapters 13 and 14) -/
  md : Md := {}
  /-- arrays, volumes, write buffer, commands (chapters 02 to 07) -/
  io : Io := {}
  /-- leases, witness, yarn, stitches (chapter 08) -/
  pair : Pair := {}
  /-- switch, parser, schedulers (chapters 09 to 11) -/
  sw : Sw := {}
  /-- bays, power path, front panel (chapter 12) -/
  bays : Bays := {}
  /-- configuration record and vault settings (chapter 15) -/
  cfg : Cfg := {}
  /-- mailbox fabric (chapter 15) -/
  mbx : Mbx := {}
  /-- audit log, swatch, freeze, logs (chapter 16) -/
  audit : Audit := {}
  /-- firmware images (R153) -/
  img : Image := {}
  /-- part records that are not as new (R465) -/
  parts : List Part := []
  /-- debug port (chapter 18) -/
  dbg : Dbg := {}
  /-- the model's own counter of free values drawn -/
  free : Nat := 0
  /-- the commands that wait, first in first out -/
  pending : List Instr := []
  deriving DecidableEq, Repr

/-- The unit at the moment mains is first applied: POWER-STANDBY (R403), nothing else running, the vault as shipped. -/
def State.reset : State := {}

end Sys2Proof.Machine
end

