-- ==== Sys2Proof/Machine/Bits.lean ====
section
/-! DEFINITION. Byte strings as numbers, CRC-32C, and arithmetic of the field GF(2^8). -/

namespace Sys2Proof.Machine

/-- The n bytes of x, least significant first (R7). -/
def bytesLE (n x : Nat) : List Nat := (List.range n).map fun i => x / 256 ^ i % 256

/-- The n bytes of x, most significant first (R41). -/
def bytesBE (n x : Nat) : List Nat := (bytesLE n x).reverse

/-- The number whose little-endian bytes are given. -/
def ofBytesLE : List Nat → Nat
  | [] => 0
  | b :: bs => b % 256 + 256 * ofBytesLE bs

/-- A signed number as n bytes, two's complement, least significant first. -/
def bytesLEi (n : Nat) (x : Int) : List Nat := bytesLE n (x % (256 ^ n : Int)).toNat

/-- One bit of CRC-32C in reflected form (R236). -/
def crcBit (c : Nat) : Nat := if c % 2 == 1 then (c / 2) ^^^ 0x82F63B78 else c / 2

/-- One byte of CRC-32C (R236). -/
def crcByte (c b : Nat) : Nat :=
  crcBit (crcBit (crcBit (crcBit (crcBit (crcBit (crcBit (crcBit (c ^^^ b % 256))))))))

/-- CRC-32C of a byte string (R236). -/
def crc32c (bs : List Nat) : Nat := bs.foldl crcByte 0xFFFFFFFF ^^^ 0xFFFFFFFF

/-- Multiplication by 2 in GF(2^8) with polynomial 11Dh (R176). -/
def gfDouble (x : Nat) : Nat := if x < 128 then 2 * x else (2 * x) % 256 ^^^ 0x1D

/-- Product in GF(2^8), over the lowest `fuel` bits of b (R176). -/
def gfMulAux : Nat → Nat → Nat → Nat
  | 0, _, _ => 0
  | fuel + 1, a, b => (if b % 2 == 1 then a else 0) ^^^ gfMulAux fuel (gfDouble a) (b / 2)

/-- Product in GF(2^8) (R176). -/
def gfMul (a b : Nat) : Nat := gfMulAux 8 (a % 256) (b % 256)

/-- Power in GF(2^8) (R176). -/
def gfPow (a : Nat) : Nat → Nat
  | 0 => 1
  | n + 1 => gfMul a (gfPow a n)

/-- The inverse in GF(2^8): a to the power 254. -/
def gfInv (a : Nat) : Nat := gfPow a 254

/-- The number whose bytes are all 1, n of them. -/
def onesMask (n : Nat) : Nat := (256 ^ n - 1) / 255

/-- Every byte of an n-byte block doubled in GF(2^8). -/
def gfDoubleBlk (n x : Nat) : Nat :=
  let m := onesMask n
  ((2 * (x &&& (127 * m))) ^^^ (29 * ((x / 128) &&& m)))

/-- Every byte of an n-byte block multiplied by the byte b in GF(2^8). -/
def gfScaleBlk (n b x : Nat) : Nat :=
  let go := fun (acc : Nat × Nat) (i : Nat) => (if bit b i then acc.1 ^^^ acc.2 else acc.1, gfDoubleBlk n acc.2)
  ((List.range 8).foldl go (0, x)).1

/-- Zero bytes. -/
def zeros (n : Nat) : List Nat := List.replicate n 0

/-- Bytes of ASCII text. -/
def ascii (t : String) : List Nat := t.toList.map Char.toNat

/-- Apply f to the elements that satisfy p. -/
def updWhere {α : Type} (p : α → Bool) (f : α → α) (l : List α) : List α := l.map fun x => if p x then f x else x

/-- Replace the value of a key in an association list, or add it. -/
def assocSet {α β : Type} [BEq α] (k : α) (v : β) (l : List (α × β)) : List (α × β) :=
  (k, v) :: l.filter fun p => !(p.1 == k)

/-- The value of a key in an association list. -/
def assocGet {α β : Type} [BEq α] (k : α) (l : List (α × β)) : Option β := (l.find? fun p => p.1 == k).map (·.2)

/-- The number of the sixteen histogram counters in which a value lies: counter i counts 2^i to 2^(i+1) - 1, counter 0
includes 0, counter 15 all from 32,768 (R144, R371). -/
def histBin (v : Nat) : Nat := min 15 (Nat.log2 v)

/-- Insert a number into a rising list. -/
def insNat (x : Nat) : List Nat → List Nat
  | [] => [x]
  | y :: ys => if x ≤ y then x :: y :: ys else y :: insNat x ys

/-- The numbers of a list, rising. -/
def sortNat (l : List Nat) : List Nat := l.foldr insNat []

/-- How far from `start` the intervals (offset, length) reach without a gap, in at most `fuel` joins. -/
def reachFrom (l : List (Nat × Nat)) : Nat → Nat → Nat
  | 0, r => r
  | fuel + 1, r =>
    match l.find? fun p => decide (p.1 ≤ r) && decide (r < p.1 + p.2) with
    | some p => reachFrom l fuel (p.1 + p.2)
    | none => r

end Sys2Proof.Machine
end

