-- ==== Sys2Proof/Machine/Ops.lean ====
section
/-! DEFINITION. Access to the parts of the state, settings, free values, the audit log. -/

namespace Sys2Proof.Machine

/-- Update the timebase. -/
def State.onTime (f : Time → Time) (s : State) : State := { s with time := f s.time }
/-- Update the modes. -/
def State.onMd (f : Md → Md) (s : State) : State := { s with md := f s.md }
/-- Update arrays, volumes and commands. -/
def State.onIo (f : Io → Io) (s : State) : State := { s with io := f s.io }
/-- Update the pair. -/
def State.onPair (f : Pair → Pair) (s : State) : State := { s with pair := f s.pair }
/-- Update the switch. -/
def State.onSw (f : Sw → Sw) (s : State) : State := { s with sw := f s.sw }
/-- Update the bays. -/
def State.onBays (f : Bays → Bays) (s : State) : State := { s with bays := f s.bays }
/-- Update the configuration. -/
def State.onCfg (f : Cfg → Cfg) (s : State) : State := { s with cfg := f s.cfg }
/-- Update the mailbox fabric. -/
def State.onMbx (f : Mbx → Mbx) (s : State) : State := { s with mbx := f s.mbx }
/-- Update the audit log and its neighbours. -/
def State.onAudit (f : Audit → Audit) (s : State) : State := { s with audit := f s.audit }
/-- Update the images. -/
def State.onImg (f : Image → Image) (s : State) : State := { s with img := f s.img }
/-- Update the part records. -/
def State.onParts (f : List Part → List Part) (s : State) : State := { s with parts := f s.parts }
/-- Update the debug port. -/
def State.onDbg (f : Dbg → Dbg) (s : State) : State := { s with dbg := f s.dbg }

/-- Elapsed time, ns (R425). -/
def State.now (s : State) : Nat := s.time.now

/-- One microsecond, ns. -/
def us : Nat := 1000
/-- One millisecond, ns. -/
def ms : Nat := 1000000
/-- One second, ns. -/
def sec : Nat := 1000000000

/-- A deadline that is armed and reached. -/
def due (d : Option Nat) (s : State) : Bool :=
  match d with
  | some t => t ≤ s.now
  | none => false

/-- The next free value (log 7). -/
def State.freeVal (s : State) : Nat := Config.random s.free

/-- The free value is drawn. -/
def State.drawn (s : State) : State := { s with free := s.free + 1 }

/-- The command processor is halted by the debug port: its commands are suspended (R501). Core 4 + n is CP n (R492); 64 + lane stands for
a lane both of whose processors are halted. -/
def State.cpHalted (c : Cmd) (s : State) : Bool := decide (64 ≤ c.cp) || (s.dbg.cores.getD (4 + c.cp) {}).halted

/-- The command is suspended: it neither progresses nor ends (R501). -/
def State.suspended (c : Cmd) (s : State) : Bool := s.md.mode == .solo && s.cpHalted c

/-- A core runs again: what its firmware does to its memory is not described, so that nothing is known of it (R497, log 9). -/
def Core.resumed (c : Core) : Core := { c with halted := false, reason := 0, idx := 0, bySession := false, mem := [] }

/-! ### Memories of the debug port (R499) -/

/-- The byte that has been written at an address, if one has. -/
def Memory.get (a : Nat) : Memory → Option (BitVec 8)
  | [] => none
  | c :: m => if c.1 == a then some c.2 else Memory.get a m

/-- A byte is written; the list keeps rising addresses. -/
def Memory.set (a : Nat) (b : BitVec 8) : Memory → Memory
  | [] => [(a, b)]
  | c :: m => if a < c.1 then (a, b) :: c :: m else if c.1 == a then (a, b) :: m else c :: Memory.set a b m

/-- Every address is above lo. -/
def Memory.above (lo : Option Nat) : Memory → Bool
  | [] => true
  | c :: m => (match lo with
    | none => true
    | some l => decide (l < c.1)) && Memory.above (some c.1) m

/-- The canonical form: addresses strictly rising. -/
def Memory.wf (m : Memory) : Bool := m.above none

/-- Bytes are written from an address on. -/
def Memory.store (a : Nat) : List Nat → Memory → Memory
  | [], m => m
  | b :: l, m => Memory.store (a + 1) l (m.set a (BitVec.ofNat 8 b))

/-- The n bytes from an address on; one that nothing has written has a free value, drawn with k (log 9). -/
def Memory.load (k a n : Nat) (m : Memory) : List Nat :=
  (List.range n).map fun i => ((m.get (a + i)).getD (BitVec.ofNat 8 (Config.byte k (a + i)))).toNat

/-- The unit is PAIRED (R400). -/
def State.paired (s : State) : Bool := s.md.mode == .paired

/-- The unit is PAIRED, its partner is there and speaks its dialect (R276, R298, R299): stitches go to it, and what they record
waits for it. -/
def State.inStep (s : State) : Bool := s.paired && s.pair.links.any id && !s.pair.apart && !s.pair.warm

/-- The unit is PAIRED in warm standby with its partner there (R298). -/
def State.inWarm (s : State) : Bool := s.paired && s.pair.links.any id && !s.pair.apart && s.pair.warm

/-- Host packets are served (R400): SOLO and PAIRED, and CAST-ON after step 3 of the cast-on (R297). -/
def State.serves (s : State) : Bool :=
  match s.md.mode with
  | .solo => true
  | .paired => true
  | .castOn => match s.pair.castOn with
    | some c => c.joiner && 4 ≤ c.step
    | none => false
  | _ => false

/-- A hold-up without a partner that takes over runs: no command is ordered, no host packet acknowledged (R386). -/
def State.holdUp (s : State) : Bool := s.bays.hold.any fun h => !h.handing

/-- The association of an ID. -/
def State.assoc? (a : Nat) (s : State) : Option Assoc := s.io.assocs.find? (·.id == a)

/-- Update one association. -/
def updAssoc (a : Nat) (f : Assoc → Assoc) (s : State) : State :=
  s.onIo fun i => { i with assocs := updWhere (·.id == a) f i.assocs }

/-- The outstanding command of a row. -/
def State.cmd? (a r : Nat) (s : State) : Option Cmd := s.io.cmds.find? fun c => c.assoc == a && c.row == r

/-- Update one command. -/
def updCmd (a r : Nat) (f : Cmd → Cmd) (s : State) : State :=
  s.onIo fun i => { i with cmds := updWhere (fun c => c.assoc == a && c.row == r) f i.cmds }

/-- The array of a number. -/
def State.arr? (n : Nat) (s : State) : Option Arr := s.io.arrs.find? (·.no == n)

/-- Update one array. -/
def updArr (n : Nat) (f : Arr → Arr) (s : State) : State :=
  s.onIo fun i => { i with arrs := updWhere (·.no == n) f i.arrs }

/-- The volume of a number. -/
def State.vol? (n : Nat) (s : State) : Option Volume := s.io.vols.find? (·.no == n)

/-- Update one volume. -/
def updVol (n : Nat) (f : Volume → Volume) (s : State) : State :=
  s.onIo fun i => { i with vols := updWhere (·.no == n) f i.vols }

/-- A bay channel. -/
def State.chan (n : Nat) (s : State) : Chan := s.bays.ch.getD n {}

/-- Update one bay channel. -/
def updChan (n : Nat) (f : Chan → Chan) (s : State) : State := s.onBays fun b => { b with ch := b.ch.modify n f }

/-- The drive of a bay. -/
def State.drive? (n : Nat) (s : State) : Option Drive := s.bays.drives.getD n none

/-- Update the drive of a bay. -/
def updDrive (n : Nat) (f : Drive → Drive) (s : State) : State :=
  s.onBays fun b => { b with drives := b.drives.modify n (Option.map f) }

/-- The record of an array's lease. -/
def State.lease (n : Nat) (s : State) : Lease := s.pair.leases.getD n {}

/-- Update the record of an array's lease. -/
def updLease (n : Nat) (f : Lease → Lease) (s : State) : State :=
  s.onPair fun p => { p with leases := p.leases.modify n f }

/-- The drive command of a number. -/
def State.dc? (n : Nat) (s : State) : Option DrvCmd := s.io.dcs.find? (·.id == n)

/-- Update one drive command. -/
def updDc (n : Nat) (f : DrvCmd → DrvCmd) (s : State) : State :=
  s.onIo fun i => { i with dcs := updWhere (·.id == n) f i.dcs }

/-- The unit acts on an array: in SOLO without leases on every array (R401), otherwise under its lease (R270); at the end of
BOOT only in a joint start, to drain its dump (R406). -/
def State.acts (n : Nat) (s : State) : Bool :=
  match s.md.mode with
  | .solo => (s.pair.soloNoLease && !(s.lease n).leased) || (s.lease n).acting
  | .paired => (s.lease n).acting
  | .boot => s.pair.joint && (s.lease n).acting
  | _ => false

/-- The array is shadowed by the partner's marionette (R269). -/
def State.shadowed (n : Nat) (s : State) : Bool := s.paired && (s.lease n).acting && (s.lease n).shadowed

/-- The yarn carries traffic (R274). -/
def State.yarnUp (s : State) : Bool := s.pair.links.any id

/-- The yarn link that new messages take: YARN0 while it is up, else YARN1 (R274). -/
def State.yarnLink (s : State) : Nat := if s.pair.links.getD 0 false then 0 else 1

/-! ### Settings (R452) -/

/-- The default of a setting (R452). Read class, tag limits, class weights and malformed actions depend on the instance. -/
def settingDefault (sid inst : Nat) : Int :=
  match sid with
  | 0x0180 => 0
  | 0x0280 => 50
  | 0x0281 => 10
  | 0x0282 => 16
  | 0x0283 => 20
  | 0x0284 => 1000
  | 0x0285 => 60
  | 0x0286 => 24
  | 0x0287 => 8192
  | 0x0288 => 4
  | 0x028A => 1024
  | 0x028B => 512
  | 0x028C => if inst < 3 then 0 else 1
  | 0x028D => 3
  | 0x0480 => 120
  | 0x0481 => 2000
  | 0x0482 => 7
  | 0x0582 => 35
  | 0x0583 => 300
  | 0x0584 => 1000
  | 0x0585 => 2
  | 0x0586 => 10
  | 0x0680 => 50
  | 0x0681 => 75
  | 0x0682 => 20
  | 0x0683 => 2048
  | 0x0684 => [1, 2, 4, 8, 16].getD (inst % 256) 1
  | 0x0685 => 5
  | 0x0686 => 25
  | 0x0687 => 12
  | 0x0688 => 255
  | 0x0780 => 20
  | 0x0781 => 47371
  | 0x0783 => 500
  | 0x0784 => 60
  | 0x0785 => 24
  | 0x0786 => 180
  | 0x0787 => 1
  | 0x0880 => 10
  | 0x0881 => 5
  | 0x0882 => 25
  | 0x0883 => 4096
  | 0x0885 => 25
  | 0x0E80 => 37
  | 0x0E84 => 3
  | 0x0E85 => 1000
  | _ => 0

/-- The value of a setting in force (R452). -/
def State.setting (s : State) (sid inst : Nat) : Int :=
  match s.cfg.set.find? fun e => e.1 == sid && e.2.1 == inst with
  | some e => e.2.2
  | none => settingDefault sid inst

/-- An unsigned setting. -/
def State.settingN (s : State) (sid : Nat) (inst : Nat := 0) : Nat := (s.setting sid inst).toNat

/-- Store the value of one setting. -/
def putSetting (sid inst : Nat) (v : Int) (s : State) : State :=
  s.onCfg fun c => { c with set := (sid, inst, v) :: c.set.filter fun e => !(e.1 == sid && e.2.1 == inst) }

/-! ### State-space addresses and the audit log -/

/-- A state-space address (R464). -/
def ssAddr (cls inst fld : Nat) : Nat := cls * 2 ^ 48 + inst * 2 ^ 24 + fld

/-- The unit as an object of the state space. -/
def unitObj : Nat := ssAddr 1 0 0

/-- The first 8 bytes of a SHA-256 over bytes (R456, R457). -/
def digest8 (l : List Nat) : Nat := Config.sha256 l % 2 ^ 64

/-- Entries not yet sealed (R458). -/
def State.unsealed (s : State) : Nat := s.audit.next - 1 - s.audit.sealed

/-- State of the audit log: 0 normal, 1 reserve in use, 2 reserve full (R458). -/
def State.auditState (s : State) : Nat :=
  if s.unsealed < 16711680 then 0 else if s.unsealed < 16777216 then 1 else 2

/-- The 64 bytes of an audit entry (R456). -/
def AEntry.bytes (e : AEntry) : List Nat :=
  bytesLE 8 e.seq ++ bytesLE 8 e.time ++ [e.origin % 256, e.kind % 256] ++ bytesLE 2 e.principal ++ bytesLE 2 e.opcode ++ bytesLE 2 e.result
    ++ bytesLE 8 e.obj ++ bytesLE 8 e.old ++ bytesLE 8 e.new ++ bytesLE 4 e.flags ++ bytesLE 4 e.detail ++ bytesLE 8 e.chain

/-- Append one entry: sequence, time, flags and chain are filled in (R455 to R457). -/
def auditWrite (e : AEntry) (s : State) : State :=
  let au := s.audit
  let prev := match au.log with
    | x :: _ => x.chain
    | [] => 0
  let fl := (if s.md.slot == 1 then 1 else 0) + e.flags + (if s.time.unsync then 4 else 0)
  let e1 := { e with seq := au.next, time := s.time.dev, flags := fl }
  let ch := digest8 (bytesLE 8 prev ++ (e1.bytes).take 56)
  s.onAudit fun a => { a with log := ({ e1 with chain := ch } :: a.log).take 16777216, next := a.next + 1 }

/-- Append an entry as the fill state of the log allows: a full reserve counts it as left out, and the first entry after a
seal is a gap entry (R458). -/
def auditPush (e : AEntry) (s : State) : State :=
  if s.auditState == 2 then s.onAudit fun a => { a with leftOut := a.leftOut + 1, gapDue := a.gapDue + 1 }
  else if s.audit.gapDue == 0 then auditWrite e s
  else
    let n := s.audit.gapDue
    auditWrite e (auditWrite { kind := 3, origin := 7, detail := n } (s.onAudit fun a => { a with gapDue := 0 }))

/-- A firmware event (R525): event code, its data in Detail [31:16], the object. -/
def fwEvent (code data obj : Nat) (s : State) (new : Nat := 0) : State :=
  auditPush { kind := 2, origin := 7, obj := obj, detail := code + data % 65536 * 65536, new := new } s

/-- An alarm is raised or cleared (R525, 0016h). -/
def alarmEvent (alarm : Nat) (raised : Bool) (s : State) : State :=
  fwEvent 0x16 (alarm + (if raised then 256 else 0)) unitObj s

/-- A part's record in the state space, or its record as new (R465). -/
def State.part (cls inst : Nat) (s : State) : Part :=
  (s.parts.find? fun p => p.cls == cls && p.inst == inst).getD { cls := cls, inst := inst }

/-- Update the record of a part. -/
def updPart (cls inst : Nat) (f : Part → Part) (s : State) : State :=
  let p := f (s.part cls inst)
  s.onParts fun l => p :: l.filter fun q => !(q.cls == cls && q.inst == inst)

/-- A part is in service (R465). -/
def State.inService (cls inst : Nat) (s : State) : Bool := (s.part cls inst).st == 0

/-- The NET port that an association's packets leave by: the one on which it last received, or the next in service, ascending with wrap
(R480). -/
def State.netPort (a : Assoc) (s : State) : Nat :=
  if s.inService 0x3006 a.net then a.net
  else (((List.range 8).map fun k => (a.net + k) % 8).find? fun p => s.inService 0x3006 p).getD a.net

/-- A bay's drive is out of reach for the moment: its link is taken out for test, or relinks (R375, R482). -/
def State.away (bay : Nat) (s : State) : Bool := (s.chan bay).relink.isSome || !s.inService 0x3007 bay

/-- Update the parser record of a port. -/
def updParser (p : Nat) (f : Parser → Parser) (s : State) : State :=
  s.onSw fun w => { w with parsers := updWhere (·.port == p) f w.parsers }

/-- The parser record of a port. -/
def State.parser (p : Nat) (s : State) : Parser := (s.sw.parsers.find? (·.port == p)).getD { port := p }

/-- The bank that a parser's next swap brings in: the standby tables over those of a running swap or the active bank (R346). -/
def Parser.nextBank (p : Parser) : Bank :=
  let b : Bank := p.bankNext.getD { lanes := p.lanes, dscp := p.dscp, txDscp := p.txDscp, mal := p.mal, tcpCls := p.tcpCls }
  { lanes := p.lanesS.getD b.lanes, dscp := (p.dscpS.map (·.1)).getD b.dscp, txDscp := (p.dscpS.map (·.2)).getD b.txDscp,
    mal := p.malS.getD b.mal, tcpCls := p.tcpClsS.getD b.tcpCls }

/-- Some standby table is written and waits for its swap (R346). -/
def Parser.standby (p : Parser) : Bool := p.lanesS.isSome || p.dscpS.isSome || p.malS.isSome || p.tcpClsS.isSome

/-- Update the counters of a port and class (R326). -/
def updPort (p c : Nat) (f : PortCnt → PortCnt) (s : State) : State :=
  let r := f ((s.sw.ports.find? fun q => q.port == p && q.cls == c).getD { port := p, cls := c })
  s.onSw fun w => { w with ports := r :: w.ports.filter fun q => !(q.port == p && q.cls == c) }

/-- The part of a command's meaning that reports an expiry: it acts only when its deadline is reached (log 4). -/
def whenDue (d : Option Nat) (f : State → State) (s : State) : State := if due d s then f s else s

/-! ### Operations of the mailbox fabric -/

/-- An operation ends with a state and a result code (R444). -/
def endOper (op : Nat) (st code : Nat) (s : State) : State :=
  let f := fun (o : Oper) => { o with st := st, code := code, prog := if st == 1 then 1000 else o.prog, ended := s.time.dev }
  s.onMbx fun m => { m with opers := updWhere (fun o => o.id == op && o.st == 0) f m.opers }

/-- A proof run ends with a state of its operation and a result code (R292, R294). -/
def endProof (st code : Nat) (s : State) : State :=
  match s.pair.proof with
  | none => s
  | some p =>
    let s1 := s.onPair fun x => { x with proof := none }
    match p.op with
    | some op => endOper op st code s1
    | none => s1

end Sys2Proof.Machine
end

