-- ==== Sys2Proof/Machine/Buffers.lean ====
section
/-! DEFINITION. Cells, reserves, spilling, egress queues and priority flow control (chapter 09). -/

namespace Sys2Proof.Machine

/-- Cells of a unit of transfer of n bytes (R302). -/
def cellsOf (n : Nat) : Nat := ceilDiv n 256

/-- Cells that one class holds in the cell SRAM: received, queued and retained (R306, R310). -/
def State.sramCls (c : Nat) (s : State) : Nat :=
  ((s.sw.inflight.filter fun i => i.cls == c && !i.head).map (·.cells)).sum
    + ((s.sw.egress.filter fun q => q.cls == c && !q.spilled).map fun q => cellsOf q.bytes).sum
    + (s.io.assocs.map fun a => ((a.unacked.filter fun p => p.cls == c && !p.spilled && p.sentAt.isSome).map (·.cells)).sum).sum

/-- Cells in use in the cell SRAM (R327). -/
def State.sramUsed (s : State) : Nat :=
  ((List.range 8).map fun c => s.sramCls c).sum + ((s.sw.inflight.filter (·.head)).map (·.cells)).sum

/-- Cells in use in SPILL: queued, retained and the cast-on buffer (R308). -/
def State.spillUsed (s : State) : Nat :=
  ((s.sw.egress.filter (·.spilled)).map fun q => cellsOf q.bytes).sum
    + (s.io.assocs.map fun a => ((a.unacked.filter (·.spilled)).map (·.cells)).sum).sum
    + (match s.pair.castOn with
      | some c => cellsOf c.buffered
      | none => 0)

/-- Retained cells of the unit (R310). -/
def State.retained (s : State) : Nat :=
  (s.io.assocs.map fun a => ((a.unacked.filter (·.sentAt.isSome)).map (·.cells)).sum).sum

/-- The reserve of a class (R306). -/
def classReserve (c : Nat) : Nat :=
  match c with
  | 7 => 8192
  | 6 => 4096
  | 5 => 16384
  | _ => 8192

/-- Cells of the shared pool in use, each class's own reserve counted first (R306). -/
def State.poolUsed (s : State) : Nat := ((List.range 8).map fun c => s.sramCls c - classReserve c).sum

/-- The class can take n more cells: from the shared pool, or else from its own reserve (R306). -/
def State.canTake (c n : Nat) (s : State) : Bool :=
  s.poolUsed + (s.sramCls c + n - max (s.sramCls c) (classReserve c)) ≤ 438272

/-- Depth of an egress queue in cells, SRAM and SPILL together (R326). -/
def State.depth (p c : Nat) (s : State) : Nat :=
  ((s.sw.egress.filter fun q => q.port == p && q.cls == c).map fun q => cellsOf q.bytes).sum

/-- Depth of an egress queue in SRAM cells (R307). -/
def State.depthSram (p c : Nat) (s : State) : Nat :=
  ((s.sw.egress.filter fun q => q.port == p && q.cls == c && !q.spilled).map fun q => cellsOf q.bytes).sum

/-- The spill threshold in cells (R307). -/
def State.spillThreshold (s : State) : Nat := 524288 * s.settingN 0x0681 / 100

/-- Where spilling stops: 5 % below the threshold (R307). -/
def State.spillFloor (s : State) : Nat := 524288 * (s.settingN 0x0681 - 5) / 100

/-- Move retained cells of classes TC0 to TC4 to SPILL, oldest first, until n cells have moved (R307). -/
def spillRetained : List TxPkt → Nat → List TxPkt
  | [], _ => []
  | p :: ps, n =>
    if n != 0 && !p.spilled && p.sentAt.isSome && p.cls ≤ 4 then { p with spilled := true } :: spillRetained ps (n - p.cells)
    else p :: spillRetained ps n

/-- Move tail cells of one queue to SPILL until n cells have moved; the list is given newest first (R307). -/
def spillTail (p c : Nat) : List QItem → Nat → List QItem
  | [], _ => []
  | q :: qs, n =>
    if n != 0 && q.port == p && q.cls == c && !q.spilled then { q with spilled := true } :: spillTail p c qs (n - cellsOf q.bytes)
    else q :: spillTail p c qs n

/-- The deepest spillable egress queue (R307). -/
def State.deepest (s : State) : Nat × Nat :=
  (s.sw.egress.filter fun q => q.cls ≤ 4 && !q.spilled).foldl
    (fun best q => if s.depthSram best.1 best.2 < s.depthSram q.port q.cls then (q.port, q.cls) else best) (48, 0)

/-- The buffer manager moves cells to SPILL when SRAM occupancy passes the threshold, retained cells first, then the
tail of the deepest spillable queue, while SPILL has room (R307, R308). -/
def spillBalance (s : State) : State :=
  if s.sramUsed ≤ s.spillThreshold || 67108864 ≤ s.spillUsed then s
  else
    let want := s.sramUsed - s.spillFloor
    let r0 := s.spillUsed
    let s1 := s.onIo fun i => { i with assocs := i.assocs.map fun a => { a with unacked := spillRetained a.unacked want } }
    let moved := s1.spillUsed - r0
    let pc := s1.deepest
    if want ≤ moved then s1
    else s1.onSw fun w => { w with egress := (spillTail pc.1 pc.2 w.egress.reverse (want - moved)).reverse }

/-- High-water marks of SRAM, SPILL and of a queue (R326, R327). -/
def highWater (p c : Nat) (s : State) : State :=
  (updPort p c (fun r => { r with high := max r.high (s.depth p c) }) s).onSw fun w =>
    { w with sramHigh := max w.sramHigh s.sramUsed, spillHigh := max w.spillHigh s.spillUsed }

/-- A packet enters an egress queue. Beyond 65,536 SRAM cells of its queue, cells of TC0 to TC4 go to SPILL (R306, R307). -/
def enqueue (p c bytes : Nat) (m : OutMsg) (s : State) (src : Nat := 46) : State :=
  let n := cellsOf bytes
  let sp := decide (c ≤ 4) && decide (65536 ≤ s.depthSram p c) && decide (s.spillUsed + n ≤ 67108864)
  let q : QItem := { id := s.sw.nextItem, port := p, cls := c, bytes := bytes, msg := m, t := s.now, spilled := sp, srcP := src }
  let s1 := s.onSw fun w => { w with egress := w.egress ++ [q], nextItem := w.nextItem + 1 }
  let s2 := updPort src c (fun r => { r with cin := r.cin + n }) s1
  let s3 := if sp then updPort p c (fun r => { r with spilled := r.spilled + n }) s2 else s2
  highWater p c (spillBalance s3)

/-- Cells received from a port in a wire priority and not yet at their destination (R313). -/
def State.portCells (p prio : Nat) (s : State) : Nat :=
  ((s.sw.inflight.filter fun i => i.port == p && i.prio == prio).map (·.cells)).sum

/-- The flow-control condition of a port and priority (R313): above XOFF, or the class can take no further cell. -/
def State.pauseWanted (p prio : Nat) (s : State) : Bool :=
  decide (s.settingN 0x028A p < s.portCells p prio) || !s.canTake prio 1

/-- Send a pause, or end one below XON, as the count after the change decides (R313, R325). -/
def pauseCheck (p prio : Nat) (s : State) : State :=
  if s.sw.pausedBy.contains (p, prio) then
    if s.portCells p prio < s.settingN 0x028B p && s.canTake prio 1 then
      s.onSw fun w => { w with pausedBy := w.pausedBy.filter fun x => !(x == (p, prio)),
                               pauseRep := w.pauseRep.filter fun x => !(x.1 == p && x.2.1 == prio),
                               pauseTx := w.pauseTx ++ [(p, prio, 0)] }
    else s
  else if s.pauseWanted p prio then
    updPort p prio (fun r => { r with pSent := r.pSent + 1 }) (s.onSw fun w =>
      { w with pausedBy := w.pausedBy ++ [(p, prio)], pauseRep := w.pauseRep ++ [(p, prio, s.now + 20 * us)],
               pauseTx := w.pauseTx ++ [(p, prio, 65535)] })
  else s

/-- The cells of a received packet reach their destination: they leave the switch (R305, R313). -/
def sinkCells (a seq : Nat) (s : State) : State :=
  match s.sw.inflight.find? fun i => i.assoc == a && i.seq == seq with
  | none => s
  | some i =>
    let s1 := s.onSw fun w => { w with inflight := w.inflight.erase i }
    pauseCheck i.port i.prio (updPort 46 i.cls (fun r => { r with cout := r.cout + i.cells }) s1)

/-- The measured departure rate of a queue over the last 1 ms, bytes per second (R309). -/
def State.depRate1ms (p c : Nat) (s : State) : Nat :=
  ((s.sw.depRate.filter fun d => d.1 == p * 8 + c && s.now ≤ d.2.1 + ms).map (·.2.2)).sum * 1000

/-- A queue admits n bytes while its depth with them stays at most the larger of 256 cells and its delay limit: the
departure rate times half the ageing limit (R309). An empty queue, whose rate is 0, admits any data: otherwise a large read
would never start (DEDUCED, log 31). -/
def State.admits (p c n : Nat) (s : State) : Bool :=
  let limit := s.depRate1ms p c * s.settingN 0x0680 / 2000
  (s.depth p c == 0 || decide ((s.depth p c + cellsOf n) * 256 ≤ max (256 * 256) limit))
    && (decide (s.depthSram p c < 65536) || decide (s.spillUsed + cellsOf n ≤ 67108864))

end Sys2Proof.Machine
end

