-- ==== Sys2Proof/Machine/Flags.lean ====
section
/-! DEFINITION. Status codes, the flags of a completion entry, and status bits that reports carry. -/

namespace Sys2Proof.Machine

/-- Successful Completion. Statuses are SCT x 256 + SC (R129). -/
def scOk : Nat := 0x000
/-- Invalid Command Opcode (R129). -/
def scOpcode : Nat := 0x001
/-- Invalid Field in Command (R129). -/
def scField : Nat := 0x002
/-- Command ID Conflict (R129). -/
def scCid : Nat := 0x003
/-- Internal Error (R129). -/
def scInternal : Nat := 0x006
/-- Command Abort Requested (R129). -/
def scAborted : Nat := 0x007
/-- Invalid Namespace or Format (R129). -/
def scNamespace : Nat := 0x00B
/-- Command Sequence Error (R129). -/
def scSequence : Nat := 0x00C
/-- LBA Out of Range (R129). -/
def scLbaRange : Nat := 0x080
/-- Abort Command Limit Exceeded (R129). -/
def scAbortLimit : Nat := 0x103
/-- Asynchronous Event Request Limit Exceeded (R129). -/
def scAerLimit : Nat := 0x105
/-- Feature Identifier Not Saveable (R129). -/
def scNotSaveable : Nat := 0x10D
/-- Feature Not Changeable (R129). -/
def scNotChangeable : Nat := 0x10E
/-- Device Self-test in Progress (R129). -/
def scSelfTest : Nat := 0x11D
/-- Write Fault (R129). -/
def scWriteFault : Nat := 0x280
/-- Unrecovered Read Error (R129). -/
def scUnrecovered : Nat := 0x281
/-- End-to-end Guard Check Error (R129). -/
def scGuard : Nat := 0x282
/-- End-to-end Application Tag Check Error (R129). -/
def scAppTag : Nat := 0x283
/-- End-to-end Reference Tag Check Error (R129). -/
def scRefTag : Nat := 0x284
/-- Asymmetric Access Inaccessible (R129). -/
def scAnaInaccessible : Nat := 0x302
/-- Asymmetric Access Transition (R129). -/
def scAnaTransition : Nat := 0x303
/-- Twin Send Required (R129). -/
def scTwin : Nat := 0x7C0
/-- Window Violation (R129). -/
def scWindowViolation : Nat := 0x7C1
/-- Window Revoked (R129). -/
def scWindowRevoked : Nat := 0x7C2
/-- Window Table Full (R129). -/
def scWindowFull : Nat := 0x7C3
/-- Zone Pool Exhausted (R129). -/
def scZonePool : Nat := 0x7C4
/-- Zone Range Busy (R129). -/
def scZoneBusy : Nat := 0x7C5
/-- Placement Refused (R129). -/
def scPlacement : Nat := 0x7C6
/-- Tags Exhausted (R129). -/
def scTags : Nat := 0x7C7
/-- Aborted by Reset (R129). -/
def scReset : Nat := 0x7C8
/-- Deferred Write Error (R129). -/
def scDeferred : Nat := 0x7C9
/-- Role Refused (R129). -/
def scRole : Nat := 0x7CA
/-- Queue Depth Exceeded (R129). -/
def scQueueDepth : Nat := 0x7CB

/-- The statuses with DNR = 1 (R129). -/
def dnrStatuses : List Nat :=
  [scOpcode, scField, scCid, scAborted, scNamespace, scSequence, scLbaRange, scAbortLimit, scAerLimit, scNotSaveable,
   scNotChangeable, scSelfTest, scGuard, scAppTag, scRefTag, scTwin, scWindowViolation, scWindowRevoked, scWindowFull,
   scPlacement, scRole]

/-- The Do not retry bit of a status (R129). -/
def dnrOf (sc : Nat) : Bool := dnrStatuses.contains sc

/-- The statuses whose completion has an entry in log page 01h (R130, R527). -/
def loggedStatus (sc : Nat) : Bool := sc == scInternal || sc == scWriteFault

/-- The completion entry as the four dwords of a RESP (R108). -/
def respDwords (r : Resp) : List Nat :=
  [r.dw0 % 2 ^ 32, r.dw1 % 2 ^ 32, r.sqHead % 65536 + r.qid % 65536 * 65536,
   r.cid % 65536 + r.sc % 256 * 2 ^ 17 + r.sc / 256 % 8 * 2 ^ 25 + (if r.more then 2 ^ 30 else 0) + (if r.dnr then 2 ^ 31 else 0)]

/-- The code of a mode (R141). -/
def modeCode : Mode → Nat
  | .powerStandby => 0
  | .boot => 1
  | .maintenance => 2
  | .solo => 3
  | .paired => 4
  | .castOn => 5
  | .isolated => 6
  | .safe => 7

/-- The code of a member state (R242). -/
def memberCode : MemberState → Nat
  | .inSync => 0
  | .absent => 1
  | .failed => 2
  | .resyncing => 3
  | .rebuilding => 4

/-- The unit byte of HELLO-2 and log page C0h: unit A or B, and PAIRED (R48, R141). -/
def unitByte (s : State) : Nat := s.md.slot + (if s.paired then 2 else 0)

/-- The role of an array at this unit (R141): 0 none, 1 holder shadowed, 2 holder write-through, 3 marionette, 4 held by
the partner without shadow, 5 holder in SOLO. -/
def arrayRole (n : Nat) (s : State) : Nat :=
  if (s.arr? n).isNone then 0
  else match s.md.mode with
    | .solo => if s.acts n then 5 else 0
    | .paired => if (s.lease n).acting then (if (s.lease n).shadowed then 1 else 2) else if (s.lease n).marion then 3 else 4
    | .castOn => 4
    | _ => 0

/-- Positions of an array that do not serve: ABSENT, FAILED, RESYNCING or REBUILDING (R188). -/
def downPositions (a : Arr) : Nat := (a.pos.filter fun p => p.st != .inSync).length

/-- The parity strips per row of a layout, 0 for the mirrors (R169). -/
def parityStrips : Layout → Nat
  | .m2 => 0
  | .m3 => 0
  | .p1 => 1
  | .p2 => 2
  | .p3 => 3

/-- The copies that a mirror layout keeps, 1 for the parity layouts (R169). -/
def copies : Layout → Nat
  | .m2 => 2
  | .m3 => 3
  | _ => 1

/-- A member state that the array counts as absent or failed (R170). -/
def memberGone : MemberState → Bool
  | .absent => true
  | .failed => true
  | _ => false

/-- The positions of mirror set k (R172). -/
def mirrorSet (lay : Layout) (n k : Nat) : List Nat := (List.range (copies lay)).map fun c => k + c * (n / copies lay)

/-- The array is offline: more positions are absent or failed than the layout tolerates, or every copy of one mirror set
is (R170); so it is while its import lasts (R201). -/
def Arr.offline (a : Arr) : Bool :=
  if a.importing then true
  else if parityStrips a.layout != 0 then decide (parityStrips a.layout < (a.pos.filter fun p => memberGone p.st).length)
  else (List.range (a.pos.length / copies a.layout)).any fun k =>
    (mirrorSet a.layout a.pos.length k).all fun p => memberGone (a.pos.getD p {}).st

/-- The health of an array (R141): 0 optimal, 1 degraded, 2 rebuilding, 3 lost stripes present, 4 offline. -/
def arrayHealth (a : Arr) : Nat :=
  if a.offline then 4
  else if a.lost.length != 0 || a.lostOver then 3
  else if a.pos.any fun p => p.st == .rebuilding then 2
  else if downPositions a != 0 then 1
  else 0

end Sys2Proof.Machine
end

