-- ==== Sys2Proof/Machine/Send.lean ====
section
/-! DEFINITION. Sending packets, stitches and events; the final status of a command; violations. -/

namespace Sys2Proof.Machine

/-! ### VDT packets -/

/-- Bytes of a payload (R43, R51, R68, R73). -/
def payloadLen : PktBody → Nat
  | .keys4 l => 36 + 20 * l.length
  | .keepalive r => if r then 4 else 0
  | .place _ _ _ len _ _ => len
  | .resp _ => 16
  | .flush _ _ => 16
  | .flushAck _ _ => 16
  | .violation .. => 40

/-- An IPv4-mapped address (R335). -/
def isIpv4 (addr : Nat) : Bool := addr / 2 ^ 32 == 0xFFFF

/-- Bytes of the Ethernet frame of a VDT packet, untagged (R39, R40). -/
def vdtFrameBytes (dst payload : Nat) : Nat := 14 + (if isIpv4 dst then 20 else 40) + 8 + 64 + payload + 16 + 4

/-- The row that a body belongs to (R41). -/
def bodyRow : PktBody → Nat
  | .place r .. => r
  | .resp r => r.row
  | _ => 0

/-- Room for one more sequenced packet: 1,024 queued and unacknowledged per direction, 4 GiB retained per unit (R61, R310). -/
def State.txRoom (a : Assoc) (s : State) : Bool := decide (a.unacked.length < 1024) && decide (s.retained < 16777216)

/-- A body is admitted: it takes the next sequence and enters its egress queue (R60, R310). A FLUSH covers every packet
admitted before it (R94). -/
def admitSeq (a : Assoc) (cls : Nat) (body : PktBody) (s : State) : State :=
  let b := match body with
    | .flush f _ => .flush f (a.txNext - 1)
    | x => x
  let bytes := vdtFrameBytes a.src (payloadLen b)
  let p : TxPkt := { seq := a.txNext, phase := a.txPhase, body := b, row := bodyRow b, cls := cls, cells := cellsOf bytes }
  enqueue (s.netPort a) cls bytes (.vdtRef a.id a.txNext)
    (updAssoc a.id (fun x => { x with txNext := x.txNext + 1, unacked := x.unacked ++ [p] }) s)

/-- Send a sequenced packet on an association, or let it wait for room and for KEYS-4, which has sequence 1 (R51). A suspended end sends nothing: a RESP waits for
the resume, everything else is dropped (R66, R67). -/
def sendSeq (id cls : Nat) (b : PktBody) (s : State) : State :=
  match s.assoc? id with
  | none => s
  | some a =>
    match a.st with
    | .suspended => match b with
      | .resp _ => updAssoc id (fun x => { x with txWait := x.txWait ++ [(b, bodyRow b, cls)] }) s
      | _ => s
    | _ =>
      if a.txWait.isEmpty && a.awaitStitch.isNone && s.txRoom a then admitSeq a cls b s
      else updAssoc id (fun x => { x with txWait := x.txWait ++ [(b, bodyRow b, cls)] }) s

/-- Admit waiting packets while there is room (R310). -/
def admitWaiting : Nat → Nat → State → State
  | 0, _, s => s
  | n + 1, id, s =>
    match s.assoc? id with
    | none => s
    | some a =>
      match a.txWait with
      | [] => s
      | (b, _, cls) :: rest =>
        if a.st != .suspended && a.awaitStitch.isNone && s.txRoom a then
          admitWaiting n id (admitSeq a cls b (updAssoc id (fun x => { x with txWait := rest }) s))
        else s

/-- The selective-acknowledgement bitmap: bit i stands for packet N + 2 + i (R41). -/
def sackBits (cum : Nat) (got : List Nat) : Nat :=
  ((List.range 64).map fun i => if got.contains (cum + 2 + i) then 2 ^ i else 0).sum

/-- A separate ACK leaves; nothing newly received is left to acknowledge (R63). -/
def sendAck (id : Nat) (s : State) : State :=
  match s.assoc? id with
  | none => s
  | some a =>
    enqueue (s.netPort a) 5 (vdtFrameBytes a.src 0) (.ackPkt id a.src a.udpPort a.rxCum (sackBits a.rxCum a.rxSet))
      (updAssoc id (fun x => { x with rxNew := 0, rxOldest := none, lastAct := s.now }) s)

/-- A NAK protected like every packet but those of reasons 2, 4 and 5 (R56, R73). -/
def sendNak (id reason : Nat) (ranges : List (Nat × Nat)) (s : State) : State :=
  match s.assoc? id with
  | none => s
  | some a =>
    enqueue (s.netPort a) 5 (vdtFrameBytes a.src (8 + 16 * ranges.length)) (.nakPkt id a.src a.udpPort a.rxCum (sackBits a.rxCum a.rxSet) reason ranges)
      (updAssoc id (fun x => { x with lastAct := s.now }) s)

/-- A NAK in clear to an address, by the port at which the packet arrived (R52, R55, R69). -/
def sendNakClear (port dst reason : Nat) (s : State) : State :=
  enqueue port 5 (vdtFrameBytes dst 8 - 16) (.nakClear dst reason) s

/-! ### Yarn messages and stitches -/

/-- A message for the partner leaves by a yarn link (R274, R275). -/
def sendYarn (cls bytes : Nat) (m : OutMsg) (s : State) : State :=
  if s.yarnUp then enqueue (32 + s.yarnLink) cls bytes m s else s

/-- This unit issues stitches: PAIRED, or in a running cast-on: the serving unit from its new stream on, the joiner once it
serves hosts (R276, R296, R297). -/
def State.stitching (s : State) : Bool :=
  s.inStep || s.pair.castOn.any fun c => if c.joiner then decide (4 ≤ c.step) else decide (3 ≤ c.step)

/-- Bytes of a stitch body by its kind (R278); the kinds with a list count their fields. -/
def stitchBytes (kind n : Nat) : Nat :=
  32 + match kind with
    | 1 => 40
    | 2 => 24
    | 3 => 16
    | 6 => 48
    | 7 => 32
    | 8 => 32
    | 11 => 16
    | 12 => 32
    | 13 => 24
    | 14 => 16
    | 15 => 48
    | 16 => 528
    | 17 => 16
    | 18 => 16
    | 19 => 40
    | 20 => 24
    | 22 => 32
    | _ => 16 + 8 * n

/-- Issue a stitch of this unit's stream (R276, R277). -/
def issueStitch (kind arr assoc row : Nat) (data : List Nat) (s : State) : State :=
  if s.stitching then
    let n := s.pair.txStitch
    let st : Stitch := { num := n, kind := kind, arr := arr, assoc := assoc, row := row, data := data, t := s.now,
                         link := s.yarnLink, time := s.time.dev }
    sendYarn 7 (stitchBytes kind data.length) (.stitch n s.yarnLink kind arr assoc s.time.dev data)
      (s.onPair fun p => { p with txStitch := p.txStitch + 1, stitches := p.stitches ++ [st] })
  else s

/-! ### Results of mailboxes (R439 to R445) -/

/-- The audit sequence that a write of the log used, 0 when no entry was written (R439, R458). -/
def auditSeqOf (before after : State) : Nat := if after.audit.next == before.audit.next then 0 else after.audit.next - 1

/-- The audit entry of a mailbox (R456). -/
def slotEntry (x : Slot) (code : Nat) : AEntry :=
  { kind := 1, origin := x.path, principal := x.principal, opcode := x.opcode, result := code, obj := x.obj, old := x.old
    new := if code ≤ 1 then x.new else x.old, flags := if x.force then 2 else 0, detail := x.tag }

/-- A SETTING stitch with the result of a mailbox of scope S (R445, R446); its frame is named by opcode, tag and slot. -/
def stitchResult (x : Slot) (code seq : Nat) (payload : List Nat) (s : State) : State :=
  let way := if x.path == 3 then (x.recv, x.recvSlot) else (x.path, x.slot)
  issueStitch 21 255 0 0 ([seq, 2, way.1, x.principal, x.opcode, x.tag, way.2, code] ++ payload) s

/-- A slot is free again; a session whose principal is gone closes with its last busy slot (R449). -/
def freeSlot (path slot : Nat) (s : State) : State :=
  s.onMbx fun m =>
    let l := m.slots.filter fun y => !(y.path == path && y.slot == slot)
    { m with slots := l, sessions := m.sessions.filter fun e => !(e.closing && !l.any fun y => y.path == 1 && y.session == e.id) }

/-- The result of a busy slot is ready: the frame leaves, or waits to be read on the service bus and the debug port, or to be placed in
its host window (R124, R436, R441, R492). -/
def putResult (x : Slot) (code seq : Nat) (payload : List Nat) (s : State) : State :=
  if x.orphan then freeSlot x.path x.slot s
  else if x.path == 2 || x.path == 4 || x.inband.isSome then
    s.onMbx fun m => { m with slots := updWhere (fun y => y.path == x.path && y.slot == x.slot) (fun y => { y with
      ready := some (code, seq, payload), await := (0, 0), dcs := [] }) m.slots }
  else if x.path == 3 || x.path == 7 then freeSlot x.path x.slot s
  else
    let out : MbOut := { path := x.path, slot := x.slot, tag := x.tag, opcode := x.opcode, code := code, auditSeq := seq, payload := payload }
    freeSlot x.path x.slot (s.onMbx fun m => { m with results := m.results ++ [out] })

/-- The result of a mailbox that waited for its action: audited, stitched where its scope is the shelf, and sent (R441, R443, R445). -/
def answerSlot (path slot code : Nat) (payload : List Nat) (s : State) : State :=
  match s.mbx.slots.find? fun x => x.path == path && x.slot == slot && x.ready.isNone with
  | none => s
  | some x =>
    let s1 := auditPush (slotEntry x code) s
    let seq := auditSeqOf s s1
    let s2 := if s.stitching && (x.shelf || x.path == 3) then stitchResult x code seq payload s1 else s1
    putResult x code seq payload s2

/-- Mailboxes proposed to unit A end with 010Dh when the yarn is lost (R454). -/
def endProposals (s : State) : State :=
  let s1 := s.onMbx fun m => { m with slots := updWhere (fun x => s.pair.proposals.any fun p => p.1 == x.path && p.2.1 == x.slot) (fun x => { x with shelf := false }) m.slots }
  (s.pair.proposals.foldl (fun st p => answerSlot p.1 p.2.1 0x010D (bytesLE 4 0xFFFFFFFF) st) s1).onPair fun p => { p with proposals := [] }

/-- Mailboxes that wait for the end of commands that a reset ended: of one association (1), of all (2) (R453). -/
def settleSlots (s : State) : State :=
  let ended := fun (x : Slot) =>
    (x.await.1 == 1 && !s.io.cmds.any fun c => c.assoc == x.await.2 && c.byReset) || (x.await.1 == 2 && !s.io.cmds.any (·.byReset))
  (s.mbx.slots.filter fun x => x.ready.isNone && ended x).foldl (fun st x => answerSlot x.path x.slot 0 [] st) s

/-- A drive write that a mailbox waits for has ended (0410h, 0412h). -/
def slotDc (dc : Nat) (ok : Bool) (s : State) : State :=
  match s.mbx.slots.find? fun x => x.ready.isNone && x.dcs.contains dc with
  | none => s
  | some x =>
    let rest := x.dcs.filter (· != dc)
    if !ok then answerSlot x.path x.slot 0x010F (bytesLE 4 0xFFFFFFFF) s
    else if rest.isEmpty then answerSlot x.path x.slot 0 [] s
    else s.onMbx fun m => { m with slots := updWhere (fun y => y.path == x.path && y.slot == x.slot) (fun y => { y with dcs := rest }) m.slots }

/-! ### The final status of a command -/

/-- Rows completed: the floor rises past every completed row (R76). -/
def floorUp : Nat → Nat → List Nat → Nat × List Nat
  | 0, f, l => (f, l)
  | n + 1, f, l => if l.contains f then floorUp n (f + 1) (l.filter (· != f)) else (f, l)

/-- The unit has completed a row (R76). -/
def rowDone (r : Nat) (a : Assoc) : Assoc :=
  let l := if a.floor ≤ r && !a.doneRows.contains r then r :: a.doneRows else a.doneRows
  let p := floorUp (l.length + 1) a.floor l
  { a with floor := p.1, doneRows := p.2 }

/-- The volume of a namespace ID, if any (R18). -/
def nsVol (nsid : Nat) : Option Nat := if 1 ≤ nsid && nsid ≤ 1024 then some (nsid - 1) else none

/-- Block size of a volume in the data stream, protection information included when it travels (R119, R120). -/
def Volume.bs (v : Volume) : Nat := if v.b512 then 512 else 4096

/-- Association statistics of a completion (R144). -/
def statDone (c : Cmd) (sc bytes : Nat) (now : Nat) (st : AStats) : AStats :=
  let io := c.sqe.qid != 0
  let rd := io && c.sqe.opcode == 0x02
  let wr := io && (c.sqe.opcode == 0x01 || c.sqe.opcode == 0x08)
  { st with
    completed := st.completed + 1
    reads := st.reads + (if rd then 1 else 0)
    writes := st.writes + (if wr then 1 else 0)
    bytesRead := st.bytesRead + (if rd && sc == scOk then bytes else 0)
    bytesWritten := st.bytesWritten + (if io && c.sqe.opcode == 0x01 && sc == scOk then bytes else 0)
    abortsDone := st.abortsDone + (if !io && c.sqe.opcode == 0x08 && bit c.dw0 1 then 1 else 0)
    tagsExh := st.tagsExh + (if sc == scTags then 1 else 0)
    hist := st.hist.modify (histBin ((now - c.t) / us)) (· + 1) }

/-- A new entry of log page 01h, 64 newest kept (R139). -/
def logError (c : Cmd) (sc : Nat) (s : State) : State :=
  let e : ErrEnt := { assoc := c.assoc, row := c.row, sc := sc, vol := (nsVol c.sqe.nsid).getD 65535 }
  s.onAudit fun a => { a with errLog := (e :: a.errLog).take 64 }

/-- The bytes that a command moves by its block count (R119). -/
def cmdBytes (c : Cmd) (s : State) : Nat :=
  match nsVol c.sqe.nsid with
  | none => 0
  | some v => match s.vol? v with
    | none => 0
    | some w => (bits c.sqe.cdw12 15 0 + 1) * w.bs

/-- The RESP of a row leaves, or the response capsule of an NVMe/TCP command (R108, R160). -/
def sendResp (a : Assoc) (r : Resp) (s : State) : State :=
  if a.tcp then enqueue (s.netPort a) (s.settingN 0x028D) 80 (.tcpResp r) s else sendSeq a.id 5 (.resp r) s

/-- The entry of an association is freed: its ID rests for 60 s, its queued packets leave their queues and count as
released, its windows and zone end with it (R46, R106, R325). -/
def freeAssoc (id : Nat) (s : State) : State :=
  let mine := fun (q : QItem) => match q.msg with
    | .vdtRef x _ => x == id
    | _ => false
  let s1 := (s.sw.egress.filter mine).foldl (fun st q => updPort q.port q.cls (fun r => { r with released := r.released + 1 }) st) s
  let s2 := (s1.onSw fun w => { w with egress := w.egress.filter fun q => !mine q, cached := w.cached.filter (· != id) }).onIo fun i =>
    { i with assocs := i.assocs.filter (·.id != id), freed := (id, s.now) :: i.freed.filter fun f => decide (s.now < f.2 + 60 * sec) }
  -- the removal of a principal ends with the last association that it authenticated (R100)
  match (s.assoc? id).bind (·.removing) with
  | some op => if s2.io.assocs.any fun a => a.removing == some op then s2 else endOper op 1 0 s2
  | none => s2

/-- An association that is being released is freed once none of its commands is outstanding (R100). -/
def freeIfDone (id : Nat) (s : State) : State :=
  match s.assoc? id with
  | none => s
  | some a => if a.releasing && !s.io.cmds.any fun c => c.assoc == id then freeAssoc id s else s

/-- The array whose commands a command belongs to: that of its volume, FFh for an admin command (R277). -/
def State.cmdArr (c : Cmd) (s : State) : Nat :=
  if c.sqe.qid == 0 then 255
  else match nsVol c.sqe.nsid with
    | none => 255
    | some v => match s.vol? v with
      | none => 255
      | some w => w.arr

/-- This unit decides what becomes of a command (R258, R281, R284): alone, of every command; in a pair, of those of its arrays and of the
admin commands of the associations it answers for; as the joiner of a cast-on, of none. -/
def State.decides (c : Cmd) (s : State) : Bool :=
  if s.cmdArr c == 255 then !(s.inStep || s.md.mode == .castOn) || (s.assoc? c.assoc).any (·.responding)
  else !(s.inStep || s.md.mode == .castOn) || (s.lease (s.cmdArr c)).acting

/-- The final status of an outstanding command: its tag or shadow record is freed, its row completed, statistics and log
page 01h updated, and its RESP sent unless the command ends without one (R108, R150). A suspended command ends when its
processor resumes (R501). -/
def finish (id row sc dw0 dw1 : Nat) (more : Bool) (s : State) : State :=
  match s.cmd? id row, s.assoc? id with
  | some c, some a =>
    if s.suspended c then updCmd id row (fun k => { k with st := .waitStitch, waitStitch := none, sc := sc, dw0 := dw0, dw1 := dw1, more := more }) s
    else
    let s1 := if loggedStatus sc then logError c sc s else s
    let moreB := more || loggedStatus sc
    let ab := sc == scAborted || sc == scReset
    let s2 := s1.onAudit fun au => if ab then { au with abortsDone := au.abortsDone + 1 } else au
    let c1 := { c with dw0 := dw0, dw1 := dw1 }
    let s3 := updAssoc id (fun x => rowDone row { x with stats := statDone c1 sc (cmdBytes c s) s.now x.stats })
      (s2.onIo fun i => { i with cmds := i.cmds.filter fun k => !(k.assoc == id && k.row == row)
                                 st := i.st.map fun (x : SelfTest) => { x with idleAt := some s.now } })
    let r : Resp := { assoc := id, row := row, dw0 := dw0, dw1 := dw1, sqHead := c.sqHead, qid := c.sqe.qid,
                      cid := c.sqe.cid, sc := sc, more := moreB, dnr := dnrOf sc }
    -- an Asynchronous Event Request is released by an event, not by a stitch
    let num := if c.sqe.qid == 0 && c.sqe.opcode == 0x0C then 0 else c.waitStitch.getD (c.arrival.getD c.relStitch)
    let s4 := s3.onPair fun p =>
      if !s.inStep || num == 0 then p
      else if c.arrival.isSome then { p with digAcc := p.digAcc ++ [(num, r)] }
      else { p with digAccRx := p.digAccRx ++ [(num, r)] }
    let mineW := if s.cmdArr c == 255 then a.responding else (s.lease (s.cmdArr c)).acting
    let s5 := if s4.inWarm && mineW then sendYarn 7 64 (.warm id row sc dw0 dw1) s4 else s4
    settleSlots (if c.noResp then freeIfDone id s5 else sendResp a r s5)
  | _, _ => s

/-- A command whose final status is decided while the record of it must first reach the partner: its RESP leaves when
the stitch of that number is acknowledged (R286). -/
def finishAfter (id row stitch sc dw0 dw1 : Nat) (more : Bool) (s : State) : State :=
  updCmd id row (fun c => { c with st := .waitStitch, waitStitch := some stitch, sc := sc, dw0 := dw0, dw1 := dw1, more := more }) s

/-- A command whose completion its ARRIVAL alone records is finished: at once when that stitch has been acknowledged, or
when the unit issued none (R286). -/
def finishAdm (c : Cmd) (sc dw0 dw1 : Nat) (s : State) : State :=
  match c.arrival with
  | some n => if s.pair.stitches.any fun x => x.num == n then finishAfter c.assoc c.row n sc dw0 dw1 false s
    else finish c.assoc c.row sc dw0 dw1 false s
  | none => finish c.assoc c.row sc dw0 dw1 false s

/-- Record the completion of a command in a stitch and finish it: at once while the array has no shadow or the unit does
not issue stitches, otherwise when the stitch is acknowledged (R286). -/
def finishVia (kind : Nat) (data : List Nat) (c : Cmd) (sc dw0 dw1 : Nat) (more : Bool) (s : State) : State :=
  let n := s.pair.txStitch
  let s1 := issueStitch kind (s.cmdArr c) c.assoc c.row data s
  if s.inStep && c.arrival.isSome then finishAfter c.assoc c.row n sc dw0 dw1 more s1
  else finish c.assoc c.row sc dw0 dw1 more s1

/-! ### Asynchronous events -/

/-- The bits of feature 0Bh that enable an event, by type and information; vendor events have none (R127; PRESUMED places,
log 14). -/
def eventBit (etype info : Nat) : Option Nat :=
  match etype, info with
  | 1, 1 => some 1
  | 1, 2 => some 0
  | 2, 0 => some 8
  | 2, 1 => some 9
  | 2, 3 => some 11
  | _, _ => none

/-- A feature value of an association, or its default (R127). -/
def featVal (fid : Nat) (a : Assoc) : Nat :=
  (assocGet fid a.feats).getD (if fid == 0x06 then 1 else if fid == 0x0B then 0xB03 else 0)

/-- The event is enabled (R145). -/
def eventOn (etype info : Nat) (a : Assoc) : Bool :=
  match eventBit etype info with
  | some b => bit (featVal 0x0B a) b
  | none => true

/-- The oldest outstanding Asynchronous Event Request of an association. -/
def State.aer? (id : Nat) (s : State) : Option Cmd :=
  s.io.cmds.find? fun c => c.assoc == id && c.sqe.qid == 0 && c.sqe.opcode == 0x0C && c.st == .waiting

/-- Raise an event toward one association: a request completes with it, or it waits, one per type (R145, R147). -/
def raiseEvent (id etype info page : Nat) (s : State) : State :=
  match s.assoc? id with
  | none => s
  | some a =>
    if !eventOn etype info a || a.unarmed.contains (etype, page) then s
    else
      let mask := fun (x : Assoc) => if page == 0 then x else { x with unarmed := (etype, page) :: x.unarmed }
      match s.aer? id with
      | some c => finishAdm c scOk (etype + info * 256 + page * 65536) 0 (updAssoc id mask s)
      | none =>
        if a.events.any fun e => e.etype == etype then s
        else updAssoc id (fun x => mask { x with events := x.events ++ [{ etype := etype, info := info, page := page }] }) s

/-- Raise an event toward every association that satisfies p (R147). -/
def raiseAll (p : Assoc → Bool) (etype info page : Nat) (s : State) : State :=
  ((s.io.assocs.filter fun a => p a && a.st != .halfOpen).map (·.id)).foldl (fun st id => raiseEvent id etype info page st) s

/-! ### Violations -/

/-- A violation detected or received is counted and audited, at most 1,000 entries per interval, and none but the
summaries while the reserve of the log is in use (R104, R458). -/
def recordViolation (id reason key row : Nat) (s : State) : State :=
  let s1 := updAssoc id (fun a => { a with stats := { a.stats with violations := a.stats.violations + 1,
                                                                   violBy := a.stats.violBy.modify (reason - 1) (· + 1) } }) s
  if s.audit.violN < 1000 && s.auditState == 0 then
    let ctx := match s.assoc? id with
      | some a => a.ctx
      | none => 0
    auditPush { kind := 6, origin := 7, obj := ssAddr 2 ctx 2, old := key, new := row, detail := reason }
      (s1.onAudit fun a => { a with violN := a.violN + 1 })
  else s1.onAudit fun a => { a with violOut := a.violOut + 1 }

/-- The unit refuses an access: VIOLATION to the host and its record (R102, R104). -/
def violate (id reason offType len offSeq key off row : Nat) (s : State) : State :=
  recordViolation id reason key row (sendSeq id 5 (.violation reason offType len offSeq key off row) s)

end Sys2Proof.Machine
end

