-- ==== Sys2Proof/Machine/Operands.lean ====
section
/-! DEFINITION. The operands of a host command: packet headers and their checks on arrival (R69), the fields of a
submission entry (R107), the data a command moves, and the acceptance checks of R526. -/

namespace Sys2Proof

/-! ### Fields of a submission entry -/

/-- First LBA (R118). -/
def Sqe.slba (q : Sqe) : Nat := q.cdw10 % 2 ^ 32 + q.cdw11 % 2 ^ 32 * 2 ^ 32
/-- Blocks of the range, NLB + 1 (R118). -/
def Sqe.nlb (q : Sqe) : Nat := bits q.cdw12 15 0 + 1
/-- PRACT: the module inserts and strips protection information (R120). -/
def Sqe.pract (q : Sqe) : Bool := bit q.cdw12 29
/-- PRCHK guard check (R120). -/
def Sqe.chkGuard (q : Sqe) : Bool := bit q.cdw12 28
/-- PRCHK application tag check (R120). -/
def Sqe.chkApp (q : Sqe) : Bool := bit q.cdw12 27
/-- PRCHK reference tag check (R120). -/
def Sqe.chkRef (q : Sqe) : Bool := bit q.cdw12 26
/-- Force unit access (R132). -/
def Sqe.fua (q : Sqe) : Bool := bit q.cdw12 30
/-- Limited retry (R121). -/
def Sqe.lr (q : Sqe) : Bool := bit q.cdw12 31
/-- Deallocate of Write Zeroes (R122). -/
def Sqe.deac (q : Sqe) : Bool := bit q.cdw12 25
/-- The key of a window or zone command (R82). -/
def Sqe.key (q : Sqe) : Nat := q.cdw10 % 2 ^ 32 + q.cdw11 % 2 ^ 32 * 2 ^ 32
/-- The length of a Window Register (R82). -/
def Sqe.wlen (q : Sqe) : Nat := q.cdw12 % 2 ^ 32 + q.cdw13 % 2 ^ 32 * 2 ^ 32
/-- Bytes that a Get Log Page asks for: (NUMD + 1) x 4 (R88, R116). -/
def Sqe.logLen (q : Sqe) : Nat := (bits q.cdw10 31 16 + bits q.cdw11 15 0 * 65536 + 1) * 4
/-- Offset of a Get Log Page (R116). -/
def Sqe.logOff (q : Sqe) : Nat := q.cdw12 % 2 ^ 32 + q.cdw13 % 2 ^ 32 * 2 ^ 32
/-- Log page identifier (R116). -/
def Sqe.lid (q : Sqe) : Nat := bits q.cdw10 7 0
/-- Feature identifier (R116). -/
def Sqe.fid (q : Sqe) : Nat := bits q.cdw10 7 0

end Sys2Proof

namespace Sys2Proof.Machine

/-- The command is an admin command (R107). -/
def Cmd.admin (c : Cmd) : Bool := c.sqe.qid == 0
/-- The command is a Write (R118). -/
def Cmd.isWrite (c : Cmd) : Bool := c.sqe.qid != 0 && c.sqe.opcode == 0x01
/-- The command is a Read (R118). -/
def Cmd.isRead (c : Cmd) : Bool := c.sqe.qid != 0 && c.sqe.opcode == 0x02

/-- The volume that a command names. -/
def State.cmdVol (c : Cmd) (s : State) : Option Volume := (nsVol c.sqe.nsid).bind fun v => s.vol? v

/-- Bytes of one block in the data stream of a command: its protection information travels unless PRACT is set (R120). -/
def streamBlk (v : Volume) (q : Sqe) : Nat := v.bs + (if v.prot && !q.pract then 16 else 0)

/-- The transfer length of a Read or Write (R119). -/
def transferLen (v : Volume) (q : Sqe) : Nat := q.nlb * streamBlk v q

/-- The checked length of a command that places data in a host window, none for other commands (R88). -/
def State.placedLen (c : Cmd) (s : State) : Option Nat :=
  if c.admin then
    match c.sqe.opcode with
    | 0x02 => some c.sqe.logLen
    | 0x06 => some 4096
    | 0xC1 => some 4096
    | _ => none
  else if c.sqe.opcode == 0x02 then (s.cmdVol c).map fun v => transferLen v c.sqe
  else none

/-- The length of log page `lid` (R139 to R144), none for a page that is not supported. -/
def State.logSize (lid : Nat) (_s : State) : Option Nat :=
  match lid with
  | 0x01 => some (64 * 64)
  | 0x02 => some 512
  | 0x03 => some 512
  | 0x05 => some 4096
  | 0x06 => some 564
  | 0xC0 => some 512
  | 0xC1 => some (16 + 48 * 256)
  | 0xC2 => some (16 + 24 * 1024)
  | 0xC3 => some 256
  | _ => none

/-- The features of R127. -/
def features : List Nat := [0x01, 0x04, 0x05, 0x06, 0x07, 0x08, 0x0B, 0x0F]

/-- The admin opcodes of R116; NVMe/TCP has none of the vendor ones (R159). -/
def adminOpcode (tcp : Bool) (op : Nat) : Bool :=
  [0x02, 0x06, 0x08, 0x09, 0x0A, 0x0C, 0x14, 0x18].contains op || (!tcp && [0xC1, 0xD0, 0xD1, 0xD2, 0xD3].contains op)

/-- The I/O opcodes of R118. -/
def ioOpcode (op : Nat) : Bool := [0x00, 0x01, 0x02, 0x08, 0x09, 0x0C].contains op

/-- Conditions in order: the first that is false decides the status. -/
def firstFail : List (Bool × Nat) → Option Nat
  | [] => none
  | (ok, sc) :: l => if ok then firstFail l else some sc

/-! ### Acceptance checks (R526) -/

/-- The principal of an association, as the principal table holds it. -/
def State.principal? (i : Nat) (s : State) : Option Principal := s.cfg.principals.find? (·.idx == i)

/-- The principal holds the administrator role (R124, R448). -/
def State.isAdmin (i : Nat) (s : State) : Bool :=
  match s.principal? i with
  | some p => bit p.roles 2
  | none => false

/-- Outstanding commands of an association's queue other than this row. -/
def State.onQueue (id q row : Nat) (s : State) : List Cmd :=
  s.io.cmds.filter fun k => k.assoc == id && k.sqe.qid == q && k.row != row

/-- Check 7 for admin commands: the conditions that each command's own rules check at acceptance (R526). -/
def adminFieldCheck (a : Assoc) (c : Cmd) (len : Nat) (s : State) : Option Nat :=
  let q := c.sqe
  match q.opcode with
  | 0x02 => firstFail [((s.logSize q.lid).isSome, scField), (q.logOff % 4 == 0, scField),
      (decide (q.logOff < (s.logSize q.lid).getD 0), scField)]
  | 0x06 => firstFail [([0, 1, 2, 3, 5].contains (bits q.cdw10 7 0), scField),
      (bits q.cdw10 7 0 != 5 || bits q.cdw11 31 24 == 0, scField)]
  | 0x08 => firstFail [(decide (((s.onQueue a.id 0 c.row).filter fun k => k.sqe.opcode == 0x08).length < 16), scAbortLimit)]
  | 0x09 => firstFail [(!bit q.cdw10 31, scNotSaveable), (features.contains q.fid, scField),
      (q.fid != 0x05 || !bit q.cdw11 16, scField),
      (q.fid != 0x0F || q.cdw11 == 0 || (decide (1000 ≤ q.cdw11) && decide (q.cdw11 ≤ 600000)), scField)]
  | 0x0A => firstFail [(decide (bits q.cdw10 10 8 != 2 && bits q.cdw10 10 8 != 3), scNotSaveable),
      (decide (bits q.cdw10 10 8 < 2), scField), (features.contains q.fid, scField)]
  | 0x0C => firstFail [(decide (((s.onQueue a.id 0 c.row).filter fun k => k.sqe.opcode == 0x0C).length < 4), scAerLimit)]
  | 0x14 => firstFail [([1, 2, 15].contains (bits q.cdw10 3 0), scField),
      (q.nsid == 0 || q.nsid == 0xFFFFFFFF || (s.cmdVol c).isSome, scField)]
  | 0xC1 => firstFail [(c.frame.isSome && decide (64 < len) && decide (len ≤ 64 + 4064), scField)]
  | 0xD1 => firstFail [(q.cdw12 == 0 && q.cdw13 == 0, scField)]
  | 0xD2 => firstFail [(decide (1 ≤ q.cdw12) && decide (q.cdw12 ≤ 16) && q.cdw13 == 0 && q.key != 0, scField)]
  | 0xD3 => firstFail [(q.cdw12 == 0 && q.cdw13 == 0, scField)]
  | _ => none

/-- The transfer lengths that a Read or Write can have (R120): that of its volume, or, where it names no volume, that of
each block size and protection a volume could have (DEDUCED, log 28: check 7 comes before check 8, R526). -/
def State.possibleXfers (c : Cmd) (s : State) : List Nat :=
  match s.cmdVol c with
  | some v => [transferLen v c.sqe]
  | none => [512, 4096, 528, 4112].map (c.sqe.nlb * ·)

/-- Check 7 for I/O commands: transfer size, range count and inline length (R70, R119). An NVMe/TCP capsule carries its
data as its own transport does (R159), so its inline length is not checked here. -/
def ioFieldCheck (a : Assoc) (c : Cmd) (len : Nat) (s : State) : Option Nat :=
  let q := c.sqe
  let xfers := (s.possibleXfers c).filter fun x => decide (x ≤ 2097152)
  match q.opcode with
  | 0x01 => firstFail [(!xfers.isEmpty, scField), (a.tcp || !c.inl || xfers.any fun x => len == 64 + x, scField)]
  | 0x02 => firstFail [(!xfers.isEmpty, scField)]
  | 0x09 => firstFail [(decide (64 + 16 * (bits q.cdw10 7 0 + 1) ≤ len) && decide (bits q.cdw10 7 0 + 1 ≤ c.ranges.length), scField)]
  | _ => none

/-- The ranges of a command lie within the volume (R118). -/
def rangeOk (v : Volume) (c : Cmd) : Bool :=
  let blocks := v.size / v.bs
  match c.sqe.opcode with
  | 0x00 => true
  | 0x09 => (c.ranges.take (bits c.sqe.cdw10 7 0 + 1)).all fun r => decide (r.1 + r.2 ≤ blocks)
  | _ => decide (c.sqe.slba + c.sqe.nlb ≤ blocks)

/-- Why an access that places data in a host window is refused, none when it passes (R88, R102). -/
def windowReason (a : Assoc) (key off len : Nat) : Option Nat :=
  match a.windows.find? (·.key == key) with
  | some w => if w.closing then some 3 else if off + len ≤ w.len then none else some 1
  | none => if a.revoked.contains key then some 2 else some 4

/-- Why an access to the landing zone is refused, none when it passes (R91, R102). -/
def zoneReason (a : Assoc) (key off len : Nat) : Option Nat :=
  match a.zone with
  | some z =>
    if z.key == key then
      (if z.closing then some 3 else if off + len ≤ z.mib * 1048576 then none else some 5)
    else if a.revoked.contains key then some 2 else some 4
  | none => if a.revoked.contains key then some 2 else some 4

/-- A write whose data come from the landing zone (R70). -/
def zoneWrite (a : Assoc) (c : Cmd) : Bool := c.isWrite && !c.inl && !a.tcp

/-- Check 10: why the command's window or zone range is refused (R88, R91). -/
def accessReason (a : Assoc) (c : Cmd) (s : State) : Option Nat :=
  if a.tcp then none
  else match s.placedLen c with
    | some n => windowReason a c.key c.off n
    | none => if zoneWrite a c then zoneReason a c.key c.off ((s.cmdVol c).elim 0 fun v => transferLen v c.sqe) else none

/-- Check 11: another write of the association that has not completed uses part of the zone range (R91). -/
def zoneBusy (a : Assoc) (c : Cmd) (s : State) : Bool :=
  zoneWrite a c && s.io.cmds.any fun k =>
    k.assoc == a.id && k.row != c.row && k.tag && zoneWrite a k && k.key == c.key
      && decide (k.off < c.off + ((s.cmdVol c).elim 0 fun v => transferLen v c.sqe))
      && decide (c.off < k.off + ((s.cmdVol k).elim 0 fun v => transferLen v k.sqe))

/-- Check 12: the deferred error that the command carries, as its sequence in log page C1h (R138). -/
def carriedError (a : Assoc) (c : Cmd) : Option Nat :=
  if c.admin then none
  else (a.deferred.find? fun d => c.sqe.nsid == d.1 + 1 || c.sqe.nsid == 0xFFFFFFFF).map (·.2)

/-- Tags that an association's commands hold. -/
def State.tagsOf (id : Nat) (s : State) : Nat := (s.io.cmds.filter fun k => k.assoc == id && k.tag).length

/-- Check 13: a tag is free within the association's limit, from its guaranteed 8 or from the shared rest (R114). -/
def State.tagFree (a : Assoc) (s : State) : Bool :=
  let live := s.io.assocs.filter fun x => x.st != .halfOpen
  let shared := (live.map fun x => s.tagsOf x.id - 8).sum
  let mine := s.tagsOf a.id
  decide (mine < a.tagLimit) && (decide (mine < 8) || decide (shared < 65536 - 8 * live.length))

/-- The chunks, 64 KiB each, that a range of a volume touches (R210). -/
def chunksOf (v : Volume) (lba n : Nat) : List Nat :=
  if n == 0 then []
  else
    let f := lba * v.bs / 65536
    let l := (lba + n) * v.bs - 1
    (List.range (l / 65536 + 1 - f)).map (· + f)

/-- Chunks of a packed volume that hold dirty data not yet committed (R209). -/
def State.dirtyChunks (v : Volume) (s : State) : List Nat :=
  ((s.io.wb.filter fun b => b.vol == v.no && b.dirty).map fun b => b.lba * v.bs / 65536).eraseDups

/-- Free payload granules of a packed volume (R209). -/
def State.freeGranules (v : Volume) (s : State) : Nat :=
  match s.arr? v.arr with
  | none => 0
  | some a =>
    ((a.ext.filter fun e => e.owner == v.no && e.role == 3 && (e.skein == .openHost || e.skein == .openFrog)).map
        fun e => 1044480 - e.fill).sum
      + 1044479 * (a.ext.filter fun e => e.owner == v.no && e.role == 4).length

/-- Check 14: admission of a write to a packed volume (R209). -/
def packedAdmit (c : Cmd) (s : State) : Bool :=
  match s.cmdVol c with
  | none => true
  | some v =>
    if !v.packed || !(c.sqe.opcode == 0x01 || c.sqe.opcode == 0x08) then true
    else
      let chunks := (s.dirtyChunks v ++ chunksOf v c.sqe.slba c.sqe.nlb).eraseDups.length
      decide (16 * chunks + 1044479 ≤ s.freeGranules v)

/-- What the checks 2 to 14 of R526 answer: passed, failed with a status, or refused with a VIOLATION of a reason. -/
inductive Verdict where
  | pass
  | fail (sc : Nat)
  | violation (reason : Nat)
  | carry (seq : Nat)
  deriving DecidableEq, Repr

/-- Checks 2 to 14 of R526, in order; `len` is the payload length of the CMD. -/
def acceptCheck (a : Assoc) (c : Cmd) (len : Nat) (s : State) : Verdict :=
  let q := c.sqe
  let others := s.onQueue a.id q.qid c.row
  let early := firstFail
    [(decide (q.qid ≤ a.ioQueues) && q.fuse == 0, scField),
     (decide (others.length < if q.qid == 0 then 64 else 1024), scQueueDepth),
     (!others.any fun k => k.sqe.cid == q.cid, scCid),
     (if c.admin then adminOpcode a.tcp q.opcode else ioOpcode q.opcode, scOpcode),
     (!(c.admin && q.opcode == 0xC1) || s.isAdmin a.principal, scRole)]
  match early with
  | some sc => .fail sc
  | none =>
    match if c.admin then adminFieldCheck a c len s else ioFieldCheck a c len s with
    | some sc => .fail sc
    | none =>
      let cns := bits q.cdw10 7 0
      let nsBad :=
        if c.admin then q.opcode == 0x06 && (cns == 0 || cns == 3 || cns == 5) && (q.nsid == 0 || decide (1024 < q.nsid))
        else (s.cmdVol c).isNone && !(q.opcode == 0x00 && q.nsid == 0xFFFFFFFF)
      if nsBad then .fail scNamespace
      else if !c.admin && !((s.cmdVol c).elim true fun v => rangeOk v c) then .fail scLbaRange
      else match accessReason a c s with
        | some r => .violation r
        | none =>
          if zoneBusy a c s then .fail scZoneBusy
          else match carriedError a c with
            | some e => if !c.admin && q.opcode == 0x00 then .pass else .carry e
            | none =>
              if !s.tagFree a then .fail scTags
              else if !packedAdmit c s then .fail scInternal
              else .pass

/-! ### Packets on arrival (R69) -/

/-- A host packet's class after R75: the class permitted for its type, else the lowest permitted. -/
def permittedClass (ty cls : Nat) : Nat :=
  if ty == 1 || ty == 2 then (if 2 ≤ cls && cls ≤ 4 then cls else 2) else 5

/-- One RTO sample (R65). -/
def rtoSample (r : Nat) (a : Assoc) : Assoc :=
  let p : Nat × Nat := match a.srtt with
    | none => (r, r / 2)
    | some v => ((7 * v + r) / 8, (3 * a.rttvar + (if r ≤ v then v - r else r - v)) / 4)
  { a with srtt := some p.1, rttvar := p.2, rto := max 20000 (min 10000000 (p.1 + 4 * p.2)) }

/-- A sequence is acknowledged by a cumulative number and a bitmap (R41). -/
def ackedBy (cum sack seq : Nat) : Bool :=
  decide (seq ≤ cum) || (decide (cum + 2 ≤ seq) && decide (seq < cum + 66) && bit sack (seq - cum - 2))

/-- Packets of the module that the acknowledgement fields acknowledge leave the window; first sendings give RTO samples
(R63, R65, R310). -/
def ackFields (id cum sack : Nat) (s : State) : State :=
  match s.assoc? id with
  | none => s
  | some a =>
    let got := a.unacked.filter fun p => ackedBy cum sack p.seq
    let f := fun (x : Assoc) (p : TxPkt) =>
      match p.attempt, p.sentAt with
      | 0, some t => rtoSample (s.now - t) x
      | _, _ => x
    let s1 := updAssoc id (fun x => { got.foldl f x with unacked := x.unacked.filter fun p => !ackedBy cum sack p.seq }) s
    admitWaiting 1024 id s1

/-- The answer of a host FLUSH is due: every packet up to the covered sequence has been received (R74). -/
def answerFlushes (id : Nat) (s : State) : State :=
  match s.assoc? id with
  | none => s
  | some a =>
    (a.hostFlushes.filter fun f => decide (f.2 ≤ a.rxCum)).foldl (fun st f =>
      let bad := match st.assoc? id with
        | some x => x.refusedRx.any fun q => decide (q ≤ f.2)
        | none => false
      sendSeq id 5 (.flushAck f.1 (if bad then 1 else 0))
        (updAssoc id (fun x => { x with hostFlushes := x.hostFlushes.filter (· != f),
                                        refusedRx := x.refusedRx.filter fun q => !decide (q ≤ f.2) }) st)) s

/-- A packet is received: acknowledgement state, ACK at once when asked for or when enough packets are new, key phase
(R59, R61, R63, R64). ACK and NAK carry no sequence. -/
def receive (h : Hdr) (ty : Nat) (s : State) : State :=
  let id := h.assoc
  let s1 := updAssoc id (fun a =>
    let b := { a with lastAct := s.now, net := h.port }
    if h.phase == (a.rxPhase + 1) % 256 && h.phase != a.rxPhase then
      { b with rxPhase := h.phase, rxPrev := some a.rxPhase, rxPrevKey := true, rxPrevUntil := s.now + sec }
    else b) s
  let s2 := if ty == 5 || ty == 6 then s1 else updAssoc id (fun a =>
    let p := floorUp (a.rxSet.length + 2) (a.rxCum + 1) (h.seq :: a.rxSet)
    { a with rxCum := p.1 - 1, rxSet := p.2, rxNew := a.rxNew + 1
             rxOldest := some (a.rxOldest.getD (s.now + a.ackDelay))
             gapSince := if p.2.isEmpty then none else some (a.gapSince.getD s.now)
             lastNak := if p.2.isEmpty then none else a.lastNak }) s1
  let s3 := answerFlushes id (ackFields id h.cum h.sack s2)
  match s3.assoc? id with
  | none => s3
  | some a => if ty != 5 && ty != 6 && (h.acknow || decide (a.pktsPerAck ≤ a.rxNew)) then sendAck id s3 else s3

/-- What the checks of R69 answer: the packet goes on, or it stops in the given state. -/
inductive Arrival where
  | go (a : Assoc)
  | stop (s : State)

/-- The checks of a KEYS-3 under the phase-0 keys of its handshake: phase, tag and sequence 1 (R69, R336), none when it passes. -/
def keys3Stop (a : Assoc) (h : Hdr) (s : State) : Option State :=
  if h.phase != 0 then some (sendNak a.id 3 [] (updParser h.port (fun p => { p with badPhase := p.badPhase + 1 }) s))
  else if !h.gcmOk then some (updParser h.port (fun p => { p with badTag := p.badTag + 1 }) s)
  else if h.seq != 1 then some (updParser h.port (fun p => { p with aboveWin := p.aboveWin + 1 }) s)
  else none

/-- The checks of R69 from the association check on, for a packet of a type other than HELLO; a packet that stops leaves
its counter and its NAK or ACK. -/
def arrivalCheck (h : Hdr) (ty : Nat) (s : State) : Arrival :=
  if s.holdUp then .stop s
  else if !s.serves then
    -- BOOT, MAINTENANCE, ISOLATED and the start of CAST-ON answer with NAK reason 2; POWER-STANDBY and SAFE have their links down (R400)
    match s.md.mode with
    | .boot => .stop (sendNakClear h.port h.src 2 s)
    | .maintenance => .stop (sendNakClear h.port h.src 2 s)
    | .isolated => .stop (sendNakClear h.port h.src 2 s)
    | .castOn => .stop (sendNakClear h.port h.src 2 s)
    | _ => .stop s
  else match s.io.assocs.find? fun a => a.id == h.assoc && a.src == h.src && !a.tcp with
    | none => .stop (sendNakClear h.port h.src 2 (updParser h.port (fun p => { p with noAssoc := p.noAssoc + 1 }) s))
    | some a =>
      let drop := fun (f : Parser → Parser) => updParser h.port f s
      if a.st == .suspended then
        if a.resuming && ty == 11 then match keys3Stop a h s with
          | some t => .stop t
          | none => .go a
        else .stop s
      else if a.st == .halfOpen && ty != 11 && ty != 5 then .stop (drop fun p => { p with halfOpenD := p.halfOpenD + 1 })
      else
        let next := (a.rxPhase + 1) % 256
        if h.phase != a.rxPhase && a.rxPrev != some h.phase && h.phase != next then
          .stop (sendNak a.id 3 [] (drop fun p => { p with badPhase := p.badPhase + 1 }))
        else if !h.gcmOk || (a.rxPrev == some h.phase && !a.rxPrevKey) then
          -- a tag under a key that is discarded cannot verify (DEDUCED, log 30)
          .stop (drop fun p => { p with badTag := p.badTag + 1 })
        else if ty == 5 || ty == 6 then .go a
        else if h.seq ≤ a.rxCum || a.rxSet.contains h.seq then
          .stop (sendAck a.id (updAssoc a.id (fun x => { x with stats := { x.stats with dups := x.stats.dups + 1 } })
            (sinkCells a.id h.seq s)))
        else if a.rxCum + 1024 < h.seq then .stop (sinkCells a.id h.seq (drop fun p => { p with aboveWin := p.aboveWin + 1 }))
        else .go a

/-- A packet of an association that passes the checks is received, and then f gives its effect (R62). -/
def onArrival (h : Hdr) (ty : Nat) (f : Assoc → State → State) (s : State) : State :=
  match arrivalCheck h ty s with
  | .stop t => t
  | .go a =>
    let s1 := if h.cls == permittedClass ty h.cls then s
      else updParser h.port (fun p => { p with badClass := p.badClass + 1 }) s
    f a (sinkCells a.id h.seq (receive h ty s1))

end Sys2Proof.Machine
end

