-- ==== Sys2Proof/Machine/Geometry.lean ====
section
/-! DEFINITION. Rows, strips, extents and parity of an array (R171 to R178, R193). -/

namespace Sys2Proof.Machine

/-- Bytes of an extent (R172). -/
def extentBytes : Nat := 4294967296

/-- Members of an array. -/
def Arr.n (a : Arr) : Nat := a.pos.length

/-- Data strips per row of a layout with n members (R169). -/
def dataStrips (lay : Layout) (n : Nat) : Nat := if parityStrips lay == 0 then n / copies lay else n - parityStrips lay

/-- Data strips per row of an array (R169). -/
def Arr.d (a : Arr) : Nat := dataStrips a.layout a.n

/-- Row width W (R171). -/
def Arr.width (a : Arr) : Nat := a.d * a.strip

/-- Rows that an extent spans (R173). -/
def extentRows (w : Nat) : Nat := ceilDiv extentBytes w

/-- Extents of an array of a member size (R173). -/
def extentCount (memberSize strip w : Nat) : Nat := (memberSize - extentBytes) / strip / extentRows w

/-- Position of parity strip j of row r (R172). -/
def parityPos (p n r j : Nat) : Nat := ((n - p + n - r % n) % n + j) % n

/-- Position of data strip i of row r in a parity layout (R172). -/
def dataPos (p n r i : Nat) : Nat := ((n - p + n - r % n) % n + p + i) % n

/-- The positions that hold data strip i of row r: one in a parity layout, every copy in a mirror layout (R172). -/
def Arr.stripPos (a : Arr) (r i : Nat) : List Nat :=
  if parityStrips a.layout == 0 then mirrorSet a.layout a.n i else [dataPos (parityStrips a.layout) a.n r i]

/-- Drive LBA of byte o of a row's strip (R174). -/
def driveLba (strip r o : Nat) : Nat := 1048576 + (r * strip + o) / 4096

/-- The extent that holds part k of a direct volume (R174, R244). -/
def Arr.extOf (a : Arr) (v k : Nat) : Option Nat := a.ext.findIdx? fun e => e.owner == v && e.role == 1 && e.index == k

/-- Where byte b of a direct volume lies: row, data strip, byte in the strip (R174). -/
def Arr.locate (a : Arr) (v b : Nat) : Option (Nat × Nat × Nat) :=
  (a.extOf v (b / extentBytes)).map fun x =>
    let o := b % extentBytes
    (x * extentRows a.width + o / a.width, o % a.width / a.strip, o % a.strip)

/-- Where granule g of skein x lies (R207). -/
def Arr.locateGran (a : Arr) (x g : Nat) : Nat × Nat × Nat :=
  let o := g * 4096
  (x * extentRows a.width + o / a.width, o % a.width / a.strip, o % a.strip)

/-- The extent of a row. -/
def Arr.rowExt (a : Arr) (r : Nat) : Nat := r / extentRows a.width

/-- Regions of 256 MiB that hold any byte of a row (R180). -/
def Arr.rowRegions (a : Arr) (r : Nat) : List Nat :=
  let f := r * a.width / 268435456
  let l := ((r + 1) * a.width - 1) / 268435456
  (List.range (l + 1 - f)).map (· + f)

/-- A position holds current data of a row: IN-SYNC, or past by its rebuild or resynchronisation (R188, R191). -/
def Arr.readable (a : Arr) (p r : Nat) : Bool :=
  match (a.pos.getD p { st := .failed }).st with
  | .inSync => true
  | .absent => false
  | .failed => false
  | .rebuilding => a.rebuildPos.contains p
      && ((decide (r < a.rebuildRow.getD 0) && !(a.rebuild2.any fun x => x.1 == p && decide (r < x.2)))
        || a.rebuildTail.any fun x => x.1 == p && decide (x.2 ≤ r))
  | .resyncing => !(a.rowRegions r).any a.resync.contains

/-- A position takes the writes of a row: in service, or a target (R188, R192). -/
def Arr.writable (a : Arr) (p : Nat) : Bool :=
  match (a.pos.getD p { st := .failed }).st with
  | .inSync => true
  | .absent => false
  | .failed => false
  | .rebuilding => true
  | .resyncing => true

/-- The bay of a position. -/
def Arr.bayOf (a : Arr) (p : Nat) : Nat := (a.pos.getD p {}).bay

/-! ### Parity arithmetic -/

/-- Bytes of a block that parity covers (R168). -/
def coverBytes : Nat := 4112

/-- The covered bytes of a block as one number: data, then protection information (R168). -/
def cover (b : Blk) : Nat := b.data + b.pi * 2 ^ 32768

/-- The block of covered bytes. -/
def uncover (x : Nat) : Blk := { data := x % 2 ^ 32768, pi := x / 2 ^ 32768 }

/-- The coefficient of data strip i in parity strip j: 1, 2^i, 4^i (R176). -/
def coef (j i : Nat) : Nat :=
  match j with
  | 0 => 1
  | 1 => gfPow 2 i
  | _ => gfPow 4 i

/-- Parity strip j of the data strips given with their numbers (R176). -/
def parityOf (j : Nat) (ds : List (Nat × Nat)) : Nat :=
  ds.foldl (fun acc x => acc ^^^ gfScaleBlk coverBytes (coef j x.1) x.2) 0

/-- Solve k unknown strips from linear equations over GF(2^8), each a list of coefficients with its value. -/
def gfSolve (w : Nat) : Nat → List (List Nat × Nat) → Option (List Nat)
  | 0, _ => some []
  | k + 1, eqs =>
    match eqs.findIdx? fun e => e.1.headD 0 != 0 with
    | none => none
    | some ix =>
      let e := eqs.getD ix ([], 0)
      let inv := gfInv (e.1.headD 0)
      let pc := e.1.tail.map (gfMul inv)
      let pb := gfScaleBlk w inv e.2
      let rest := (eqs.eraseIdx ix).map fun q =>
        let h := q.1.headD 0
        (List.zipWith (fun x y => x ^^^ gfMul h y) q.1.tail pc, q.2 ^^^ gfScaleBlk w h pb)
      (gfSolve w k rest).map fun xs =>
        ((pc.zip xs).foldl (fun acc x => acc ^^^ gfScaleBlk w x.1 x.2) pb) :: xs

/-- Every data strip of a row at one offset, from the data strips and parity strips at hand (R191, R193): data strip i is
`data i`, parity strip j is `par j`; none when more are missing than the parity strips at hand. -/
def solveRow (d : Nat) (data : List (Nat × Nat)) (par : List (Nat × Nat)) : Option (List Nat) :=
  let lost := (List.range d).filter fun i => !data.any fun x => x.1 == i
  if par.length < lost.length then none
  else
    let eqs := par.map fun q => (lost.map fun i => coef q.1 i, q.2 ^^^ parityOf q.1 data)
    (gfSolve coverBytes lost.length eqs).map fun xs =>
      (List.range d).map fun i =>
        match data.find? fun x => x.1 == i with
        | some x => x.2
        | none => ((lost.zip xs).find? fun y => y.1 == i).elim 0 (·.2)

/-- The write methods of R178. -/
inductive Method where
  | full | readModify | reconstruct | mirror
  deriving DecidableEq, Repr

/-- The write method for k new blocks at one offset (R178). -/
def writeMethod (lay : Layout) (d k : Nat) : Method :=
  let p := parityStrips lay
  if p == 0 then .mirror
  else if k == d then .full
  else if k + p < d - k then .readModify
  else .reconstruct

/-- The drive reads of a write method (R178). -/
def methodReads (m : Method) (d p k : Nat) : Nat :=
  match m with
  | .full => 0
  | .readModify => k + p
  | .reconstruct => d - k
  | .mirror => 0

/-- The lost-block list of an array names a drive block of a row (R194). -/
def Arr.isLost (a : Arr) (r p b : Nat) : Bool :=
  a.lost.any fun l => l.row == r && l.pos == p && decide (l.first ≤ b) && decide (b < l.first + l.cnt)

/-- Take one drive block off the lost-block list (R195). -/
def unlose (r p b : Nat) (l : List LostBlk) : List LostBlk :=
  l.flatMap fun x =>
    if x.row == r && x.pos == p && decide (x.first ≤ b) && decide (b < x.first + x.cnt) then
      (if x.first < b then [{ x with cnt := b - x.first }] else [])
        ++ (if b + 1 < x.first + x.cnt then [{ x with first := b + 1, cnt := x.first + x.cnt - (b + 1) }] else [])
    else [x]

/-- Add one drive block to the lost-block list, up to 2,097,024 entries, then the overflow flag (R248). -/
def lose (r p b reason time : Nat) (a : Arr) : Arr :=
  if a.isLost r p b then a
  else if 2097024 ≤ a.lost.length then { a with lostOver := true }
  else { a with lost := a.lost ++ [{ row := r, pos := p, reason := reason, first := b, cnt := 1, time := time }] }

end Sys2Proof.Machine
end

