-- ==== Sys2Proof/Machine/Sched.lean ====
section
/-! DEFINITION. Cost, credit shapers and meters (R353, R359 to R362). Credits and buckets are kept in 10^-9 bytes, so that a
rate in bytes per second times nanoseconds is exact. -/

namespace Sys2Proof.Machine

/-- One byte in the unit of credits. -/
def nano : Nat := 1000000000

/-- The overhead of a port, -32 to 127 bytes (R353). -/
def State.overhead (p : Nat) (s : State) : Int := s.setting 0x0682 p

/-- The cost of a frame at a port (R353). -/
def State.frameCost (p bytes : Nat) (s : State) : Nat := ((bytes : Int) + s.overhead p).toNat

/-- The cost of a drive command of n blocks that transfer data: 4,160 bytes each and the per-command overhead (R353). -/
def State.driveCost (n : Nat) (s : State) : Nat := if n == 0 then 0 else 4160 * n + s.settingN 0x0683

/-- The bytes of a drive command's data transfer: only reads and writes move data (R353). -/
def DrvCmd.blocksMoved (d : DrvCmd) : Nat :=
  match d.op with
  | .read => d.cnt
  | .write => d.cnt
  | _ => 0

/-- The credit of a shaper after a time without an item: toward the high limit while work waits, toward 0 while none
does (R361). -/
def creditAfter (c : Int) (rate elapsed hi : Nat) (waiting : Bool) : Int :=
  let gain : Int := (rate * elapsed : Nat)
  if waiting then min (c + gain) (hi * nano : Nat)
  else if 0 < c then 0
  else min (c + gain) 0

/-- The credit after an item of a cost has gone (R361). -/
def creditSpend (c : Int) (cost : Nat) (lo : Int) : Int := max (c - (cost * nano : Nat)) (lo * nano)

/-- An association's shaper brought up to now (R361, R362). -/
def shaperNow (a : Assoc) (now : Nat) : Int :=
  creditAfter a.shaper.credit a.policy.shRate (now - a.shaper.t) a.policy.hi a.shaper.waiting

/-- The colours of R359. -/
inductive Colour where
  | green | yellow | red
  deriving DecidableEq, Repr

/-- A meter as new: both buckets full (RFC 2698, R359). -/
def meterNew (p : Policy) (now : Nat) : Meter := { tc := p.cbs * nano, tp := p.pbs * nano, t := now }

/-- One packet of a cost measured in colour-blind mode (R359, RFC 2698): the packet's colour and the meter after it. -/
def meterPacket (p : Policy) (cost now : Nat) (m : Meter) : Colour × Meter :=
  let dt := now - m.t
  let tc := min (m.tc + p.cir * dt) (p.cbs * nano)
  let tp := min (m.tp + p.pir * dt) (p.pbs * nano)
  let c := cost * nano
  if tp < c then
    (.red, { m with tc := tc, tp := tp, t := now, redPk := m.redPk + 1, redCost := m.redCost + cost })
  else if tc < c then
    (.yellow, { m with tc := tc, tp := tp - c, t := now, yellowPk := m.yellowPk + 1, yellowCost := m.yellowCost + cost })
  else
    (.green, { m with tc := tc - c, tp := tp - c, t := now, greenPk := m.greenPk + 1, greenCost := m.greenCost + cost })

/-- The colour of a packet on an association: green without counting against buckets while its meter is off (R363). -/
def meterColour (a : Assoc) (cost now : Nat) : Colour × Meter :=
  if a.policy.meterOn then meterPacket a.policy cost now a.meter
  else (.green, { a.meter with greenPk := a.meter.greenPk + 1, greenCost := a.meter.greenCost + cost })

/-- The pieces of a read's transfer of n bytes: (offset, length) of each PLACE packet for a maximum payload (R71). -/
def placePieces (n maxPayload : Nat) : List (Nat × Nat) :=
  if 4096 ≤ maxPayload then
    let sz := maxPayload / 4096 * 4096
    (List.range (ceilDiv n sz)).map fun i => (i * sz, min sz (n - i * sz))
  else
    (List.range (ceilDiv n 4096)).flatMap fun i =>
      let len := min 4096 (n - i * 4096)
      (List.range (ceilDiv len (max 1 maxPayload))).map fun j => (i * 4096 + j * maxPayload, min maxPayload (len - j * maxPayload))

/-- The cost of a read's PLACE frames at the port (R362). -/
def State.placeCost (a : Assoc) (n : Nat) (s : State) : Nat :=
  ((placePieces n a.maxPayload).map fun p => s.frameCost (s.netPort a) (vdtFrameBytes a.src p.2)).sum

/-- The traffic class of a volume's PLACE packets and drive reads: TC4 interactive, TC2 bulk (R75, R357). -/
def State.readClass (vol : Nat) (s : State) : Nat := if s.settingN 0x0580 vol == 0 then 4 else 2

/-! ### Gates (R365 to R368) -/

/-- The ticks of the leading entries in which class c is open. -/
def openRun (c : Nat) (l : List (Nat × Nat)) : Nat := ((l.takeWhile fun e => c == 7 || bit e.2 c).map (·.1)).sum

/-- The window of a class in a running list: none while it is closed, `some none` while no entry closes it, else the time since
its opening and the time to its closing, ns (R365, R368). -/
def gateWindow (g : Gate) (c dev : Nat) : Option (Option (Nat × Nat)) :=
  let e := g.entries.getD g.cur (1, 255)
  if !(c == 7 || bit e.2 c) then none
  else if g.entries.all fun x => c == 7 || bit x.2 c then some none
  else
    let left := g.curEnd - dev
    let after := g.entries.drop (g.cur + 1) ++ g.entries.take g.cur
    some (some ((4 * e.1 - left) + 4 * openRun c after.reverse, left + 4 * openRun c after))

/-- The list that a holder uses, if any (R367). -/
def State.gateOf (holder : Nat) (s : State) : Option Gate :=
  let l := s.settingN 0x0688 holder
  if l < 8 then
    let g := s.sw.gates.getD l {}
    if g.started then some g else none
  else none

/-- The list of a task opens a class, or has not started, or none is assigned (R366, R367). -/
def State.listOpens (holder c : Nat) (s : State) : Bool :=
  match s.gateOf holder with
  | some g => (gateWindow g c s.time.dev).isSome
  | none => true

end Sys2Proof.Machine
end

