-- ==== Sys2Proof/Machine/Data.lean ====
section
/-! DEFINITION. Blocks of a data stream and their protection information, the write buffer and its caps, drive commands,
and the sending of read data. -/

namespace Sys2Proof.Machine

/-! ### Data streams and protection information -/

/-- The n bytes of a number in the opposite order. -/
def swapBytes (n x : Nat) : Nat := ofBytesLE (bytesBE n x)

/-- The protection information that PRACT inserts for block i of a command (R120): guard, application tag, reference tag,
each most significant byte first (log 17). -/
def makePi (q : Sqe) (i data : Nat) : Nat :=
  swapBytes 8 (Config.guard64 data % 2 ^ 64) + swapBytes 2 (q.cdw15 % 65536) * 2 ^ 64
    + swapBytes 6 ((q.cdw14 + i) % 2 ^ 32) * 2 ^ 80

/-- The blocks that a command's data stream of little-endian number x carries (R119, R120). -/
def splitBlocks (v : Volume) (q : Sqe) (x : Nat) : List Blk :=
  (List.range q.nlb).map fun i =>
    let y := x / 256 ^ (i * streamBlk v q) % 256 ^ streamBlk v q
    let d := y % 256 ^ v.bs
    { data := d, pi := if !v.prot then 0 else if q.pract then makePi q i d else y / 256 ^ v.bs % 2 ^ 128 }

/-- The data stream of blocks, protection information stripped where PRACT is set (R120). -/
def streamOf (v : Volume) (q : Sqe) (l : List Blk) : Nat :=
  l.foldr (fun b acc =>
    b.data % 256 ^ v.bs + (if v.prot && !q.pract then b.pi % 2 ^ 128 * 256 ^ v.bs else 0) + acc * 256 ^ streamBlk v q) 0

/-- The check that fails on block i of a command, as PRCHK selects (R120). An application tag of FFFFh disables the checks
of its block (log 17). -/
def piError (v : Volume) (q : Sqe) (i : Nat) (b : Blk) : Option Nat :=
  let app := swapBytes 2 (b.pi / 2 ^ 64 % 65536)
  let mask := q.cdw15 / 65536 % 65536
  if !v.prot || app == 0xFFFF then none
  else firstFail
    [(!q.chkGuard || swapBytes 8 (b.pi % 2 ^ 64) == Config.guard64 b.data % 2 ^ 64, scGuard),
     (!q.chkApp || (app &&& mask) == (q.cdw15 % 65536 &&& mask), scAppTag),
     (!q.chkRef || swapBytes 6 (b.pi / 2 ^ 80) == (q.cdw14 + i) % 2 ^ 32, scRefTag)]

/-- The first check failure of a command's blocks. -/
def piErrors (v : Volume) (q : Sqe) : Nat → List Blk → Option Nat
  | _, [] => none
  | i, b :: l =>
    match piError v q i b with
    | some sc => some sc
    | none => piErrors v q (i + 1) l

/-- What a deallocated block reads as (R122). -/
def zeroBlk (v : Volume) : Blk := { data := 0, pi := if v.prot then 2 ^ 128 - 1 else 0 }

/-! ### The write buffer (R135, R317, R388) -/

/-- The newest buffered content of a block. -/
def State.wbFind (vol lba : Nat) (s : State) : Option WbBlk := s.io.wb.reverse.find? fun b => b.vol == vol && b.lba == lba

/-- Order numbers that a drain, a row assembly or a row write carries at this moment. -/
def State.busyOrders (s : State) : List Nat :=
  (s.io.arrs.flatMap fun a => a.drains.flatMap (·.orders))
    ++ (s.io.vols.flatMap fun v => (v.asm ++ v.rows.flatMap (·.chunks)).flatMap (·.orders))

/-- Block size of a volume by number. -/
def State.bsOf (vol : Nat) (s : State) : Nat :=
  match s.vol? vol with
  | some v => v.bs
  | none => 4096

/-- The array of a volume by number. -/
def State.arrOf (vol : Nat) (s : State) : Nat :=
  match s.vol? vol with
  | some v => v.arr
  | none => 255

/-- Dirty bytes of the volumes that satisfy p; what is written through does not count (R388). -/
def State.dirtyBytes (p : Nat → Bool) (s : State) : Nat :=
  ((s.io.wb.filter fun b => b.dirty && !b.through && p b.vol).map fun b => s.bsOf b.vol).sum

/-- The dump window, ns (R388). -/
def State.dumpWindow (s : State) : Nat := s.bays.th - 10 * ms

/-- The array uses a parity layout. -/
def State.parityArr (n : Nat) (s : State) : Bool :=
  match s.arr? n with
  | some a => parityStrips a.layout != 0
  | none => false

/-- The caps that apply to a write of an array: (dirty bytes that count, limit) (R388). -/
def State.caps (n : Nat) (s : State) : List (Nat × Nat) :=
  let r := match s.arr? n with
    | some a => a.dumpRate
    | none => 0
  [(s.dirtyBytes (fun _ => true), s.settingN 0x0883 * 1048576),
   (s.dirtyBytes (fun v => s.arrOf v == n), r * s.dumpWindow / sec)]
    ++ (if s.parityArr n then [(s.dirtyBytes (fun v => s.parityArr (s.arrOf v)), 384 * s.dumpWindow)] else [])

/-- A write of n bytes fits every cap that applies to it (R388). -/
def State.fits (arr n : Nat) (s : State) : Bool := (s.caps arr).all fun c => decide (c.1 + n ≤ c.2)

/-- A write of n bytes alone exceeds a cap (R388). -/
def State.tooLarge (arr n : Nat) (s : State) : Bool := (s.caps arr).any fun c => decide (c.2 < n)

/-- The array runs write-through: its holder has no shadow in a pair, or T_h is below 20 ms (R34, R388). -/
def State.writeThrough (arr : Nat) (s : State) : Bool := s.io.gradeDump || (s.paired && !(s.lease arr).shadowed)

/-- One block enters the write buffer as dirty data. A dirty block that no drain has taken keeps its place in the order
(R178); a block that a drain carries stays beside its successor until the drain ends. -/
def putBlock (c : Cmd) (vol : Nat) (through : Bool) (s : State) (x : Nat × Blk) : State :=
  let new : WbBlk := { vol := vol, lba := x.1, blk := x.2, dirty := true, order := s.io.order, assoc := c.assoc, row := c.row,
                       through := through }
  match s.wbFind vol x.1 with
  | some o =>
    if o.dirty && s.busyOrders.contains o.order then
      s.onIo fun i => { i with wb := i.wb ++ [new], order := i.order + 1 }
    else if o.dirty then
      let old := (if o.acked then [(o.assoc, o.row)] else []) ++ o.older
      s.onIo fun i => { i with wb := updWhere (fun b => b.order == o.order && b.dirty) (fun _ => { new with order := o.order, older := old }) i.wb }
    else s.onIo fun i => { i with wb := (i.wb.filter fun b => !(b.vol == vol && b.lba == x.1)) ++ [new], order := i.order + 1 }
  | none => s.onIo fun i => { i with wb := i.wb ++ [new], order := i.order + 1 }

/-- Copies of a volume mark the 1 MiB ranges that a write changes (R203). -/
def markCopies (vol first cnt bs : Nat) (s : State) : State :=
  let lo := first * bs / 1048576
  let hi := ((first + cnt) * bs - 1) / 1048576
  let rs := (List.range (hi + 1 - lo)).map (· + lo)
  s.onIo fun i => { i with copies := updWhere (·.vol == vol) (fun c => { c with changed := (c.changed ++ rs).eraseDups }) i.copies }

/-- Blocks of a write enter the buffer; answers the order numbers that hold them. -/
def bufferBlocks (c : Cmd) (vol : Nat) (blks : List (Nat × Blk)) (through : Bool) (s : State) : State :=
  blks.foldl (putBlock c vol through) s

/-- Order numbers of the dirty blocks of a command. -/
def State.ordersOf (a r : Nat) (s : State) : List Nat :=
  (s.io.wb.filter fun b => b.dirty && b.assoc == a && b.row == r).map (·.order)

/-- The write of a row has been acknowledged: so have its blocks. -/
def markAcked (a r : Nat) (s : State) : State :=
  s.onIo fun i => { i with wb := updWhere (fun b => b.assoc == a && b.row == r) (fun b => { b with acked := true }) i.wb }

/-- Of some order numbers, those whose blocks are still dirty. -/
def State.stillDirty (l : List Nat) (s : State) : List Nat :=
  l.filter fun o => s.io.wb.any fun b => b.dirty && b.order == o

/-! ### Drive commands -/

/-- A drive command enters its bay's queue; a write carries its blocks and their metadata (R167, R357). -/
def issueTagged (bay cls : Nat) (op : DrvOp) (lba cnt : Nat) (why : DrvWhy) (data : List Blk) (tags : List BlkMeta) (s : State) : State :=
  let d : DrvCmd := { id := s.io.nextDc, bay := bay, cls := cls, op := op, lba := lba, cnt := cnt, why := why,
                      queued := s.now, data := data, tags := tags }
  s.onIo fun i => { i with dcs := i.dcs ++ [d], nextDc := i.nextDc + 1 }

/-- A drive command that writes nothing, or whose blocks carry no metadata (R357). -/
def issueDc (bay cls : Nat) (op : DrvOp) (lba cnt : Nat) (why : DrvWhy) (data : List Blk) (s : State) : State :=
  issueTagged bay cls op lba cnt why data [] s

/-- Drive writes that a write acknowledged only from media waits for go to the media, past a drive's own cache (R132; DEDUCED,
log 32). -/
def markFua (ids : List Nat) (on : Bool) (s : State) : State :=
  if on then s.onIo fun i => { i with dcs := updWhere (fun d => ids.contains d.id) (fun d => { d with fua := true }) i.dcs } else s

/-- Drive commands outstanding at a bay (R172, R357). -/
def State.outstanding (bay : Nat) (s : State) : Nat := (s.io.dcs.filter fun d => d.bay == bay && d.subAt.isSome).length

/-- Consecutive blocks of one position joined into runs (position, first LBA, count). -/
def groupRuns : List (Nat × Nat) → List (Nat × Nat × Nat)
  | [] => []
  | (p, l) :: xs =>
    match groupRuns xs with
    | (p2, l2, n) :: rest => if p == p2 && l + 1 == l2 then (p, l, n + 1) :: rest else (p, l, 1) :: (p2, l2, n) :: rest
    | [] => [(p, l, 1)]

/-! ### Read data toward the host -/

/-- The data of a command leave as PLACE packets and a FLUSH; the RESP waits for the FLUSH_ACK (R35, R71, R94). On
NVMe/TCP they leave as C2HData and the command completes (R160). -/
def placeData (c : Cmd) (cls len data sc : Nat) (s : State) : State :=
  match s.assoc? c.assoc with
  | none => s
  | some a =>
    if a.tcp then
      finishAdm c sc c.dw0 c.dw1 (enqueue (s.netPort a) (s.settingN 0x028D) (len + 64) (.tcpData a.id c.row data) s)
    else
      let ps := placePieces len a.maxPayload
      let s1 := ps.foldl (fun st p =>
        sendSeq a.id cls (.place c.row c.key (c.off + p.1) p.2 (p.1 + p.2 == len) (data / 256 ^ p.1 % 256 ^ p.2)) st) s
      let s2 := updAssoc a.id (fun x => { x with flushNext := x.flushNext + 1 }) (sendSeq a.id 5 (.flush a.flushNext 0) s1)
      updCmd c.assoc c.row (fun x => { x with st := .placing, flushSeq := some (a.flushNext, 0), sc := sc, refused := false }) s2

end Sys2Proof.Machine
end

