-- ==== Sys2Proof/Machine/Media.lean ====
section
/-! DEFINITION. The structures of on-media format edition 3, byte by byte, and the metadata of drive blocks (R167, R236 to R255). -/

namespace Sys2Proof.Machine

/-! ### Blocks and their metadata -/

/-- A list of bytes with zeroes up to a length. -/
def padZero (n : Nat) (l : List Nat) : List Nat := l ++ zeros (n - l.length)

/-- A block whose last four bytes are the CRC over the bytes before them (R236). -/
def sealed (l : List Nat) : List Nat := let b := padZero 4092 l; b ++ bytesLE 4 (crc32c b)

/-- Magic and edition of a structure (R237). -/
def prefixed (magic : String) : List Nat := ascii magic ++ bytesLE 2 3

/-- A 4,096-byte block as drive commands carry it. -/
def byteBlk (l : List Nat) : Blk := { data := ofBytesLE (l.take 4096) }

/-- The bytes of a table as blocks, n of them. -/
def byteBlks (n : Nat) (l : List Nat) : List Blk := (List.range n).map fun i => byteBlk ((l.drop (4096 * i)).take 4096)

/-- Metadata bytes 14h to 3Fh (R167). -/
def tagBytes (t : BlkMeta) : List Nat :=
  [t.kind % 256, t.arr % 256] ++ bytesLE 2 t.vol ++ bytesLE 8 t.row ++ bytesLE 8 t.gen ++ zeros 24

/-- The sector check of a block: CRC-32C over its data, then metadata bytes 00h to 0Fh, then 14h to 3Fh (R167). -/
def sectorCheck (b : Blk) (t : BlkMeta) : Nat := crc32c (bytesLE 4096 b.data ++ bytesLE 16 b.pi ++ tagBytes t)

/-- The 64 metadata bytes of a block; those of a blank block are 0 (R167). -/
def metaBytes (b : Blk) (t : BlkMeta) : List Nat :=
  if t.kind == 0 then zeros 64 else bytesLE 16 b.pi ++ bytesLE 4 (sectorCheck b t) ++ tagBytes t

/-- Metadata of the reserved area (R238). -/
def reservedTag (a : Arr) : BlkMeta := { kind := 7, arr := a.no, vol := 65535, row := 2 ^ 64 - 1, gen := a.gen }

/-- Kind of the parity strip j (R167). -/
def parityKind (j : Nat) : Nat := 2 + j

/-- The parity strip that a position holds in a row, none for a data strip (R172). -/
def Arr.parityAt (a : Arr) (p r : Nat) : Option Nat :=
  (List.range (parityStrips a.layout)).find? fun j => parityPos (parityStrips a.layout) a.n r j == p

/-- Metadata of the blocks of a row at a position: direct data, map pages and skein granules by their extent, parity by its strip (R167,
R215, R251). -/
def Arr.rowTag (a : Arr) (p r : Nat) : BlkMeta :=
  let e := a.ext.getD (r / extentRows a.width) {}
  match a.parityAt p r with
  | some j => { kind := parityKind j, arr := a.no, vol := 65535, row := r, gen := a.gen }
  | none => { kind := if e.role == 1 then 1 else if e.role == 2 then 7 else 5, arr := a.no, vol := e.owner, row := r, gen := a.gen }

/-- Metadata of a block marked as lost (R179, R193). -/
def Arr.lostTag (a : Arr) (p r : Nat) : BlkMeta := { a.rowTag p r with kind := 6 }

/-! ### Labels (R240) -/

/-- The code of a layout (R240). -/
def layoutCode : Layout → Nat
  | .m2 => 1
  | .m3 => 2
  | .p1 => 3
  | .p2 => 4
  | .p3 => 5

/-- The label of a member of the array as the module knows it (R240). -/
def Arr.label (a : Arr) (p gen shelf : Nat) : DriveLabel :=
  { shelf := shelf, arrayId := a.id, arr := a.no, pos := p, gen := gen, layout := layoutCode a.layout, n := a.n, shift := Nat.log2 a.strip, size := a.memberSize }

/-- The three keeper positions, FFh where fewer are live (R240). -/
def keeperBytes (a : Arr) : List Nat :=
  let l := (a.keepers.filter (·.live)).map (·.pos)
  (l ++ List.replicate (3 - l.length) 255).take 3

/-- The label of a member's drive (R240). -/
def memberLabel (a : Arr) (p : Nat) (s : State) : List Nat :=
  let x := a.pos.getD p {}
  let d := (s.drive? x.bay).getD {}
  sealed (prefixed "RINRMEMB" ++ [1, if a.keepers.any (·.pos == p) then 1 else 0] ++ zeros 4 ++ bytesLE 16 (s.md.shelf.getD 0) ++ bytesLE 16 a.id
    ++ [a.no, layoutCode a.layout, a.n, p, Nat.log2 a.strip] ++ keeperBytes a ++ bytesLE 8 a.gen ++ bytesLE 8 a.memberSize ++ bytesLE 8 d.cap
    ++ bytesLE 8 a.created ++ bytesLE 8 s.time.dev ++ bytesLE 20 d.serial ++ bytesLE 40 d.model ++ [x.bay])

/-- The label of a spare (R240). Its generation, member size and time of creation are those of no array, 0 (log 46). -/
def spareLabel (bay : Nat) (s : State) : List Nat :=
  let d := (s.drive? bay).getD {}
  sealed (prefixed "RINRMEMB" ++ [2, 0] ++ zeros 4 ++ bytesLE 16 (s.md.shelf.getD 0) ++ zeros 16 ++ [255, 0, 0, 255, 0, 255, 255, 255] ++ zeros 16
    ++ bytesLE 8 d.cap ++ zeros 8 ++ bytesLE 8 s.time.dev ++ bytesLE 20 d.serial ++ bytesLE 40 d.model ++ [bay])

/-! ### Superblock (R241 to R244) -/

/-- A volume table entry (R243); for a number without a volume, FFFFh and zeros (R464). -/
def volumeEntry (n : Nat) (s : State) : List Nat :=
  match s.vol? n with
  | none => [255, 255] ++ zeros 126
  | some v =>
    let ext := (s.arr? v.arr).elim 0 fun a => (a.ext.filter fun e => e.owner == v.no && e.role == 1).length
    bytesLE 2 n ++ [if v.packed then 2 else 1,
      (if v.b512 then 1 else 0) + (if v.prot then 2 else 0) + (if v.packed && s.settingN 0x0581 n == 1 then 4 else 0)] ++ zeros 4
      ++ bytesLE 8 v.size ++ bytesLE 8 v.created ++ bytesLE 4 (if v.packed then v.allot else ext) ++ bytesLE 4 v.mapExt ++ bytesLE 16 v.nguid ++ zeros 80

/-- The volume table of an array: an entry for each of its volumes (R243). -/
def volumeTable (arr : Nat) (s : State) : List Nat :=
  (List.range 1024).flatMap fun n => if s.arrOf n == arr && (s.vol? n).isSome then volumeEntry n s else [255, 255] ++ zeros 126

/-- The number of a skein state. -/
def skeinCode : SkeinState → Nat
  | .reserved => 0
  | .openHost => 1
  | .openFrog => 2
  | .closed => 3
  | .frogging => 4

/-- An extent table entry (R244). -/
def extentEntry (e : Ext) : List Nat :=
  bytesLE 2 e.owner ++ [e.role, if e.role == 3 then skeinCode e.skein else 0] ++ bytesLE 4 (if e.role == 1 || e.role == 2 then e.index else 0)

/-- The extent table of an array (R244). -/
def extentTable (a : Arr) : List Nat := a.ext.flatMap extentEntry

/-- A position table entry (R242). -/
def positionEntry (x : Pos) : List Nat :=
  [memberCode x.st, x.slot] ++ zeros 6 ++ bytesLE 8 (if x.st == .inSync then 0 else x.depGen) ++ bytesLE 20 x.serial ++ zeros 12

/-- The header of a superblock copy (R241). -/
def superblockHeader (a : Arr) (s : State) : List Nat :=
  let vols := (s.io.vols.filter (·.arr == a.no)).length
  sealed (padZero 256 (prefixed "RINRSUPR" ++ zeros 6 ++ bytesLE 8 a.sbSeq ++ bytesLE 16 a.id ++ bytesLE 16 (s.md.shelf.getD 0)
    ++ [a.no, layoutCode a.layout, a.n, Nat.log2 a.strip] ++ keeperBytes a ++ [0] ++ bytesLE 8 a.gen ++ bytesLE 8 a.memberSize
    ++ bytesLE 4 a.ext.length ++ bytesLE 4 (extentRows a.width) ++ bytesLE 4 vols ++ zeros 4 ++ bytesLE 8 s.time.dev
    ++ bytesLE 4 (crc32c (volumeTable a.no s)) ++ bytesLE 4 (crc32c (extentTable a))) ++ a.pos.flatMap positionEntry)

/-! ### Ledger (R246 to R249) -/

/-- The ledger header (R246). -/
def ledgerHeader (a : Arr) : List Nat :=
  let none64 := 2 ^ 64 - 1
  let mask := ((a.rebuildPos ++ a.resyncTgt).eraseDups.map fun p => 2 ^ p).sum
  let region := if a.resync.isEmpty then none64 else (sortNat a.resync).headD 0
  sealed (prefixed "RINRLEDG" ++ zeros 6 ++ bytesLE 16 a.id ++ bytesLE 8 a.ledSeq ++ bytesLE 8 a.gen ++ bytesLE 8 a.replay ++ bytesLE 8 a.ckpt
    ++ bytesLE 8 (a.rebuildRow.getD none64) ++ bytesLE 4 mask ++ zeros 4 ++ bytesLE 8 region ++ bytesLE 8 a.patrolRow ++ bytesLE 8 a.patrolStart
    ++ [if a.lostOver then 1 else 0])

/-- Regions of an array (R180). -/
def Arr.regionCount (a : Arr) : Nat := ceilDiv (a.ext.length * extentRows a.width * a.width) 268435456

/-- The position whose absence bitmap a slot holds (R242). -/
def Arr.slotPos (a : Arr) (slot : Nat) : Option Nat := a.pos.findIdx? fun p => p.slot == slot && p.absence.isSome

/-- The header block of a bitmap slot (R247). -/
def bitmapHeader (a : Arr) (slot : Nat) : List Nat :=
  let p := if slot == 0 then none else a.slotPos slot
  let kind := if slot == 0 then 0 else if p.isSome then 1 else 2
  sealed (prefixed "RINRBMAP" ++ [kind, p.getD 255] ++ bytesLE 4 a.regionCount ++ bytesLE 8 (p.elim 0 fun k => (a.pos.getD k {}).depGen))

/-- A slot's first block (R247). -/
def slotLba (slot : Nat) : Nat := 16640 + 1024 * slot

/-- The block of a slot that holds a region's bit (R247). -/
def bitLba (slot region : Nat) : Nat := slotLba slot + 1 + region / 32768

/-- A block of bits: region g is bit g mod 8 of byte g div 8 (R247). -/
def bitBlock (regions : List Nat) (blk : Nat) : Blk :=
  { data := ((regions.filter fun g => g / 32768 == blk).eraseDups.map fun g => 2 ^ (g % 32768)).sum }

/-- The regions of a slot's bitmap. -/
def Arr.slotBits (a : Arr) (slot : Nat) : List Nat :=
  if slot == 0 then a.bits
  else match a.slotPos slot with
    | some p => ((a.pos.getD p {}).absence).getD []
    | none => []

/-- The header of the lost-block list (R248). -/
def lostHeader : List Nat := sealed (prefixed "RINRLOST")

/-- A lost-block list entry (R248). -/
def lostEntry (x : LostBlk) : List Nat :=
  bytesLE 8 x.row ++ [x.pos, x.reason, 1, 0] ++ bytesLE 4 x.first ++ bytesLE 4 x.cnt ++ zeros 4 ++ bytesLE 8 x.time

/-- Block k of the lost-block list's entries (R248). -/
def lostBlock (a : Arr) (k : Nat) : List Nat := padZero 4096 (((a.lost.drop (128 * k)).take 128).flatMap lostEntry)

/-- A map journal record (R249). -/
def journalRecord (r : JRec) : List Nat :=
  let one := r.kind == 1
  [r.kind, 0] ++ bytesLE 2 (if one then r.vol else 0) ++ bytesLE 4 (if one then r.chunk else 0) ++ bytesLE 8 r.value ++ bytesLE 8 (if one then r.version else 0)

/-- A map journal block (R249). -/
def journalBytes (seq : Nat) (recs : List JRec) : List Nat :=
  sealed (ascii "MJNL" ++ bytesLE 2 recs.length ++ bytesLE 2 3 ++ bytesLE 8 seq ++ recs.flatMap journalRecord)

/-- A map page (R216, R218, R251): 512 entries. -/
def mapPage (v : Volume) (p : Nat) : List Nat :=
  (List.range 512).flatMap fun k => bytesLE 8 ((assocGet (p * 512 + k) v.map).getD 0)

/-! ### Skeins (R252, R253) -/

/-- Granule 0 of a skein (R252). -/
def skeinHeader (a : Arr) (x : Nat) : List Nat :=
  let e := a.ext.getD x {}
  sealed (prefixed "RINRSKEN" ++ bytesLE 2 e.owner ++ bytesLE 4 x ++ [a.no, if e.frogOpen then 2 else 1] ++ zeros 6 ++ bytesLE 8 e.seq
    ++ bytesLE 8 e.opened ++ bytesLE 8 e.openGen)

/-- A record of the chunk index, from the map entry and the version (R253). -/
def indexRecord (r : Nat × Nat × Nat) : List Nat :=
  let e := r.2.1
  bytesLE 4 r.1 ++ bytesLE 4 (bits e 31 12 + bits e 11 8 * 2 ^ 20 + (if bit e 7 then 2 ^ 24 else 0) + e % 64 * 2 ^ 25) ++ bytesLE 8 r.2.2

/-- The chunk index of a skein (R253). -/
def indexBytes (e : Ext) : List Nat := e.index2.flatMap indexRecord

/-- Granules that the records of the index fill (R253). -/
def indexGranules (e : Ext) : Nat := ceilDiv e.index2.length 256

/-- The trailer of a skein (R253). -/
def skeinTrailer (a : Arr) (x : Nat) : List Nat :=
  let e := a.ext.getD x {}
  sealed (prefixed "RINRSKTR" ++ bytesLE 2 e.owner ++ bytesLE 4 x ++ bytesLE 8 e.seq ++ bytesLE 4 e.index2.length ++ bytesLE 4 e.fill
    ++ bytesLE 8 e.closedDev ++ bytesLE 4 (crc32c (indexBytes e)))

/-- What granule g of a skein holds that the module writes of its own: header, index, trailer, blank elsewhere (R252, R253). -/
def ownGranule (a : Arr) (x g : Nat) : List Nat :=
  let e := a.ext.getD x {}
  if g == 0 then skeinHeader a x
  else if g == 1048575 then skeinTrailer a x
  else if 1044480 ≤ g then padZero 4096 ((indexBytes e).drop (4096 * (g - 1044480)) |>.take 4096)
  else zeros 4096

/-! ### Writing them -/

/-- The bays of an array's positions that satisfy p. -/
def Arr.bays (a : Arr) (p : Pos → Bool) : List Nat := (a.pos.filter fun x => p x && decide (x.bay < 24)).map (·.bay)

/-- The bays of the live keepers (R180). -/
def Arr.liveBays (a : Arr) : List Nat := (a.keepers.filter (·.live)).map fun k => a.bayOf k.pos

/-- A structure of the reserved area is written on some bays, one command of class TC6 each (R238, R357). -/
def writeMeta (arr : Nat) (bays : List Nat) (lba : Nat) (blk : Blk) (s : State) : State :=
  match s.arr? arr with
  | none => s
  | some a => bays.foldl (fun st b => issueTagged b 6 .write lba 1 (.metaData arr) [blk] [reservedTag a] st) s

/-- A block of the bits of a slot is rewritten on every live keeper (R247). -/
def writeBits (arr slot region : Nat) (s : State) : State :=
  match s.arr? arr with
  | none => s
  | some a => writeMeta arr a.liveBays (bitLba slot region) (bitBlock (a.slotBits slot) (region / 32768)) s

/-- The blocks that hold some regions' bits are rewritten in slot 0 and in every absence slot (R187, R247). -/
def writeRegions (arr : Nat) (regions : List Nat) (s : State) : State :=
  match s.arr? arr with
  | none => s
  | some a =>
    let slots := 0 :: (a.pos.filter fun p => p.absence.isSome && p.slot != 0).map (·.slot)
    let one := ((regions.map (· / 32768)).eraseDups).map (· * 32768)
    slots.foldl (fun st k => one.foldl (fun t g => writeBits arr k g t) st) s

/-- A slot's header and the blocks that hold set bits are written on every live keeper (R247). -/
def writeSlot (arr slot : Nat) (s : State) : State :=
  match s.arr? arr with
  | none => s
  | some a =>
    let blks := ((a.slotBits slot).map (· / 32768)).eraseDups
    blks.foldl (fun st k => writeBits arr slot (k * 32768) st) (writeMeta arr a.liveBays (slotLba slot) (byteBlk (bitmapHeader a slot)) s)

/-- The blocks of the lost-block list whose entries changed since a list of entries are rewritten on every live keeper (R248). -/
def writeLost (arr : Nat) (old : List LostBlk) (s : State) : State :=
  match s.arr? arr with
  | none => s
  | some a =>
    let n := ceilDiv (max old.length a.lost.length) 128
    let changed := (List.range n).filter fun k => (old.drop (128 * k)).take 128 != (a.lost.drop (128 * k)).take 128
    changed.foldl (fun st k => writeMeta arr a.liveBays (32769 + k) (byteBlk (lostBlock a k)) st) s

/-- Drive writes of an array in progress are gone: a superblock write among them is to be made again (R256). -/
def Arr.noWrites (a : Arr) : Arr :=
  { a with
    drains := [], bitWait := [], jWait := [], ckptRun := none, jobs := [], sbStep := 0, sbWait := [], sbAgain := a.sbAgain || a.sbStep != 0
    ext := a.ext.map fun e => { e with ixWait := [] } }

/-! ### Granules of a skein row -/

/-- A granule of a row that holds chunks: the compressor's bytes for the granules of a chunk, a free value; the module's own structures
elsewhere (R210, R213, R215, R252). -/
def granuleBlk (a : Arr) (x : Nat) (cs : List Asm) (g : Nat) : Blk × BlkMeta :=
  let r := (a.locateGran x g).1
  match cs.find? fun c => decide (c.gran ≤ g) && decide (g < c.gran + c.cnt) with
  | some c => (uncover (Config.granule [a.no, x, g, c.chunk, c.t]), { kind := 5, arr := a.no, vol := (a.ext.getD x {}).owner, row := r, gen := a.gen })
  | none =>
    let l := ownGranule a x g
    if l.all (· == 0) || 1048576 ≤ g then ({}, {})
    else (byteBlk l, { kind := 7, arr := a.no, vol := (a.ext.getD x {}).owner, row := r, gen := a.gen })

/-- The granule at block b of data strip i of a row of a skein (R207). -/
def Arr.rowGran (a : Arr) (x r i b : Nat) : Nat := ((r - x * extentRows a.width) * a.width + i * a.strip) / 4096 + b

/-- What a position writes of a skein row in full: the granules of its strip, or the parity over those of all strips (R176, R178). -/
def skeinStrip (a : Arr) (x r p : Nat) (cs : List Asm) : List (Blk × BlkMeta) :=
  (List.range (a.strip / 4096)).map fun b =>
    match a.parityAt p r with
    | some j =>
      let ds := (List.range a.d).map fun i => (i, cover (granuleBlk a x cs (a.rowGran x r i b)).1)
      (uncover (parityOf j ds), { kind := parityKind j, arr := a.no, vol := 65535, row := r, gen := a.gen })
    | none => match (List.range a.d).find? fun i => (a.stripPos r i).contains p with
      | some i => granuleBlk a x cs (a.rowGran x r i b)
      | none => ({}, {})

end Sys2Proof.Machine
end

