-- ==== Sys2Proof/Machine/Members.lean ====
section
/-! DEFINITION. Member states, keepers, spares, lost blocks and deferred write errors (R137, R138, R179 to R195). -/

namespace Sys2Proof.Machine

/-- The ledger header is written on every live keeper, even sequences to LBA 16,384, odd to 16,385 (R246). -/
def ledgerNow (arr : Nat) (s : State) : State :=
  match s.arr? arr with
  | none => s
  | some a =>
    let a1 := { a with ledSeq := a.ledSeq + 1, hdrAt := none }
    writeMeta arr a.liveBays (16384 + a1.ledSeq % 2) (byteBlk (ledgerHeader a1)) (updArr arr (fun _ => a1) s)

/-- A ledger header write falls due within 1 s (R246). -/
def ledgerSoon (arr : Nat) (s : State) : State :=
  updArr arr (fun x => { x with hdrAt := some (x.hdrAt.getD (s.now + sec)) }) s

/-- The labels of all in-sync members as they stand at the current generation (R187). -/
def markLabels (arr : Nat) (s : State) : State :=
  match s.arr? arr with
  | none => s
  | some a =>
    let mark := fun (st : State) (x : Pos × Nat) =>
      updDrive x.1.bay (fun d => { d with label := some (a.label x.2 a.gen (s.md.shelf.getD 0)) }) st
    ((a.pos.zip (List.range a.n)).filter fun x => x.1.st == .inSync && decide (x.1.bay < 24)).foldl mark s

/-- One label is written at LBA 0 (R240). -/
def writeLabel (arr p : Nat) (s : State) : State :=
  match s.arr? arr with
  | none => s
  | some a => if (a.pos.getD p {}).bay < 24 then writeMeta arr [a.bayOf p] 0 (byteBlk (memberLabel a p s)) s else s

/-- The labels of all in-sync members are written at the current generation (R187, R240). -/
def writeLabels (arr : Nat) (s : State) : State :=
  match s.arr? arr with
  | none => s
  | some a => ((List.range a.n).filter fun p => (a.pos.getD p {}).st == .inSync).foldl (fun st p => writeLabel arr p st) (markLabels arr s)

/-- First block of the copy that a superblock sequence names: even copy 0, odd copy 1 (R241). -/
def superblockLba (seq : Nat) : Nat := if seq % 2 == 0 then 256 else 4352

/-- A step of a superblock write is issued on every in-sync member; its drive writes are waited for (R245). -/
def superblockStep (arr step : Nat) (parts : List (Nat × List Blk)) (s : State) : State :=
  match s.arr? arr with
  | none => s
  | some a =>
    let bays := a.bays fun p => p.st == .inSync
    let ids := (List.range (bays.length * parts.length)).map (· + s.io.nextDc)
    let put := fun (st : State) (b : Nat) => parts.foldl (fun t x =>
      issueTagged b 6 .write x.1 x.2.length (.superblock arr) x.2 (x.2.map fun _ => reservedTag a) t) st
    bays.foldl put (updArr arr (fun x => { x with sbStep := step, sbWait := ids }) s)

/-- The superblock is rewritten: first the volume table and the extent table of the target copy (R241, R245). A write in progress is
followed by another. -/
def superblockNow (arr : Nat) (s : State) : State :=
  match s.arr? arr with
  | none => s
  | some a =>
    if a.sbStep != 0 then updArr arr (fun x => { x with sbAgain := true }) s
    else
      let base := superblockLba (a.sbSeq + 1)
      superblockStep arr 1 [(base + 1, byteBlks 32 (volumeTable arr s)), (base + 64, byteBlks (ceilDiv a.ext.length 512) (extentTable a))]
        (updArr arr (fun x => { x with sbSeq := x.sbSeq + 1, sbAgain := false }) s)

/-- The labels of all in-sync members are rewritten at the current generation, after a superblock write in progress (R187, R245). -/
def relabel (arr : Nat) (s : State) : State :=
  match s.arr? arr with
  | none => s
  | some a => if a.sbStep != 0 then updArr arr (fun x => { x with sbLabel := true }) s else writeLabels arr s

/-- A step of the superblock write is complete: after the tables the header, after it another write if a field has changed, and the labels
(R245). -/
def superblockNext (arr : Nat) (s : State) : State :=
  match s.arr? arr with
  | none => s
  | some a =>
    if a.sbStep == 1 then superblockStep arr 2 [(superblockLba a.sbSeq, [byteBlk (superblockHeader a s)])] s
    else
      let s1 := updArr arr (fun x => { x with sbStep := 0, sbAgain := false, sbLabel := if a.sbAgain then x.sbLabel else false }) s
      if a.sbAgain then superblockNow arr s1
      else if a.sbLabel then writeLabels arr s1 else s1

/-- A drive write of the superblock ends; mailboxes that waited for it wait for what follows it (R245). -/
def superblockDone (arr dc : Nat) (ok : Bool) (s : State) : State :=
  match s.arr? arr with
  | none => slotDc dc ok s
  | some a =>
    let left := a.sbWait.filter (· != dc)
    let s1 := updArr arr (fun x => { x with sbWait := left }) s
    if !left.isEmpty || !a.sbWait.contains dc then slotDc dc ok s1
    else
      let s2 := superblockNext arr s1
      let new := (List.range (s2.io.nextDc - s1.io.nextDc)).map (· + s1.io.nextDc)
      slotDc dc ok (s2.onMbx fun m => { m with
        slots := updWhere (fun y => y.ready.isNone && y.dcs.contains dc) (fun y => { y with dcs := y.dcs ++ new }) m.slots })

/-- A MEMBER stitch records the position, its state, the generation, its bay and the keepers (R278). -/
def stitchMember (arr p : Nat) (s : State) : State :=
  match s.arr? arr with
  | none => s
  | some a =>
    let x := a.pos.getD p {}
    issueStitch 6 arr 0 0 ([p, memberCode x.st, a.gen, x.bay] ++ a.keepers.map (·.pos)) s

/-- A member changes its state: event, stitch and ledger (R188, R525). -/
def noteMember (arr p : Nat) (st : MemberState) (s : State) : State :=
  stitchMember arr p (ledgerSoon arr (fwEvent 0x10 (p + memberCode st * 256) (ssAddr 3 arr 0) s))

/-- The membership generation rises; the superblock and then the labels are rewritten (R187, R245). -/
def bumpGen (arr : Nat) (s : State) : State := relabel arr (superblockNow arr (updArr arr (fun a => { a with gen := a.gen + 1 }) s))

/-! ### Keepers (R182) -/

/-- The sublists of length k, in order. -/
def combos {α : Type} : Nat → List α → List (List α)
  | 0, _ => [[]]
  | _ + 1, [] => []
  | k + 1, x :: xs => (combos k xs).map (x :: ·) ++ combos (k + 1) xs

/-- The mirror set of a position, 0 in a parity layout (R172). -/
def Arr.setOf (a : Arr) (p : Nat) : Nat := if parityStrips a.layout == 0 then p % (a.n / copies a.layout) else 0

/-- How well a choice of keepers meets the preferences of R182: mirror sets covered, then both storage I/O dies. -/
def Arr.keeperScore (a : Arr) (ps : List Nat) : Nat :=
  let sets := (ps.map a.setOf).eraseDups.length
  let dies := (ps.map fun p => a.bayOf p / 12).eraseDups.length
  sets * 4 + dies

/-- The keepers that complete the ones in place, from the in-sync members, the lowest positions among equals (R182). -/
def Arr.chooseKeepers (a : Arr) (kept : List Nat) : List Nat :=
  let cand := (List.range a.n).filter fun p => (a.pos.getD p {}).st == .inSync && !kept.contains p
  let opts := combos (min (3 - kept.length) cand.length) cand
  opts.foldl (fun best o => if a.keeperScore (kept ++ best) < a.keeperScore (kept ++ o) then o else best) (opts.headD [])

/-- A keeper that left the in-sync members is replaced; the new keeper is live once its copy is complete (R182). -/
def replaceKeepers (arr : Nat) (s : State) : State :=
  updArr arr (fun a =>
    let kept := a.keepers.filter fun k => (a.pos.getD k.pos {}).st == .inSync
    { a with keepers := kept ++ (a.chooseKeepers (kept.map (·.pos))).map fun p => { pos := p, live := false } }) s

/-! ### Spares and rebuilds (R188 to R190) -/

/-- A position joins the running rebuild at its current row, with a second pass before that row, or starts one (R190).
A row that is under its lock counts as past. -/
def joinRebuild (arr p : Nat) (s : State) : State :=
  ledgerSoon arr (updArr arr (fun a => match a.rebuildRow with
    | some r =>
      let r1 := if a.jobs.any (·.kind == 2) then r + 1 else r
      { a with rebuildPos := (p :: a.rebuildPos).eraseDups,
               rebuild2 := if r1 == 0 then a.rebuild2 else (p, r1) :: a.rebuild2.filter (·.1 != p) }
    | none => { a with rebuildRow := some 0, rebuildPos := [p], rebuild2 := [], rebuildTail := [] }) s)

/-- Rows of unallocated extents are deallocated on the drive of a rebuild's target, run by run (R190). -/
def blankFree (arr p : Nat) (s : State) : State :=
  match s.arr? arr with
  | none => s
  | some a =>
    let bay := a.bayOf p
    let free := (List.range a.ext.length).filter fun x => (a.ext.getD x {}).role == 0
    if 24 ≤ bay then s
    else (groupRuns (free.map fun x => (p, x))).foldl (fun st r =>
      issueDc bay 1 .dealloc (driveLba a.strip (r.2.1 * extentRows a.width) 0) (r.2.2 * extentRows a.width * a.strip / 4096) .other [] st) s

/-- A rebuild of a position starts at its holder (R190). -/
def startRebuild (arr p : Nat) (s : State) : State := blankFree arr p (joinRebuild arr p s)

/-- Spares of the pool that can replace a member of an array: (bay, drive) (R165, R189). -/
def State.spares (s : State) : List (Nat × Drive) :=
  ((List.range 24).zip s.bays.drives).filterMap fun x => match x.2 with
    | some d => if d.role == .spare && d.ready then some (x.1, d) else none
    | none => none

/-- Whether spare x is preferred to y for a position on a storage I/O die: smaller capacity, same die, lower bay (R189). -/
def spareBefore (die : Nat) (x y : Nat × Drive) : Bool :=
  if x.2.cap != y.2.cap then x.2.cap < y.2.cap
  else if (x.1 / 12 == die) != (y.1 / 12 == die) then x.1 / 12 == die
  else x.1 < y.1

/-- The spare that the pool gives for a position whose drive sat in a bay (R189). -/
def State.pickSpare (a : Arr) (bay : Nat) (s : State) : Option (Nat × Drive) :=
  (s.spares.filter fun x => decide (a.memberSize ≤ x.2.cap)).foldl
    (fun best x => match best with
      | none => some x
      | some y => if spareBefore (bay / 12) x y then some x else best) none

/-- A spare is sought for a failed position; when one qualifies its rebuild starts (R188, R189). -/
def seekSpare (arr p bay : Nat) (s : State) : State :=
  match s.arr? arr with
  | none => s
  | some a =>
    match s.pickSpare a bay with
    | none => raiseAll (fun _ => true) 1 2 2 (updArr arr (fun x => { x with sparesShort := true }) s)
    | some (b, d) =>
      let s1 := updArr arr (fun x => { x with
        sparesShort := false
        pos := x.pos.modify p fun q => { q with st := .rebuilding, bay := b, serial := d.serial, absence := none, slot := 0, graceAt := none } }) s
      let s2 := updDrive b (fun y => { y with
        role := .member
        label := some (a.label p (a.gen + 1) (s.md.shelf.getD 0)) }) s1
      let s3 := noteMember arr p .rebuilding (startRebuild arr p (writeLabel arr p (bumpGen arr s2)))
      if s3.spares.isEmpty then raiseAll (fun _ => true) 1 2 2 s3 else s3

/-- What a position leaves behind when its rebuild or resynchronisation ends without success (R188). -/
def dropProgress (p : Nat) (a : Arr) : Arr :=
  let rp := a.rebuildPos.filter (· != p)
  { a with rebuildPos := rp, rebuild2 := a.rebuild2.filter (·.1 != p), rebuildTail := a.rebuildTail.filter (·.1 != p), resyncTgt := a.resyncTgt.filter (· != p),
           rebuildRow := if rp.isEmpty then none else a.rebuildRow, jobs := if rp.isEmpty then a.jobs.filter (·.kind != 2) else a.jobs }

/-- The lowest bitmap slot that no absence bitmap of an array holds (R242). -/
def Arr.freeSlot (a : Arr) : Nat :=
  ([1, 2, 3].find? fun k => !(a.pos.any fun p => p.absence.isSome && p.slot == k)).getD 0

/-- The slot of a position's discarded absence bitmap is marked unused on the keepers (R247). -/
def dropSlot (arr slot : Nat) (s : State) : State := if slot == 0 then s else writeSlot arr slot s

/-- A member fails (R186, R188): generation, keepers, absence bitmap, then a spare. -/
def failMember (arr p : Nat) (s : State) : State :=
  match s.arr? arr with
  | none => s
  | some a =>
    let x := a.pos.getD p { st := .failed }
    if x.st == .failed || a.n ≤ p then s
    else
      let s1 := updArr arr (fun y => dropProgress p { y with
        pos := y.pos.modify p fun q => { q with st := .failed, bay := 255, absence := none, slot := 0, graceAt := none } }) s
      let s2 := updDrive x.bay (fun d => { d with role := .unassigned }) s1
      let s3 := noteMember arr p .failed (replaceKeepers arr (if x.st == .inSync then bumpGen arr s2 else superblockNow arr s2))
      seekSpare arr p x.bay (dropSlot arr x.slot s3)

/-- A member becomes absent (R186, R187, R188): its absence bitmap starts with every bit set now, at most three bitmaps per
array; the return grace starts. A target that leaves fails at once. -/
def absentMember (arr p : Nat) (s : State) : State :=
  match s.arr? arr with
  | none => s
  | some a =>
    let x := a.pos.getD p { st := .failed }
    match x.st with
    | .inSync =>
      let kept := (a.pos.filter fun q => q.absence.isSome).length
      let bm := if kept < 3 then some (sortNat (a.bits ++ a.resync).eraseDups) else none
      let slot := if bm.isSome then a.freeSlot else 0
      let grace := s.settingN 0x0480 arr * sec
      let s1 := updArr arr (fun y => { y with
        pos := y.pos.modify p fun q => { q with st := .absent, bay := 255, depGen := a.gen, absence := bm, slot := slot, graceAt := some (s.now + grace) } }) s
      dropSlot arr slot (noteMember arr p .absent (replaceKeepers arr (bumpGen arr s1)))
    | .rebuilding => failMember arr p s
    | .resyncing => failMember arr p s
    | _ => s

/-- A target is complete (R188): IN-SYNC, its label rewritten at the current generation, its absence bitmap discarded. An
array short of keepers takes it as one (R182). -/
def targetDone (arr p : Nat) (s : State) : State :=
  let slot := ((s.arr? arr).elim {} fun a => a.pos.getD p {}).slot
  let s1 := updArr arr (fun a => dropProgress p { a with
    pos := a.pos.modify p fun q => { q with st := .inSync, absence := none, slot := 0 } }) s
  dropSlot arr slot (noteMember arr p .inSync (replaceKeepers arr (relabel arr (superblockNow arr s1))))

/-- A drive returns to an absent position (R188): with the departure generation on its label and an intact absence bitmap
the regions of the bitmap are resynchronised onto it (IN-SYNC at once when there is none), otherwise it is rebuilt whole. -/
def returnMember (arr p bay labelGen serial : Nat) (s : State) : State :=
  match s.arr? arr with
  | none => s
  | some a =>
    let x := a.pos.getD p { st := .failed }
    let place := fun (st : MemberState) (y : Arr) =>
      { y with pos := y.pos.modify p fun q => { q with st := st, bay := bay, serial := serial, graceAt := none } }
    let drive := updDrive bay fun d => { d with role := .member }
    if x.st != .absent then updDrive bay (fun d => { d with role := .unassigned }) s
    else match x.absence with
      | some bm =>
        if labelGen == x.depGen then
          let s1 := drive (updArr arr (fun y => place .resyncing { y with
            resync := (y.resync ++ bm).eraseDups, resyncTgt := (p :: y.resyncTgt).eraseDups }) s)
          let s2 := noteMember arr p .resyncing (superblockNow arr s1)
          if a.resync.isEmpty && bm.isEmpty then targetDone arr p s2 else s2
        else noteMember arr p .rebuilding (superblockNow arr <| startRebuild arr p (drive (updArr arr (place .rebuilding) s)))
      | none => noteMember arr p .rebuilding (superblockNow arr <| startRebuild arr p (drive (updArr arr (place .rebuilding) s)))

/-! ### Lost blocks and deferred write errors -/

/-- The volume that a row of an array belongs to: its extent's owner. -/
def Arr.rowVol (a : Arr) (row : Nat) : Nat := (a.ext.getD (a.rowExt row) {}).owner

/-- A lost stripe is found: blocks listed, stitched, audited, and vendor event 02h raised (R193, R194, R248). -/
def loseBlocks (arr row reason : Nat) (blks : List (Nat × Nat)) (s : State) : State :=
  match s.arr? arr, blks with
  | some a, (p0, _) :: _ =>
    let vol := a.rowVol row
    let s1 := blks.foldl (fun st x => issueStitch 7 arr 0 row [row, x.1, reason, x.2, 1, s.time.dev]
      (updArr arr (lose row x.1 x.2 reason s.time.dev) st)) s
    let s2 := writeLost arr a.lost (fwEvent 0x01 (reason + p0 * 256) (ssAddr 3 arr 0) s1)
    raiseAll (fun x => x.seenVols.contains vol) 7 2 0xC2 (ledgerSoon arr s2)
  | _, _ => s

/-- A deferred write error enters log page C1h and the audit log, waits to be carried by its writer's next I/O command, and
raises vendor event 01h (R137, R138, R142, R147). Flushes that cover the order number end with it (R133). -/
def recordDwe (vol lba cnt a r cause : Nat) (order : Option Nat) (carried : Bool) (s : State) : State :=
  let seq := s.audit.dweTotal + 1
  let wr := if (s.assoc? a).isSome then a else 0
  let e : Dwe := { seq := seq, time := s.time.dev, lba := lba, nsid := vol + 1, cnt := cnt, assoc := wr, row := r,
                   cause := cause, arr := s.arrOf vol }
  let s1 := s.onAudit fun x => { x with dwe := (x.dwe ++ [e]).drop (x.dwe.length + 1 - 256), dweTotal := seq, dweOn := x.dweOn + 1 }
  let s2 := fwEvent 0x02 cause (ssAddr 4 vol 0) s1 seq
  let touch := fun (c : Cmd) => match order with
    | some o => if c.covered.contains o then { c with defErr := some (min seq (c.defErr.getD seq)) } else c
    | none => c
  let s3 := s2.onIo fun i => { i with cmds := i.cmds.map touch }
  if carried then raiseEvent a 7 1 0xC1 (updAssoc a (fun x => { x with deferred := x.deferred ++ [(vol, seq)] }) s3) else s3

/-- The holder raises a deferred write error and stitches it (R138). -/
def raiseDwe (vol lba cnt a r cause : Nat) (order : Option Nat) (s : State) : State :=
  issueStitch 15 (s.arrOf vol) a r [s.audit.dweTotal + 1, lba, vol + 1, cnt, r, cause] (recordDwe vol lba cnt a r cause order true s)

/-- A write that meets a cause before its acknowledgement ends with Write Fault (R527). -/
def writeFault (a r : Nat) (s : State) : State :=
  match s.cmd? a r with
  | some c => finishVia 2 [r, 0, 255, 2, scWriteFault, 0] c scWriteFault 0 0 true s
  | none => s

/-- The writers of buffered blocks meet a cause: an acknowledged write raises a deferred write error, any other ends under
R527; a cause strikes each write once, with the first block and the count of its blocks (R137, R527). -/
def strike (cause : Nat) (blks : List WbBlk) (s : State) : State :=
  let writers := (blks.map fun b => (b.assoc, b.row)).eraseDups
  let s1 := writers.foldl (fun st w =>
    let mine := blks.filter fun b => b.assoc == w.1 && b.row == w.2
    match mine with
    | [] => st
    | b :: _ =>
      let first := mine.foldl (fun m x => min m x.lba) b.lba
      if b.acked then raiseDwe b.vol first mine.length w.1 w.2 cause (some b.order) st else writeFault w.1 w.2 st) s
  let older := ((blks.filter fun b => !b.acked).flatMap fun b => b.older.map fun w => (w, b)).eraseDups
  older.foldl (fun st x => raiseDwe x.2.vol x.2.lba 1 x.1.1 x.1.2 cause (some x.2.order) st) s1

end Sys2Proof.Machine
end

