-- ==== Sys2Proof/Machine/IoPath.lean ====
section
/-! DEFINITION. How commands execute: reads from buffer and drives, writes into the buffer, waiting for the media. -/

namespace Sys2Proof.Machine

/-! ### When a command may execute -/

/-- Commands arriving during the drain or the hold of a SOLO activation are held un-executed (R153, R154). -/
def State.activationHold (s : State) : Bool := s.img.act.isSome && !s.paired

/-- In PS2, and while it is entered, host commands are held un-executed (R431, R432). -/
def State.psHold (s : State) : Bool := s.md.ps == 2 || s.md.psIn != 0

/-- The command of a row may execute now: ordered, in a state, neither held nor suspended. -/
def State.ready (a r : Nat) (st : CmdState) (s : State) : Option Cmd :=
  match s.cmd? a r with
  | some c =>
    if c.st == st && c.ordered && c.hostCopy && s.serves && !s.activationHold && !s.cpHalted c && !s.holdUp
        && !(s.psHold && !c.admin) && c.matchAt.isNone then some c
    else none
  | none => none

/-- The volume and array of an I/O command. -/
def State.target (c : Cmd) (s : State) : Option (Volume × Arr) :=
  match s.cmdVol c with
  | some v => (s.arr? v.arr).map fun a => (v, a)
  | none => none

/-- The association has read or written a volume since its handshake (R147). -/
def sawVol (id vol : Nat) (s : State) : State := updAssoc id (fun a => { a with seenVols := (vol :: a.seenVols).eraseDups }) s

/-- End an I/O command with a status that its drive operation or its execution gives (R286). -/
def endIo (c : Cmd) (sc dw0 dw1 : Nat) (more : Bool) (s : State) : State :=
  if sc == scOk then finishVia 2 [c.row, 0, 255, 0, 0, 0] c sc dw0 dw1 more s
  else finishVia 2 [c.row, 0, 255, 2, sc, 0] c sc dw0 dw1 more s

/-! ### Reads -/

/-- The logical blocks that a read or verify covers. -/
def lbasOf (c : Cmd) : List Nat := (List.range c.sqe.nlb).map (· + c.sqe.slba)

/-- Where a logical block of a direct volume lies: row, data strip, drive LBA, byte in the drive block (R174). -/
def Arr.blockAt (a : Arr) (v : Volume) (lba : Nat) : Option (Nat × Nat × Nat × Nat) :=
  (a.locate v.no (lba * v.bs)).map fun x => (x.1, x.2.1, driveLba a.strip x.1 x.2.2, x.2.2 % 4096)

/-- One logical block out of the drive block that holds it (R175). -/
def sliceBlk (v : Volume) (off : Nat) (b : Blk) : Blk :=
  if v.b512 then { data := b.data / 256 ^ off % 256 ^ 512, pi := 0 } else b

/-- The readable copy of a mirror strip with fewest outstanding drive commands, the lower position on a tie (R172). -/
def State.pickCopy (a : Arr) (ps : List Nat) (s : State) : Option Nat :=
  ps.foldl (fun best p => match best with
    | none => some p
    | some q => if s.outstanding (a.bayOf p) < s.outstanding (a.bayOf q) then some p else best) none

/-- The drive blocks (position, LBA) that reconstruct data strip i of row r at a drive LBA without those in `bad`: another
copy, or the other data strips and as many parity strips as data strips are missing (R191); none when too few are left. -/
def State.reconBlocks (a : Arr) (r i dl : Nat) (bad : List (Nat × Nat)) (s : State) : Option (List (Nat × Nat)) :=
  let pick := fun (ok : Nat → Bool) =>
    if parityStrips a.layout == 0 then (s.pickCopy a ((a.stripPos r i).filter ok)).map fun p => [(p, dl)]
    else
      let data := ((List.range a.d).filter (· != i)).map (dataPos (parityStrips a.layout) a.n r)
      let good := data.filter ok
      let par := ((List.range (parityStrips a.layout)).map (parityPos (parityStrips a.layout) a.n r)).filter ok
      let miss := a.d - good.length
      if par.length < miss then none else some ((good ++ par.take miss).map fun p => (p, dl))
  match pick fun p => a.readable p r && !bad.contains (p, dl) && !s.away (a.bayOf p) with
  | some l => some l
  | none => pick fun p => a.readable p r && !bad.contains (p, dl)

/-- The drive blocks that a read of one logical block of a direct volume needs: its own where a copy is readable, else those
that reconstruct it; none when it cannot be read. -/
def State.needBlocks (a : Arr) (v : Volume) (lba : Nat) (bad : List (Nat × Nat)) (s : State) : Option (List (Nat × Nat)) :=
  match a.blockAt v lba with
  | none => none
  | some (r, i, dl, _) =>
    match s.pickCopy a ((a.stripPos r i).filter fun p => a.readable p r && !bad.contains (p, dl) && !s.away (a.bayOf p)) with
    | some p => some [(p, dl)]
    | none => match s.reconBlocks a r i dl bad with
      | some l => some l
      | none => (s.pickCopy a ((a.stripPos r i).filter fun p => a.readable p r && !bad.contains (p, dl))).map fun p => [(p, dl)]

/-- A logical block of a direct volume lies in the lost-block list (R194). -/
def Arr.lbaLost (a : Arr) (v : Volume) (lba : Nat) : Bool :=
  match a.locate v.no (lba * v.bs) with
  | none => false
  | some (r, i, o) => (a.stripPos r i).any fun p => a.isLost r p (o / 4096)

/-- Issue drive reads for a command: one per run of consecutive blocks of one position, in the volume's read class (R357). -/
def issueReads (c : Cmd) (a : Arr) (cls : Nat) (need : List (Nat × Nat)) (why : DrvWhy) (s : State) : State :=
  let byPos := (List.range a.n).flatMap fun p => (sortNat ((need.filter (·.1 == p)).map (·.2)).eraseDups).map fun l => (p, l)
  (groupRuns byPos).foldl (fun st x =>
    let id := st.io.nextDc
    updCmd c.assoc c.row (fun k => { k with drive := k.drive ++ [id], st := .reading, wait := .drives, dispatched := true })
      (updDc id (fun d => { d with pos := x.1 }) (issueDc (a.bayOf x.1) cls .read x.2.1 x.2.2 why [] st))) s

/-- The strip block at hand for a position and drive LBA. -/
def Cmd.stripBlk (c : Cmd) (p dl : Nat) : Option Blk := (c.strips.find? fun x => x.1 == p && x.2.1 == dl).map (·.2.2)

/-- A drive block of data strip i of row r out of the drive blocks at hand: from a copy, or solved from the row (R191). -/
def solveStrip (a : Arr) (c : Cmd) (r i dl : Nat) : Option Blk :=
  match (a.stripPos r i).findSome? fun p => c.stripBlk p dl with
  | some b => some b
  | none =>
    let p := parityStrips a.layout
    if p == 0 then none
    else
      let data := (List.range a.d).filterMap fun j => (c.stripBlk (dataPos p a.n r j) dl).map fun b => (j, cover b)
      let par := (List.range p).filterMap fun j => (c.stripBlk (parityPos p a.n r j) dl).map fun b => (j, cover b)
      (solveRow a.d data par).map fun xs => uncover (xs.getD i 0)

/-- A logical block out of the drive blocks at hand. -/
def assembleBlk (a : Arr) (v : Volume) (c : Cmd) (lba : Nat) : Option Blk :=
  match a.blockAt v lba with
  | none => none
  | some (r, i, dl, off) => (solveStrip a c r i dl).map (sliceBlk v off)

/-- The map entry of a chunk, 0 when it holds no data (R216, R217). -/
def Volume.entry (v : Volume) (chunk : Nat) : Nat := (assocGet chunk v.map).getD 0

/-- The fields of a map entry: skein, granule offset, granules, RAW (R216). -/
def entryFields (e : Nat) : Nat × Nat × Nat × Bool := (bits e 63 32, bits e 31 12, bits e 11 8 + 1, bit e 7)

/-- A map entry as the module writes it (R216). -/
def makeEntry (skein gran cnt check : Nat) : Nat :=
  skein * 2 ^ 32 + gran * 2 ^ 12 + (cnt - 1) * 2 ^ 8 + (if cnt == 16 then 128 else 0) + check % 64

/-- An entry whose RAW bit disagrees with its granule count is inconsistent (R217). -/
def entryBad (e : Nat) : Bool := let f := entryFields e; e != 0 && (f.2.2.2 != (f.2.2.1 == 16))

/-- The blocks of a chunk that a command still needs, out of its decompressed pieces (R228). -/
def chunkBlks (v : Volume) (need : List Nat) (chunk : Nat) (pieces : List Blk) : List (Nat × Blk) :=
  (need.filter fun l => l * v.bs / 65536 == chunk).map fun l =>
    let o := l * v.bs % 65536
    (l, sliceBlk v (o % 4096) (pieces.getD (o / 4096) {}))

/-- The logical blocks of a command not at hand yet. -/
def Cmd.missing (c : Cmd) : List Nat := (lbasOf c).filter fun l => !c.got.any fun x => x.1 == l

/-- A map page is in the cache (R219). -/
def State.pageCached (vol page : Nat) (s : State) : Bool := s.io.pages.any fun p => p.vol == vol && p.page == page

/-- Where map page p of a packed volume lies in its map extents: row, data strip, byte (R218). -/
def Arr.locateMap (a : Arr) (vol p : Nat) : Option (Nat × Nat × Nat) :=
  (a.ext.findIdx? fun e => e.owner == vol && e.role == 2 && e.index == p / 1048576).map fun x =>
    let o := p % 1048576 * 4096
    (x * extentRows a.width + o / a.width, o % a.width / a.strip, o % a.strip)

/-- A map page that is not cached is read from the map extents: one drive read of 4 KiB (R219). -/
def fetchPage (a : Arr) (v : Volume) (s : State) (p : Nat) : State :=
  match a.locateMap v.no p with
  | none => s
  | some (r, i, o) =>
    match s.pickCopy a ((a.stripPos r i).filter fun q => a.readable q r) with
    | some q => issueDc (a.bayOf q) (s.readClass v.no) .read (driveLba a.strip r o) 1 .other [] s
    | none => s

/-- Read one chunk for a command: entry 0 supplies zeroes, an inconsistent entry is unreadable, else the drive reads of its
granules, one per member touched (R217, R228). -/
def readChunk (c : Cmd) (v : Volume) (a : Arr) (s : State) (chunk : Nat) : State :=
  let e := v.entry chunk
  if e == 0 then
    let z := (c.missing.filter fun l => l * v.bs / 65536 == chunk).map fun l => (l, zeroBlk v)
    updCmd c.assoc c.row (fun k => { k with got := k.got ++ z }) s
  else if entryBad e || v.badMap.any (·.1 == chunk) then updCmd c.assoc c.row (fun k => { k with lost := true }) s
  else
    let f := entryFields e
    let pieces := ((c.missing.filter fun l => l * v.bs / 65536 == chunk).map fun l => l * v.bs % 65536 / 4096).eraseDups
    let grans := if f.2.2.2 then pieces.map (· + f.2.1) else (List.range f.2.2.1).map (· + f.2.1)
    let need := grans.filterMap fun g =>
      let x := a.locateGran f.1 g
      (s.pickCopy a ((a.stripPos x.1 x.2.1).filter fun p => a.readable p x.1)).map fun p => (p, driveLba a.strip x.1 x.2.2)
    let redo := grans.flatMap fun g =>
      let x := a.locateGran f.1 g
      if ((a.stripPos x.1 x.2.1).any fun p => a.readable p x.1) then []
      else (s.reconBlocks a x.1 x.2.1 (driveLba a.strip x.1 x.2.2) []).getD []
    if need.isEmpty && redo.isEmpty then updCmd c.assoc c.row (fun k => { k with lost := true }) s
    else issueReads c a (s.readClass v.no) (need ++ redo) (.chunk c.assoc c.row v.no chunk) s

/-- The chunks that a command still needs. -/
def needChunks (c : Cmd) (v : Volume) : List Nat := (c.missing.map fun l => l * v.bs / 65536).eraseDups

/-- The data of a read are complete or known to be unreadable: its status, then placement (R130, R120, R135). -/
def deliverRead (c : Cmd) (v : Volume) (s : State) : State :=
  let blks := (lbasOf c).map fun l => ((c.got.find? fun x => x.1 == l).map (·.2)).getD {}
  if c.lost then endIo c scUnrecovered 0 0 false s
  else match piErrors v c.sqe 0 blks with
    | some sc => endIo c sc 0 0 false s
    | none =>
      if c.sqe.opcode == 0x0C then endIo c scOk 0 0 false s
      else if c.relayTo then
        sendYarn (s.readClass v.no) (64 + transferLen v c.sqe) (.relayRead c.assoc c.row 0 (c.got.filter fun x => (lbasOf c).contains x.1))
          (updCmd c.assoc c.row (fun k => { k with st := .waitStitch }) s)
      else placeData c (s.readClass v.no) (transferLen v c.sqe) (streamOf v c.sqe blks) scOk s

/-- The repairs of a read of a direct volume: blocks of in-sync members whose reads ended with a read error, with the content
reconstructed for them; none in a row that a drain holds (R191). -/
def mends (c : Cmd) (v : Volume) (a : Arr) : List (Nat × Nat × Nat × Blk) :=
  (((lbasOf c).filterMap (a.blockAt v)).flatMap fun x =>
    let r := x.1; let i := x.2.1; let dl := x.2.2.1
    if a.drains.any (·.row == r) then []
    else ((a.stripPos r i).filter fun p => c.mend.contains (p, dl) && (a.pos.getD p {}).st == .inSync).filterMap fun p =>
      (solveStrip a c r i dl).map fun b => (p, dl, r, b)).eraseDups

/-- The drives of a read of a direct volume have answered: blocks are assembled; what is missing is reconstructed from blocks
that have not failed, in one attempt with LR, and a block repaired on an in-sync member is rewritten in place (R121, R191). -/
def settleDirect (c : Cmd) (v : Volume) (a : Arr) (s : State) : State :=
  let made := c.missing.filterMap fun l => (assembleBlk a v c l).map fun b => (l, b)
  let c1 := { c with got := c.got ++ made }
  let left := c1.missing
  let s1 := updCmd c.assoc c.row (fun k => { k with got := c1.got }) s
  if left.isEmpty then
    deliverRead c1 v ((mends c v a).foldl (fun st f =>
      issueTagged (a.bayOf f.1) 1 .write f.2.1 1 .other [f.2.2.2] [a.rowTag f.1 f.2.2.1] st) s1)
  else
    let needs := left.map fun l => s.needBlocks a v l c.bad
    let want := ((needs.flatMap fun n => n.getD []).filter fun x => (c.stripBlk x.1 x.2).isNone).eraseDups
    if needs.any Option.isNone || want.isEmpty || (c.redone && c.sqe.lr) then deliverRead { c1 with lost := true } v s1
    else issueReads c1 a (s.readClass v.no) want (.recon c.assoc c.row c.sqe.slba c.sqe.nlb 0)
      (updCmd c.assoc c.row (fun k => { k with redone := true }) s1)

/-- The drives of a read of a packed volume have answered. -/
def settlePacked (c : Cmd) (v : Volume) (s : State) : State :=
  if c.missing.isEmpty || c.lost then deliverRead c v s
  else deliverRead { c with lost := true } v s

/-- No drive command of a read is outstanding any more: go on with it. -/
def settleRead (id row : Nat) (s : State) : State :=
  match s.cmd? id row with
  | none => s
  | some c =>
    if !c.drive.isEmpty || c.st != .reading || c.matchAt.isSome || s.suspended c then s
    else match s.target c with
      | none => s
      | some (v, a) => if v.packed then settlePacked c v s else settleDirect c v a s

/-- A read or verify starts: what the buffer does not hold is read from the drives (R35, R135, R228). -/
def startRead (c : Cmd) (s : State) : State :=
  match s.target c with
  | none => endIo c scInternal 0 0 true s
  | some (v, a) =>
    let hits := (lbasOf c).filterMap fun l => (s.wbFind v.no l).map fun b => (l, b.blk)
    let c1 := { c with got := hits }
    let s1 := sawVol c.assoc v.no (updCmd c.assoc c.row (fun k => { k with got := hits, dispatched := true, st := .reading, wait := .drives }) s)
    let miss := c1.missing
    if miss.isEmpty then deliverRead c1 v s1
    else if v.packed then
      let pages := (needChunks c1 v).map (· / 512)
      if pages.any fun p => !s.pageCached v.no p then
        ((pages.filter fun p => !s.pageCached v.no p).eraseDups).foldl (fetchPage a v)
          (updCmd c.assoc c.row (fun k => { k with wait := .mapPage }) s1)
      else settleRead c.assoc c.row ((needChunks c1 v).foldl (readChunk c1 v a) s1)
    else if miss.any (a.lbaLost v) then deliverRead { c1 with lost := true } v s1
    else
      let needs := miss.map fun l => s.needBlocks a v l []
      if needs.any Option.isNone then deliverRead { c1 with lost := true } v s1
      else issueReads c1 a (s.readClass v.no) (needs.flatMap fun n => n.getD []) (.hostRead c.assoc c.row c.sqe.slba c.sqe.nlb)
        (updCmd c.assoc c.row (fun k => { k with redone := needs.any fun n => decide (1 < (n.getD []).length) }) s1)

/-! ### Writes -/

/-- Overlay n bytes of data at an offset. -/
def overlay (acc off n data : Nat) : Nat := acc % 256 ^ off + data % 256 ^ n * 256 ^ off + acc / 256 ^ (off + n) * 256 ^ (off + n)

/-- Bytes of a command's zone range that PUSH has brought, from its start without a gap (R71). -/
def pushedTo (a : Assoc) (c : Cmd) : Nat :=
  match a.zone with
  | some z =>
    let h := z.held.filter (·.row == c.row)
    reachFrom (h.map fun p => (p.off, p.len)) (h.length + 1) c.off - c.off
  | none => 0

/-- The data that PUSH has brought for a command, from the start of its zone range (R92). -/
def pushedData (a : Assoc) (c : Cmd) : Nat :=
  match a.zone with
  | some z => (z.held.filter (·.row == c.row)).foldl (fun acc p => overlay acc p.off p.len p.data) 0 / 256 ^ c.off
  | none => 0

/-- The identities of the caps that a write of n bytes does not fit now: 0 the dirty limit, 1 + array, 100 parity (R388). -/
def State.heldBy (arr n : Nat) (s : State) : List Nat :=
  (((s.caps arr).zip [0, 1 + arr, 100]).filter fun c => decide (c.1.2 < c.1.1 + n)).map (·.2)

/-- The identities of the caps that apply to a write of an array (R388). -/
def State.capIds (arr : Nat) (s : State) : List Nat := ((s.caps arr).zip [0, 1 + arr, 100]).map (·.2)

/-- Dirty bytes that a write would add. -/
def State.writeBytes (c : Cmd) (s : State) : Nat :=
  match s.cmdVol c with
  | some v => c.got.length * v.bs
  | none => 0

/-- A write that became executable earlier still waits on a cap that applies to this write too (R388). -/
def State.behind (c : Cmd) (arr : Nat) (s : State) : Bool :=
  s.io.cmds.any fun k => k.st == .executable && decide (k.execSeq < c.execSeq)
    && (s.heldBy (s.cmdArr k) (s.writeBytes k)).any fun i => (s.capIds arr).contains i

/-- The write of a row enters the write buffer and is acknowledged as R34, R132 and R388 give. -/
def startWrite (c : Cmd) (s : State) : State :=
  match s.target c with
  | none => endIo c scInternal 0 0 true s
  | some (v, a) =>
    let thru := s.tooLarge a.no (s.writeBytes c) || s.writeThrough a.no
    let media := thru || c.sqe.fua
    let s1 := bufferBlocks c v.no c.got thru (sawVol c.assoc v.no s)
    let s2 := if c.sqe.opcode == 0x09 then c.ranges.foldl (fun st r => markCopies v.no r.1 r.2 v.bs st) s1
      else markCopies v.no c.sqe.slba c.sqe.nlb v.bs s1
    let s3 := updAssoc c.assoc (fun x => { x with zone := x.zone.map fun z => { z with held := z.held.filter (·.row != c.row) } }) s2
    let ords := s3.ordersOf c.assoc c.row
    let next : CmdState := if media then .waitMedia else .waitConfirm
    let s4 := updCmd c.assoc c.row (fun k => { k with dispatched := true, covered := ords, blocks := [], got := [], st := next }) s3
    if media && !ords.isEmpty then s4
    else if s.shadowed a.no && !c.confirmed then s4
    else markAcked c.assoc c.row (finish c.assoc c.row scOk 0 0 false s4)

/-- A write may start: no cutover holds its volume, it fits its caps or is too large for one or written through, and no
earlier write waits on any of them (R203, R388). -/
def State.mayStart (c : Cmd) (s : State) : Bool :=
  match s.target c with
  | none => true
  | some (v, a) =>
    !s.io.wtHold.contains v.no
      && (s.writeThrough a.no || s.tooLarge a.no (s.writeBytes c) || (s.fits a.no (s.writeBytes c) && !s.behind c a.no))

/-- A write becomes executable with its blocks; it starts at once when it may (R71, R388). -/
def makeExecutable (c : Cmd) (blks : List (Nat × Blk)) (s : State) : State :=
  let c1 := { c with got := blks, st := .executable, execSeq := s.io.execSeq }
  let s1 := updCmd c.assoc c.row (fun _ => c1) (s.onIo fun i => { i with execSeq := i.execSeq + 1 })
  if s1.mayStart c1 then startWrite c1 s1 else s1

/-! ### Waiting for the media -/

/-- The arrays that a Flush waits for (R133). -/
def State.flushArrs (c : Cmd) (s : State) : List Nat :=
  match nsVol c.sqe.nsid with
  | some v => [s.arrOf v]
  | none => (s.io.arrs.map (·.no)).filter fun n => s.acts n

/-- A Flush ends: with a deferred error if it met one; its own association's error is not carried again (R133, R138). -/
def endFlush (c : Cmd) (s : State) : State :=
  match c.defErr with
  | none => endIo c scOk 0 0 false s
  | some e => endIo c scDeferred (e % 2 ^ 32) (e / 2 ^ 32) true
      (updAssoc c.assoc (fun a => { a with deferred := a.deferred.filter (·.2 != e) }) s)

/-- A Flush whose covered writes are on media issues an NVMe Flush to each member drive with a volatile write cache, and
ends when all have completed (R133). -/
def flushDrives (c : Cmd) (s : State) : State :=
  let bays := ((s.flushArrs c).flatMap fun n => match s.arr? n with
    | some a => a.bays fun p => p.st == .inSync || p.st == .rebuilding || p.st == .resyncing
    | none => []).filter fun b => match s.drive? b with
      | some d => d.vwc
      | none => false
  if bays.isEmpty then endFlush c s
  else
    let ids := (List.range bays.length).map (· + s.io.nextDc)
    updCmd c.assoc c.row (fun k => { k with st := .waiting, drive := ids, drvFlush := bays, covered := [] })
      (bays.foldl (fun st b => issueDc b 6 .flush 0 0 (.hostFlush c.assoc c.row) [] st) s)

/-- Commands that wait for the media and that this unit decides look whether their blocks are clean (R132, R133). -/
def settleMedia (s : State) : State :=
  (s.io.cmds.filter fun c => c.st == .waitMedia && s.decides c).foldl (fun st k =>
    match st.cmd? k.assoc k.row with
    | none => st
    | some c =>
      if !(st.stillDirty c.covered).isEmpty then st
      else if c.sqe.opcode == 0x00 then flushDrives c st
      else markAcked c.assoc c.row (endIo c scOk 0 0 false st)) s

/-- Blocks with these order numbers are on media with their redundancy: they are clean, and a content that a newer one has
followed leaves the buffer (R133, R225). -/
def cleanOrders (ords : List Nat) (s : State) : State :=
  let mine := fun (b : WbBlk) => b.dirty && ords.contains b.order
  let newer := fun (b : WbBlk) => s.io.wb.any fun o => o.vol == b.vol && o.lba == b.lba && o.dirty && decide (b.order < o.order)
  let wash := fun (b : WbBlk) => if mine b then { b with dirty := false, through := false } else b
  s.onIo fun i => { i with wb := (i.wb.filter fun b => !(mine b && newer b)).map wash }

end Sys2Proof.Machine
end

