-- ==== Sys2Proof/Machine/Packed.lean ====
section
/-! DEFINITION. Packed volumes: skeins, row assemblies, commits, the map journal, checkpoints, frogging (chapter 06). -/

namespace Sys2Proof.Machine

/-- First granule of the trailer and index area of a skein (R207). -/
def payloadEnd : Nat := 1044480

/-- Payload granules of a skein (R207). -/
def skeinPayload : Nat := 1044479

/-- Granules that a compressed chunk of a stream length takes: 16 for a raw chunk (R213). -/
def chunkGranules (prot : Bool) (streamLen : Nat) : Nat := min 16 (ceilDiv ((if prot then 304 else 48) + streamLen) 4096)

/-- The row of a granule within its array (R207). -/
def Arr.granRow (a : Arr) (x g : Nat) : Nat := (a.locateGran x g).1

/-- The first granule of the row after that of granule g (R224). -/
def Arr.nextRowGran (a : Arr) (g : Nat) : Nat := (g * 4096 / a.width + 1) * (a.width / 4096)

/-- Update one extent of an array. -/
def updExt (arr x : Nat) (f : Ext → Ext) (s : State) : State := updArr arr (fun a => { a with ext := a.ext.modify x f }) s

/-! ### Map journal and checkpoints (R220, R249, R250) -/

/-- Groups of at most 169 records, with fuel (R249). -/
def inBlocks {α : Type} : Nat → List α → List (List α)
  | 0, _ => []
  | n + 1, l => if l.isEmpty then [] else l.take 169 :: inBlocks n (l.drop 169)

/-- One journal block is written to every live keeper and the vault; answers with the drive commands queued (R249). -/
def journalBlock (arr : Nat) (s : State) (recs : List JRec) : State :=
  match s.arr? arr with
  | none => s
  | some a =>
    let q := a.jSeq
    let ids := (List.range a.liveBays.length).map (· + s.io.nextDc)
    a.liveBays.foldl (fun st b => issueTagged b 6 .write (262144 + q % 262144) 1 (.journal arr q) [byteBlk (journalBytes q recs)] [reservedTag a] st)
      (updArr arr (fun x => { x with
                                    jSeq := q + 1, jRecs := x.jRecs ++ recs.map fun r => { r with blk := q },
                                    jWait := x.jWait ++ ids }) s)

/-- Journal records are written in stitch order (R220, R249). -/
def journal (arr : Nat) (recs : List JRec) (s : State) : State := (inBlocks recs.length recs).foldl (journalBlock arr) s

/-- Cached pages of an array's volumes. -/
def State.arrPages (arr : Nat) (s : State) : List MapPage := s.io.pages.filter fun p => s.arrOf p.vol == arr

/-- A checkpoint begins: a kind 2 record, then every map page changed before it is written (R220, R250). -/
def startCheckpoint (arr : Nat) (s : State) : State :=
  match s.arr? arr with
  | none => s
  | some a =>
    if a.ckptRun.isSome then s
    else
      let n := a.ckpt + 1
      let s1 := journal arr [{ kind := 2, value := n }] (updArr arr (fun x => { x with ckptRun := some a.jSeq, ckptAt := s.now }) s)
      let pages := (s1.arrPages arr).filter (·.dirty)
      let s2 := s1.onIo fun i => { i with pages := updWhere (fun p => p.dirty && s1.arrOf p.vol == arr) (fun p => { p with ck := true }) i.pages }
      let one := fun (st : State) (p : MapPage) => match a.locateMap p.vol p.page with
        | none => st
        | some (r, i, o) =>
          let ps := a.stripPos r i ++ (List.range (parityStrips a.layout)).map (parityPos (parityStrips a.layout) a.n r)
          let regs := (a.rowRegions r)
          let page := ((s1.vol? p.vol).elim [] fun v => [byteBlk (mapPage v p.page)])
          (ps.filter a.writable).foldl (fun t q => issueTagged (a.bayOf q) 6 .write (driveLba a.strip r o) 1 (.metaData arr)
              (if (a.parityAt q r).isSome then [] else page) [a.rowTag q r] t)
            (updArr arr (fun x => { x with bits := (x.bits ++ regs).eraseDups }) st)
      issueStitch 11 arr 0 0 [n, 0] (pages.foldl one s2)

/-- The map journal has reached half of its area: a checkpoint begins (R220). -/
def checkJournal (arr : Nat) (s : State) : State :=
  match s.arr? arr with
  | some a => if 131072 ≤ a.jSeq - a.replay then startCheckpoint arr s else s
  | none => s

/-- A map change enters the cache (R219). -/
def touchPage (vol page : Nat) (s : State) : State :=
  let p : MapPage := { vol := vol, page := page, dirty := true, used := s.now }
  s.onIo fun i => { i with pages := p :: i.pages.filter fun q => !(q.vol == vol && q.page == page) }

/-- A page read from the map extents enters the cache in place of the least recently used clean page (R219). -/
def cachePage (vol page : Nat) (s : State) : State :=
  let p : MapPage := { vol := vol, page := page, used := s.now }
  let old := (s.io.pages.filter fun q => !q.dirty && !q.ck).foldl (fun b q => match b with
    | none => some q
    | some x => if q.used < x.used then some q else b) (none : Option MapPage)
  let room := if s.io.pages.length < 6291456 then s.io.pages
    else match old with
      | some x => s.io.pages.filter (· != x)
      | none => s.io.pages
  if s.pageCached vol page || 6291456 ≤ room.length then s else s.onIo fun i => { i with pages := p :: room }

/-- Set a map entry: the old place becomes dead, the new one live (R225, R227). -/
def setEntry (vol chunk e : Nat) (s : State) : State :=
  match s.vol? vol with
  | none => s
  | some v =>
    let old := entryFields (v.entry chunk)
    let new := entryFields e
    let s1 := if v.entry chunk == 0 then s else updExt v.arr old.1 (fun x => { x with live := x.live - old.2.2.1 }) s
    let s2 := if e == 0 then s1 else updExt v.arr new.1 (fun x => { x with live := x.live + new.2.2.1 }) s1
    touchPage vol (chunk / 512) (updVol vol (fun w => { w with
      map := if e == 0 then w.map.filter (·.1 != chunk) else assocSet chunk e w.map
      badMap := w.badMap.filter (·.1 != chunk) }) s2)

/-! ### Open skeins (R230) -/

/-- The open skein of a volume: host or frog (R230). -/
def Arr.openSkein (a : Arr) (vol : Nat) (frog : Bool) : Option Nat :=
  a.ext.findIdx? fun e => e.owner == vol && e.role == 3 && e.skein == (if frog then .openFrog else .openHost)

/-- A reserved extent of a volume (R208). -/
def Arr.reservedExt (a : Arr) (vol : Nat) : Option Nat := a.ext.findIdx? fun e => e.owner == vol && e.role == 4

/-- A skein is opened in a reserved extent: its header goes with its first row (R230, R252). -/
def openNew (vol : Nat) (frog : Bool) (s : State) : State :=
  match s.vol? vol with
  | none => s
  | some v => match (s.arr? v.arr).bind fun a => a.reservedExt vol with
    | none => s
    | some x => updVol vol (fun w => { w with skSeq := w.skSeq + 1 })
        (updExt v.arr x (fun e => { e with
                                          role := 3, skein := if frog then .openFrog else .openHost, fill := 1, live := 0,
                                          seq := v.skSeq + 1, index2 := [], trailer := false, opened := s.time.dev, openGen := (s.arr? v.arr).elim 0 (·.gen),
                                          frogOpen := frog, ixWait := [] }) s)

/-- Drive writes of one whole skein row, with the chunks placed in it, to every member that takes writes; answers their numbers (R178, R224). -/
def writeRowDrives (a : Arr) (skein row : Nat) (frog : Bool) (why : Nat → DrvWhy) (cs : List Asm) (s : State) : State × List Nat :=
  let ps := (List.range a.n).filter a.writable
  let ids := (List.range ps.length).map (· + s.io.nextDc)
  (ps.foldl (fun st p =>
    let l := skeinStrip a skein row p cs
    issueTagged (a.bayOf p) (if frog then 1 else 3) .write (driveLba a.strip row 0) (a.strip / 4096) (why p) (l.map (·.1)) (l.map (·.2)) st) s, ids)

/-- The rows of an assembly that end at or before a granule leave it and are written (R224). -/
def writeRows (vol skein upTo : Nat) (frog : Bool) (s : State) : State :=
  match s.vol? vol with
  | none => s
  | some v => match s.arr? v.arr with
    | none => s
    | some a =>
      let list := if frog then v.asmFrog else v.asm
      let mine := fun (c : Asm) => c.skein == skein && decide (a.nextRowGran (c.gran + c.cnt - 1) ≤ upTo)
      let rows := (list.filter mine).map (fun c => a.granRow skein (c.gran + c.cnt - 1)) |>.eraseDups
      rows.foldl (fun st r =>
        let cs := (list.filter mine).filter fun c => a.granRow skein (c.gran + c.cnt - 1) == r
        let w := writeRowDrives a skein r frog (.rowWrite v.no skein r) cs st
        let s1 := issueStitch 9 v.arr 0 0 ([vol, skein, r] ++ cs.flatMap fun c => [c.chunk, c.gran, c.cnt, c.engine])
          (markFua w.2 (s.io.wb.any fun b => b.vol == vol && b.through && b.dirty) w.1)
        updVol vol (fun x =>
          let row : RowW := { skein := skein, row := r, chunks := cs, writes := w.2, frog := frog }
          if frog then { x with asmFrog := x.asmFrog.filter (!cs.contains ·), rows := x.rows ++ [row] }
          else { x with asm := x.asm.filter (!cs.contains ·), rows := x.rows ++ [row] }) s1) s

/-- The open skein's unfinished row is written at once, padded blank; the next chunk goes to the next row (R224). -/
def forceRow (vol : Nat) (frog : Bool) (s : State) : State :=
  match s.vol? vol with
  | none => s
  | some v => match s.arr? v.arr with
    | none => s
    | some a => match a.openSkein vol frog with
      | none => s
      | some x =>
        if (if frog then v.asmFrog else v.asm).isEmpty then s
        else
          let g := a.nextRowGran ((a.ext.getD x {}).fill - 1)
          writeRows vol x g frog (updExt v.arr x (fun e => { e with fill := min g payloadEnd }) s)

/-- The trailer of a closed skein is written, as a full row with what else the row holds (R255). -/
def writeTrailer (vol x : Nat) (s : State) : State :=
  match s.vol? vol with
  | none => s
  | some v => match s.arr? v.arr with
    | none => s
    | some a =>
      let w := writeRowDrives a x (a.granRow x 1048575) (a.ext.getD x {}).frogOpen (fun _ => .other) [] s
      updExt v.arr x (fun e => { e with trailer := true, ixWait := [] }) w.1

/-- The rows that hold the records of a closed skein's index are written (R253, R255). -/
def writeIndex (vol x : Nat) (s : State) : State :=
  match s.vol? vol with
  | none => s
  | some v => match s.arr? v.arr with
    | none => s
    | some a =>
      let n := indexGranules (a.ext.getD x {})
      let rows := ((List.range n).map fun k => a.granRow x (payloadEnd + k)).eraseDups
      let put := fun (acc : State × List Nat) (r : Nat) =>
        let w := writeRowDrives a x r (a.ext.getD x {}).frogOpen (fun _ => .index vol x) [] acc.1
        (w.1, acc.2 ++ w.2)
      let w := rows.foldl put (s, [])
      if w.2.isEmpty then writeTrailer vol x s else updExt v.arr x (fun e => { e with ixWait := w.2 }) w.1

/-- A drive write of the index ends; the trailer follows the last one (R255). -/
def indexDone (vol x dc : Nat) (s : State) : State :=
  match s.vol? vol with
  | none => s
  | some v =>
    let wait := ((s.arr? v.arr).elim {} fun a => a.ext.getD x {}).ixWait
    let left := wait.filter (· != dc)
    let s1 := updExt v.arr x (fun e => { e with ixWait := left }) s
    if wait.contains dc && left.isEmpty then writeTrailer vol x s1 else s1

/-- A closed skein whose last row is committed has its index and trailer written (R253, R255). -/
def finishClose (vol x : Nat) (s : State) : State :=
  match s.vol? vol with
  | none => s
  | some v =>
    let e := (s.arr? v.arr).elim {} fun a => a.ext.getD x {}
    if e.owner != vol || e.skein != .closed || e.trailer || !e.ixWait.isEmpty || (v.rows.any fun r => r.skein == x) then s else writeIndex vol x s

/-- A skein closes: its last row is written, and after the commit of its rows its index and its trailer (R230, R253, R255). -/
def closeSkein (vol x : Nat) (frog : Bool) (s : State) : State :=
  let s1 := forceRow vol frog s
  match s1.vol? vol with
  | none => s1
  | some v => finishClose vol x (updExt v.arr x (fun e => { e with skein := .closed, closedAt := s.now, closedDev := s.time.dev }) s1)

/-- Place a chunk of some granules in the open skein: where it does not fit, the skein closes and the next opens (R224,
R230). Rows that it fills are written. -/
def placeChunk (vol : Nat) (c : Asm) (frog : Bool) (s : State) : State :=
  match s.vol? vol with
  | none => s
  | some v =>
    let cur := (s.arr? v.arr).bind fun a => a.openSkein vol frog
    let s1 := match cur with
      | none => openNew vol frog s
      | some x =>
        let fill := (s.arr? v.arr).elim 1 fun a => (a.ext.getD x {}).fill
        if payloadEnd < fill + c.cnt then openNew vol frog (closeSkein vol x frog s) else s
    match s1.arr? v.arr with
    | none => s1
    | some a => match a.openSkein vol frog with
      | none => s1
      | some x =>
        let g := (a.ext.getD x {}).fill
        let c1 := { c with skein := x, gran := g }
        let s2 := updExt v.arr x (fun e => { e with fill := g + c.cnt }) s1
        let s3 := updVol vol (fun w => if frog then { w with asmFrog := w.asmFrog ++ [c1] } else { w with asm := w.asm ++ [c1] }) s2
        let rowStart := (g + c.cnt) * 4096 / a.width * (a.width / 4096)
        writeRows vol x rowStart frog s3

/-- Order numbers of the dirty blocks of a chunk that no drain, assembly or row carries (R223). -/
def State.chunkOrders (v : Volume) (chunk : Nat) (s : State) : List Nat :=
  let busy := s.busyOrders
  (s.io.wb.filter fun b => b.vol == v.no && b.dirty && b.lba * v.bs / 65536 == chunk && !busy.contains b.order).map (·.order)

/-- The whole chunk is buffered as deallocated content: zeroes, with protection information of all FFh bytes (R122, R227). -/
def State.chunkDealloc (v : Volume) (chunk : Nat) (s : State) : Bool :=
  let per := 65536 / v.bs
  (List.range per).all fun i =>
    match s.wbFind v.no (chunk * per + i) with
    | some b => b.dirty && b.blk == zeroBlk v
    | none => decide (v.size / v.bs ≤ chunk * per + i)

/-- A chunk that gets map entry 0 waits for its journal record only (R214, R227). -/
def zeroChunk (vol chunk : Nat) (ords : List Nat) (s : State) : State :=
  match s.vol? vol with
  | none => s
  | some v =>
    let row : RowW := { skein := 65535, row := chunk, chunks := [{ chunk := chunk, skein := 65535, gran := 0, cnt := 0, orders := ords, t := s.now, version := 0 }], jour := true }
    journal v.arr [{ kind := 1, vol := vol, chunk := chunk, value := 0, version := 0 }]
      (updVol vol (fun w => { w with rows := w.rows ++ [row] }) s)

/-- CHUNK_COMPRESSED (R210 to R215, R223, R224, R234): an engine returns a chunk with the length of its stream and the CRC
of its image. A result for a chunk with nothing to drain, or of an engine out of service, is discarded. -/
def execChunkCompressed (vol chunk engine streamLen crc : Nat) (zero : Bool) (s : State) : Host.Outcome State Fault Refusal :=
  .next (match s.vol? vol with
    | none => s
    | some v =>
      let ords := s.chunkOrders v chunk
      let off := (s.arr? v.arr).elim true Arr.offline
      if !v.packed || !s.acts v.arr || off || ords.isEmpty || !s.inService 0x3002 engine then s
      else if (zero && !v.prot) || s.chunkDealloc v chunk then zeroChunk vol chunk ords s
      else
        let asm : Asm := { chunk := chunk, cnt := chunkGranules v.prot streamLen, check := crc % 64, t := s.now, orders := ords,
                           engine := engine }
        placeChunk vol asm false s)

/-- The oldest chunk of an assembly entered it at this time. -/
def oldestAsm (l : List Asm) : Option Nat := l.foldl (fun b c => some (match b with
  | none => c.t
  | some t => min t c.t)) none

/-- ROW_TIMEOUT (R224): the oldest chunk of a row assembly has waited for the row timeout; the row is written as it is. -/
def execRowTimeout (vol : Nat) (frog : Bool) (s : State) : Host.Outcome State Fault Refusal :=
  .next (match s.vol? vol with
    | none => s
    | some v =>
      let lim := (oldestAsm (if frog then v.asmFrog else v.asm)).map (· + s.settingN 0x0586 vol * ms)
      if s.acts v.arr then whenDue lim (fun st => forceRow vol frog (issueStitch 3 v.arr 0 0 [1, vol] st)) s else s)

/-- A row's drive writes are complete: its journal records are written, each with its version (R225, R249, R254). -/
def rowJournal (vol skein row : Nat) (s : State) : State :=
  match s.vol? vol with
  | none => s
  | some v =>
    match v.rows.find? fun r => r.skein == skein && r.row == row with
    | none => s
    | some w =>
      let give := fun (acc : List Asm × Nat) (c : Asm) => match c.frog with
        | some _ => (acc.1 ++ [c], acc.2)
        | none => (acc.1 ++ [{ c with version := acc.2 + 1 }], acc.2 + 1)
      let cs := w.chunks.foldl give ([], v.version)
      let live := cs.1.filter fun c => match c.frog with
        | some e => v.entry c.chunk == e
        | none => true
      let recs : List JRec := live.map fun c =>
        { kind := 1, vol := vol, chunk := c.chunk, value := makeEntry skein c.gran c.cnt c.check, version := c.version }
      journal v.arr recs (updVol vol (fun x => { x with
        version := cs.2,
        rows := updWhere (fun r => r.skein == skein && r.row == row) (fun r => { r with chunks := cs.1, jour := true }) x.rows }) s)

/-- A freed skein returns to RESERVED: its extent is deallocated on every member (R230). -/
def freeSkein (vol x : Nat) (s : State) : State :=
  match s.vol? vol with
  | none => s
  | some v => match s.arr? v.arr with
    | none => s
    | some a =>
      let n := extentRows a.width
      let s1 := (a.bays fun p => p.st != .absent && p.st != .failed).foldl
        (fun st b => issueDc b 1 .dealloc (driveLba a.strip (x * n) 0) (n * (a.strip / 4096)) .other [] st) s
      issueStitch 12 v.arr 0 0 [vol, 3, x, 0]
        (updVol vol (fun w => { w with frog := none, frogLast := 0 })
          (updExt v.arr x (fun e => { e with role := 4, skein := .reserved, fill := 1, live := 0, index2 := [], trailer := false }) s1))

/-- A read that was dispatched on granules of a skein is outstanding (R230, R234). -/
def State.readsSkein (vol : Nat) (s : State) : Bool :=
  s.io.dcs.any fun d => match d.why with
    | .chunk _ _ v _ => v == vol
    | _ => false

/-- The frogging skein is freed once none of its chunks is left live and no read of it is outstanding (R230). -/
def checkFreed (vol : Nat) (s : State) : State :=
  match s.vol? vol with
  | none => s
  | some v => match v.frog with
    | none => s
    | some x =>
      let live := v.map.any fun m => (entryFields m.2).1 == x
      if live || s.readsSkein vol then s else freeSkein vol x s

/-- One committed chunk changes its map entry; a frog copy only where the entry is still the one it moved (R225, R233). -/
def commitChunk (vol skein : Nat) (s : State) (c : Asm) : State :=
  match s.vol? vol with
  | none => s
  | some v =>
    let e := if c.cnt == 0 then 0 else makeEntry skein c.gran c.cnt c.check
    let add := if c.cnt == 0 then s else updExt v.arr skein (fun x => { x with index2 := x.index2 ++ [(c.chunk, e, c.version)] }) s
    match c.frog with
    | some old => if v.entry c.chunk == old then setEntry vol c.chunk e add else add
    | none => cleanOrders c.orders (setEntry vol c.chunk e add)

/-- A row write failed beyond the layout's tolerance: it is written again in a new row, and a second failure raises a
deferred write error of cause 2 for its writes (R225). -/
def rowFailed (v : Volume) (w : RowW) (s : State) : State :=
  let s1 := updVol v.no (fun x => { x with rows := x.rows.filter (· != w) }) s
  if w.again then
    let ords := w.chunks.flatMap (·.orders)
    let blks := s1.io.wb.filter fun b => b.dirty && ords.contains b.order
    settleMedia ((strike 2 blks s1).onIo fun i => { i with wb := i.wb.filter fun b => !(b.dirty && ords.contains b.order) })
  else
    let s2 := w.chunks.foldl (fun st c => placeChunk v.no { c with t := s.now } w.frog st) s1
    let s3 := forceRow v.no w.frog s2
    let mark := fun (r : RowW) =>
      if w.chunks.any (fun c => r.chunks.any fun d => d.chunk == c.chunk && d.orders == c.orders) then { r with again := true } else r
    updVol v.no (fun x => { x with rows := x.rows.map mark }) s3

/-- ROW_COMMIT (R225, R226, R230, R233): the row's drive writes and its journal records are in place; its chunks are
committed. A row that failed beyond tolerance is written again. -/
def execRowCommit (vol skein row : Nat) (s : State) : Host.Outcome State Fault Refusal :=
  .next (match s.vol? vol with
    | none => s
    | some v => match s.arr? v.arr, v.rows.find? fun r => r.skein == skein && r.row == row with
      | some a, some w =>
        let tol := if parityStrips a.layout == 0 then copies a.layout - 1 else parityStrips a.layout
        let before := v.rows.any fun r => r.skein == skein && decide (r.row < row) && skein != 65535
        if !s.acts v.arr || !w.writes.isEmpty || before then s
        else if tol < w.failed then finishClose vol skein (rowFailed v w s)
        else if !w.jour || !a.jWait.isEmpty then s
        else
          let s1 := updVol vol (fun x => { x with rows := x.rows.filter (· != w) }) s
          let s2 := w.chunks.foldl (commitChunk vol skein) s1
          let ent := w.chunks.flatMap fun c => [c.chunk, (s2.vol? vol).elim 0 fun x => x.entry c.chunk, c.version]
          let s3 := issueStitch 10 v.arr 0 0 ([vol, skein, row] ++ ent) s2
          checkJournal v.arr (checkFreed vol (settleMedia (finishClose vol skein s3)))
      | _, _ => s)

/-- CHECKPOINT_INTERVAL_EXPIRY (R220): 60 s after the last checkpoint the holder begins the next. -/
def execCheckpointIntervalExpiry (arr : Nat) (s : State) : Host.Outcome State Fault Refusal :=
  .next (match s.arr? arr with
    | none => s
    | some a => if s.acts arr && !a.offline && (s.io.vols.any fun v => v.arr == arr && v.packed)
        then whenDue (some (a.ckptAt + 60 * sec)) (startCheckpoint arr) s else s)

/-- CHECKPOINT_END (R250): every page of the checkpoint is written; a kind 3 record and the ledger header end it, and the
journal is trimmed. -/
def execCheckpointEnd (arr : Nat) (s : State) : Host.Outcome State Fault Refusal :=
  .next (match s.arr? arr with
    | none => s
    | some a => match a.ckptRun with
      | none => s
      | some q =>
        if (s.io.dcs.any fun d => d.why == .metaData arr) || (!a.jWait.isEmpty) || (!s.acts arr) then s
        else
          let s1 := s.onIo fun i => { i with pages := updWhere (fun p => p.ck && s.arrOf p.vol == arr) (fun p => { p with ck := false, dirty := false }) i.pages }
          let s2 := journal arr [{ kind := 3, value := a.ckpt + 1 }] s1
          let s3 := updArr arr (fun x => { x with ckpt := a.ckpt + 1, replay := q, ckptRun := none, jRecs := x.jRecs.filter fun r => decide (q ≤ r.blk) }) s2
          issueStitch 11 arr 0 0 [a.ckpt + 1, 1] (ledgerNow arr s3))

/-- Frogging of a volume is urgent: its free payload granules are below the urgent level (R232). -/
def State.frogUrgent (v : Volume) (s : State) : Bool := decide (s.freeGranules v < s.settingN 0x0585 v.no * skeinPayload)

/-- Skeins of a volume that may be frogged: CLOSED, below the live threshold, and old enough unless frogging is urgent
(R231, R232). -/
def State.frogCandidates (v : Volume) (a : Arr) (s : State) : List Nat :=
  (List.range a.ext.length).filter fun x =>
    let e := a.ext.getD x {}
    e.owner == v.no && e.role == 3 && e.skein == .closed && decide (e.live * 100 < s.settingN 0x0582 v.no * skeinPayload)
      && (s.frogUrgent v || decide (e.closedAt + s.settingN 0x0583 v.no * sec ≤ s.now))

/-- FROG_SELECT (R230, R232, R233): the CLOSED skein with the lowest live fraction becomes FROGGING, and its live chunks
enter the open frog skein's row assembly. -/
def execFrogSelect (vol skein : Nat) (s : State) : Host.Outcome State Fault Refusal :=
  .next (match s.vol? vol with
    | none => s
    | some v => match s.arr? v.arr with
      | none => s
      | some a =>
        let cand := s.frogCandidates v a
        let live := fun x => (a.ext.getD x {}).live
        if v.frog.isSome || !s.acts v.arr || a.offline || !(s.frogUrgent v || s.listOpens (0x10000 + vol) 1) || !cand.contains skein || (cand.any fun x => decide (live x < live skein)) then s
        else
          let e := a.ext.getD skein {}
          let s1 := issueStitch 12 v.arr 0 0 [vol, 1, skein, 0]
            (updVol vol (fun w => { w with frog := some skein, frogLast := e.index2.length })
              (updExt v.arr skein (fun x => { x with skein := .frogging }) s))
          let move := fun (st : State) (r : Nat × Nat × Nat) =>
            if v.entry r.1 == r.2.1 then
              let f := entryFields r.2.1
              issueStitch 12 v.arr 0 0 [vol, 2, skein, r.1]
                (placeChunk vol { chunk := r.1, cnt := f.2.2.1, check := r.2.1 % 64, t := s.now, frog := some r.2.1, version := r.2.2 } true st)
            else st
          checkFreed vol (e.index2.foldl move s1))

/-- MAP_PAGE_FETCH (R219): a page of a packed volume's map, as read from the map extents, enters the cache; reads that
waited for it go on. -/
def execMapPageFetch (vol page : Nat) (entries : List (Nat × Nat)) (s : State) : Host.Outcome State Fault Refusal :=
  .next (match s.vol? vol with
    | none => s
    | some v =>
      if !v.packed || s.pageCached vol page then s
      else
        let mine := (entries.filter fun e => e.1 / 512 == page && e.2 != 0)
        let s1 := cachePage vol page (updVol vol (fun w => { w with map := mine ++ w.map.filter fun e => e.1 / 512 != page }) s)
        let waits := s1.io.cmds.filter fun c => c.wait == .mapPage && c.st == .reading && nsVol c.sqe.nsid == some vol && !s.suspended c
        waits.foldl (fun st c => startRead c st) s1)

end Sys2Proof.Machine
end

