-- ==== Sys2Proof/Machine/Aborts.lean ====
section
/-! DEFINITION. Match points, aborts and association resets (R148 to R153), revocation (R100), release and suspension. -/

namespace Sys2Proof.Machine

/-- The Abort command of a row completes: DW0 bit 0 not aborted, bit 1 already completed (R149, R150). -/
def endAbort (id row dw0 : Nat) (s : State) : State :=
  match s.cmd? id row with
  | some c => finishVia 13 [row, if dw0 == 0 then 1 else if bit dw0 1 then 0 else 4, row] c scOk dw0 0 false s
  | none => s

/-- A command whose abort reached the match point gets its final status, and its Abort completes as aborted (R150). -/
def endAborted (c : Cmd) (s : State) : State :=
  let sc := if c.byReset then scReset else scAborted
  let s1 := finishVia 13 [c.row, if c.byReset then 2 else 1, c.abortRow.getD 0] c sc 0 0 false s
  match c.abortRow with
  | some r => endAbort c.assoc r 0 s1
  | none => s1

/-- An abort or an association reset reaches the match point of an outstanding command (R150, R151, R153): drive commands
still queued leave their queues; the command ends at once unless a drive command of a read is outstanding, which it awaits
for at most 1 ms. A command whose completion has reached its match point is left; one that is suspended waits for its resumption (R501). -/
def reachMatch (id row : Nat) (abortRow : Option Nat) (byReset noResp : Bool) (s : State) : State :=
  match s.cmd? id row with
  | none => s
  | some c =>
    if s.suspended c then updCmd id row (fun k => { k with abortRow := abortRow, byReset := byReset, noResp := k.noResp || noResp }) s
    else if c.st == .waitStitch && !c.relayTo then
      match abortRow with
      | some r => endAbort id r 3 (updCmd id row (fun k => { k with noResp := k.noResp || noResp }) s)
      | none => updCmd id row (fun k => { k with noResp := k.noResp || noResp }) s
    else
      let s1 := s.onIo fun i => { i with dcs := i.dcs.filter fun d => !(c.drive.contains d.id && d.subAt.isNone) }
      let left := c.drive.filter fun d => s1.io.dcs.any fun x => x.id == d
      let c1 := { c with abortRow := abortRow, byReset := byReset, noResp := c.noResp || noResp, drive := left, matchAt := some s.now }
      let s2 := updCmd id row (fun _ => c1) s1
      if left.isEmpty || c.st != .reading then
        endAborted c1 (s2.onIo fun i => { i with dcs := i.dcs.map fun d => if left.contains d.id then { d with why := .other } else d })
      else s2.onIo fun i => { i with dcs := updWhere (fun d => left.contains d.id) (fun d => { d with abortAt := some (s.now + ms) }) i.dcs }

/-- An aborted command whose last drive command has come back ends (R150). -/
def settleAborted (a r : Nat) (s : State) : State :=
  match s.cmd? a r with
  | some c => if c.matchAt.isSome && c.drive.isEmpty && !s.suspended c then endAborted c s else s
  | none => s

/-- A command goes on when its processor resumes: an abort or reset that waited reaches it, an end that waited is given, a read whose
drive commands are complete is delivered (R501). -/
def resumeCmd (s : State) (c : Cmd) : State :=
  let s1 := if c.matchAt.isNone && (c.abortRow.isSome || c.byReset) then reachMatch c.assoc c.row c.abortRow c.byReset c.noResp s else s
  match s1.cmd? c.assoc c.row with
  | none => s1
  | some k =>
    if k.st == .waitStitch && k.waitStitch.isNone then finish k.assoc k.row k.sc k.dw0 k.dw1 k.more s1
    else if k.matchAt.isSome then settleAborted k.assoc k.row s1
    else if k.wait == .mapPage && k.st == .reading then startRead k s1
    else settleRead k.assoc k.row s1

/-- Command processor n has resumed: the commands that waited in its lane are given to it, and its own go on (R501). -/
def resumeCp (n : Nat) (s : State) : State :=
  let s1 := s.onIo fun i => { i with cmds := updWhere (fun c => c.cp == 64 + n / 2) (fun c => { c with cp := n }) i.cmds }
  (s1.io.cmds.filter fun c => c.cp == n && c.tag).foldl resumeCmd s1

/-- Update one core. -/
def updCore (n : Nat) (f : Core → Core) (s : State) : State := s.onDbg fun d => { d with cores := d.cores.modify n f }

/-- A halted core resumes, and with a command processor its commands (R488, R501). -/
def resumeCore (n : Nat) (s : State) : State :=
  if !(s.dbg.cores.getD n {}).halted then s
  else
    let s1 := updCore n Core.resumed s
    if 4 ≤ n then resumeCp (n - 4) s1 else s1

/-- Every core that p holds of resumes. -/
def resumeCores (p : Core → Bool) (s : State) : State :=
  ((List.range 36).filter fun n => p (s.dbg.cores.getD n {})).foldl (fun st n => resumeCore n st) s

/-- The commands of an association in row order. -/
def State.rowsOf (id : Nat) (s : State) : List Nat := sortNat ((s.io.cmds.filter fun c => c.assoc == id).map (·.row))

/-- A command of an association reset: one not dispatched ends Aborted by Reset, a dispatched one as an abort at its match
point (R153). A running self-test is aborted with result 2h (R153). -/
def resetCommand (id : Nat) (noResp : Bool) (s : State) (row : Nat) : State := reachMatch id row none true noResp s

/-- Every command of an association ends as for a reset (R152, R153); one that the partner decides ends with its ABORT stitch (R150,
R412). -/
def resetCommands (id : Nat) (noResp : Bool) (s : State) : State :=
  let mine := fun (r : Nat) => (s.cmd? id r).any s.decides
  ((s.rowsOf id).filter mine).foldl (resetCommand id noResp) (s.onIo fun i => { i with
    cmds := updWhere (fun c => c.assoc == id && !s.decides c) (fun c => { c with byReset := true, noResp := c.noResp || noResp }) i.cmds })

/-- A key that leaves enters the revoked-key list of 64, newest first (R99). -/
def revokeKey (k : Nat) (a : Assoc) : Assoc := { a with revoked := (k :: a.revoked.filter (· != k)).take 64 }

/-- Every window and the zone of an association are revoked at once (R100). -/
def revokeAll (id : Nat) (s : State) : State :=
  updAssoc id (fun a =>
    let keys := a.windows.map (·.key) ++ (match a.zone with
      | some z => [z.key]
      | none => [])
    { keys.foldl (fun x k => revokeKey k x) a with windows := [], zone := none }) s

/-- A self-test that an association started is aborted by its reset: result 2h (R153). -/
def abortSelfTest (p : SelfTest → Bool) (result : Nat) (s : State) : State :=
  match s.io.st with
  | some t => if p t then
      (s.onIo fun i => { i with st := none }).onAudit fun a => { a with selfRes := ((t.code, result, 0) :: a.selfRes).take 20 }
    else s
  | none => s

/-- What an association reset does to the context (R152, R415): windows and zone are revoked, features and the queue count return to their
defaults, shaper and meter buckets are emptied, a self-test of the association is aborted. -/
def resetContext (id : Nat) (s : State) : State :=
  let s1 := abortSelfTest (fun t => t.assoc == id) 2 (revokeAll id s)
  updAssoc id (fun a => { a with
                                feats := [], tempOver := 85, tempUnder := 0, kato := 0, katoAt := none, ioQueues := 1
                                shaper := { credit := 0, t := s.now }, meter := { a.meter with tc := 0, tp := 0, t := s.now } }) s1

/-- An association reset (R152, R415): commands end, then the context is reset. -/
def assocReset (id : Nat) (s : State) : State := resetContext id (resetCommands id false s)

/-- An association is released: its commands end without a RESP, its windows and zone are revoked, and its entry is freed
once no command is outstanding (R66, R68, R100). -/
def releaseAssoc (id : Nat) (s : State) : State :=
  match s.assoc? id with
  | none => s
  | some a =>
    let s1 := if a.responding then issueStitch 16 255 id 0 [3] s else s
    let s2 := updAssoc id (fun x => { x with releasing := true, txWait := [] }) s1
    freeIfDone id (abortSelfTest (fun t => t.assoc == id) 2 (revokeAll id (resetCommands id true s2)))

/-- The association is suspended toward its peer (R66): queued packets leave their queues, retained cells are freed, and
RESPs wait for a resume. -/
def suspend (id : Nat) (s : State) : State :=
  match s.assoc? id with
  | none => s
  | some a =>
    if a.st != .live then s
    else
      let mine := fun (q : QItem) => match q.msg with
        | .vdtRef x _ => x == id
        | _ => false
      let s1 := (s.sw.egress.filter mine).foldl (fun st q => updPort q.port q.cls (fun r => { r with released := r.released + 1 }) st) s
      let s2 := s1.onSw fun w => { w with egress := w.egress.filter fun q => !mine q }
      let resps := a.unacked.filterMap fun p => match p.body with
        | .resp r => some (PktBody.resp r, r.row, p.cls)
        | _ => none
      let s3 := updAssoc id (fun x => { x with st := .suspended, suspAt := s.now, unacked := [], txWait := resps ++ (x.txWait.filter fun w => match w.1 with
        | .resp _ => true
        | _ => false) }) s2
      issueStitch 17 255 id 0 [1] s3

end Sys2Proof.Machine
end

