-- ==== Sys2Proof/Machine/Drain.lean ====
section
/-! DEFINITION. Draining rows in place, the dirty-region bitmap, resynchronisation, rebuild and patrol (R178 to R199). -/

namespace Sys2Proof.Machine

/-! ### The dirty-region bitmap (R180, R181) -/

/-- Region bits are set: in HBM and the vault at once, in the ledgers of the live keepers by a drive write, and at the
marionette by a stitch; absence bitmaps take them too (R180, R187). Regions whose bit was clear wait to be recorded. -/
def setBits (arr : Nat) (regions : List Nat) (s : State) : State :=
  match s.arr? arr with
  | none => s
  | some a =>
    let new := (regions.filter fun g => !a.bits.contains g).eraseDups
    if new.isEmpty then s
    else
      let s1 := updArr arr (fun x => { x with
        bits := x.bits ++ new, bitsVault := (x.bitsVault ++ new).eraseDups, bitWait := x.bitWait ++ new
        pos := x.pos.map fun p => { p with absence := p.absence.map fun l => (l ++ new).eraseDups } }) s
      let s2 := issueStitch 5 arr 0 0 (1 :: new) s1
      writeRegions arr new s2

/-! ### Draining a row (R178, R179) -/

/-- The dirty blocks of a row of a direct volume that no drain carries, with their data strip, offset block and byte. -/
def State.rowBlocks (a : Arr) (v : Volume) (row : Nat) (s : State) : List (WbBlk × Nat × Nat × Nat) :=
  let busy := s.busyOrders
  (s.io.wb.filter fun b => b.vol == v.no && b.dirty && !busy.contains b.order).filterMap fun b =>
    match a.locate v.no (b.lba * v.bs) with
    | some (r, i, o) => if r == row then some (b, i, o / 4096, o % 4096) else none
    | none => none

/-- The oldest dirty block of an array's direct volumes that no drain carries (R178). -/
def State.oldestDirty (arr : Nat) (s : State) : Option Nat :=
  let busy := s.busyOrders
  let direct := fun (b : WbBlk) => match s.vol? b.vol with
    | some v => v.arr == arr && !v.packed
    | none => false
  (s.io.wb.filter fun b => b.dirty && !busy.contains b.order && direct b).foldl (fun m b => match m with
    | none => some b.order
    | some x => some (min x b.order)) none

/-- The parity engine in service with fewest drains (R177). -/
def State.pickParity (a : Arr) (s : State) : Nat :=
  let load := fun k => (a.drains.filter fun d => d.par == k).length
  ((List.range 4).filter fun k => s.inService 0x3003 k).foldl (fun b k => if load k < load b then k else b)
    (((List.range 4).find? fun k => s.inService 0x3003 k).getD 0)

/-- The drive reads (position, offset block) that a drain needs at one offset, with its method (R178): old data and parity
for read-modify-write, the unchanged data for reconstruct-write, everything readable where one of those is not; a block
that 512-byte writes cover in part is read too (R175). -/
def Arr.drainReads (a : Arr) (b512 : Bool) (row : Nat) (new : List (Nat × Nat)) : Method × List Nat :=
  let p := parityStrips a.layout
  let strips := (new.map (·.1)).eraseDups
  let m := writeMethod a.layout a.d strips.length
  let part := if b512 then strips.filter fun i => decide ((new.filter (·.1 == i)).length < 8) else []
  if p == 0 then (m, part.filterMap fun i => (a.stripPos row i).find? fun q => a.readable q row)
  else
    let dp := fun i => dataPos p a.n row i
    let pp := (List.range p).map (parityPos p a.n row)
    let want := match m with
      | .full => part.map dp
      | .readModify => strips.map dp ++ pp
      | _ => (((List.range a.d).filter fun i => !strips.contains i || part.contains i)).map dp
    if want.all fun q => a.readable q row then (m, want)
    else (.reconstruct, (List.range a.n).filter fun q => a.readable q row)

/-- The new data of a strip at an offset of a drain, when its pieces give it: all of a 4,096-byte block, or 512-byte pieces
over the old content. -/
def drainNew (d : Drain) (b512 : Bool) (i off : Nat) (old : Blk) : Option Blk :=
  let l := (d.blks.filter fun x => x.1 == i && x.2.1 == off).map fun x => (x.2.2.1, x.2.2.2)
  if l.isEmpty then none
  else if b512 then some (l.foldl (fun acc x => { acc with data := overlay acc.data x.1 512 x.2.data }) old)
  else l.head?.map (·.2)

/-- An old block read for a drain. -/
def Drain.old (d : Drain) (q off : Nat) : Option Blk := (d.olds.find? fun x => x.1 == q && x.2.1 == off).map (·.2.2)

/-- The data strips of a row at one offset as a drain leaves them: the new ones, and every strip known when the row's old
data are known (R178): (new strips, all strips). -/
def drainData (a : Arr) (b512 : Bool) (d : Drain) (off : Nat) : List (Nat × Blk) × List (Nat × Nat) × (Nat → Blk) :=
  let p := parityStrips a.layout
  let meth := ((d.methods.find? fun x => x.1 == off).map (·.2)).getD 2
  let dp := fun i => dataPos p a.n d.row i
  let olds := (List.range a.d).filterMap fun i => (d.old (dp i) off).map fun b => (i, cover b)
  let pars := (List.range p).filterMap fun j => (d.old (parityPos p a.n d.row j) off).map fun b => (j, cover b)
  let solved := if meth == 2 then solveRow a.d olds pars else none
  let oldOf := fun i => match solved with
    | some xs => uncover (xs.getD i 0)
    | none => (d.old (dp i) off).getD {}
  let news := (List.range a.d).filterMap fun i => (drainNew d b512 i off (oldOf i)).map fun b => (i, b)
  let full := (List.range a.d).filterMap fun i => match news.find? fun x => x.1 == i with
    | some x => some (i, cover x.2)
    | none => match solved with
      | some xs => some (i, xs.getD i 0)
      | none => olds.find? fun x => x.1 == i
  (news, full, oldOf)

/-- The drive blocks (position, offset block, content) that a drain writes at one offset: new data, and the parity that its
method gives (R176, R178). Parity that cannot be computed is left out. -/
def drainBlocks (a : Arr) (b512 : Bool) (d : Drain) (off : Nat) : List (Nat × Nat × Blk) :=
  let p := parityStrips a.layout
  if p == 0 then
    (List.range a.d).flatMap fun i =>
      let ps := a.stripPos d.row i
      let old := (ps.findSome? fun q => d.old q off).getD {}
      match drainNew d b512 i off old with
      | some b => ps.map fun q => (q, off, b)
      | none => []
  else
    let x := drainData a b512 d off
    let data := x.1.map fun y => (dataPos p a.n d.row y.1, off, y.2)
    let parity :=
      if (d.methods.find? fun m => m.1 == off).map (·.2) == some 1 then
        (List.range p).filterMap fun j => (d.old (parityPos p a.n d.row j) off).map fun q =>
          (parityPos p a.n d.row j, off, uncover (x.1.foldl (fun acc y =>
            acc ^^^ gfScaleBlk coverBytes (coef j y.1) (cover y.2 ^^^ cover (x.2.2 y.1))) (cover q)))
      else if x.2.1.length == a.d then
        (List.range p).map fun j => (parityPos p a.n d.row j, off, uncover (parityOf j x.2.1))
      else []
    data ++ parity

/-- The parity of a row at one offset with its lost blocks taken as zero, where every other strip is known (R179, R193). -/
def lostParity (a : Arr) (b512 : Bool) (d : Drain) (lost : List (Nat × Nat)) (off : Nat) : List (Nat × Nat × Blk) :=
  let p := parityStrips a.layout
  let full := ((drainData a b512 d off).2.1).map fun x => if lost.contains (dataPos p a.n d.row x.1, off) then (x.1, 0) else x
  if p == 0 || full.length != a.d then []
  else (List.range p).map fun j => (parityPos p a.n d.row j, off, uncover (parityOf j full))

/-- A drain whose reads are done and whose bits are recorded issues all its writes together; its WRITE-PLAN names them
(R178 to R180, R278). -/
def drainIssue (arr row : Nat) (s : State) : State :=
  match s.arr? arr with
  | none => s
  | some a => match a.drains.find? (·.row == row) with
    | none => s
    | some d =>
      if d.issued || !d.reads.isEmpty || !d.regions.isEmpty then s
      else
        let b512 := (s.vol? d.vol).elim false (·.b512)
        let blks := ((d.methods.map (·.1)).flatMap fun o => drainBlocks a b512 d o).filter fun x => a.writable x.1
        let runs := groupRuns ((List.range a.n).flatMap fun q => (sortNat ((blks.filter (·.1 == q)).map (·.2.1)).eraseDups).map fun l => (q, l))
        let ids := (List.range runs.length).map (· + s.io.nextDc)
        let s1 := runs.foldl (fun st r =>
          let data := (List.range r.2.2).map fun k => ((blks.find? fun x => x.1 == r.1 && x.2.1 == r.2.1 + k).map (·.2.2)).getD {}
          issueTagged (a.bayOf r.1) 3 .write (driveLba a.strip row (r.2.1 * 4096)) r.2.2 (.drainWrite arr row r.1) data
            (data.map fun _ => a.rowTag r.1 row) st) s
        let dcs := ids.zip (runs.map fun r => a.bayOf r.1)
        let through := s.io.wb.any fun b => b.through && d.orders.contains b.order
        let s2 := issueStitch 4 arr 0 0 ([row, d.vol, (d.methods.headD (0, 0)).2, d.par] ++ dcs.flatMap fun x => [x.1, x.2]) (markFua ids through s1)
        updArr arr (fun x => { x with
          drains := updWhere (·.row == row) (fun y => { y with issued := true, writes := ids }) x.drains
          regAct := (a.rowRegions row).map (fun g => (g, s.now)) ++ x.regAct.filter fun g => !(a.rowRegions row).contains g.1 }) s2

/-- DRAIN_ROW (R177, R178, R180, R192): the holder drains a row that holds the oldest dirty block not yet in a drain.
Its drive writes are issued at once when no read and no dirty-region bit has to come first. -/
def execDrainRow (arr vol row : Nat) (s : State) : Host.Outcome State Fault Refusal :=
  .next (match s.arr? arr, s.vol? vol with
    | some a, some v =>
      let blks := s.rowBlocks a v row
      let oldest := s.oldestDirty arr
      let locked := a.jobs.any (·.row == row) || a.drains.any (·.row == row)
        || ((a.rowRegions row).any a.resync.contains && !a.resyncTouched.contains row && a.resyncTgt.isEmpty)
      if v.packed || v.arr != arr || !s.acts arr || a.offline || locked || !(blks.any fun x => some x.1.order == oldest) then s
      else
        let offs := (blks.map fun x => x.2.2.1).eraseDups
        let plan := offs.map fun o => (o, a.drainReads v.b512 row ((blks.filter fun x => x.2.2.1 == o).map fun x => (x.2.1, x.2.2.2)))
        let code := fun (m : Method) => match m with
          | .full => 0
          | .readModify => 1
          | .reconstruct => 2
          | .mirror => 3
        let reads := plan.flatMap fun x => x.2.2.map fun q => (q, driveLba a.strip row (x.1 * 4096))
        let runs := groupRuns ((List.range a.n).flatMap fun q => (sortNat ((reads.filter (·.1 == q)).map (·.2)).eraseDups).map fun l => (q, l))
        let ids := (List.range runs.length).map (· + s.io.nextDc)
        let s1 := runs.foldl (fun st r => issueDc (a.bayOf r.1) 3 .read r.2.1 r.2.2 (.drainRead arr row r.1 r.2.1) [] st) s
        let regs := a.rowRegions row
        let s2 := setBits arr regs s1
        let wait := regs.filter fun g => ((s2.arr? arr).elim [] (·.bitWait)).contains g
        let d : Drain := { row := row, vol := vol, blks := blks.map fun x => (x.2.1, x.2.2.1, x.2.2.2, x.1.blk)
                           orders := blks.map fun x => x.1.order, methods := plan.map fun x => (x.1, code x.2.1)
                           reads := ids, regions := wait, par := s.pickParity a }
        drainIssue arr row (updArr arr (fun x => { x with drains := x.drains ++ [d] }) s2)
    | _, _ => s)

/-- BITMAP_SET_RECORDED (R180, R185, R247): a region's bit has reached every copy; drains that waited for it go on. -/
def execBitmapSetRecorded (arr region : Nat) (s : State) : Host.Outcome State Fault Refusal :=
  .next (match s.arr? arr with
    | none => s
    | some a =>
      let ledger := s.io.dcs.any fun d => d.why == .metaData arr
      let yarn := s.pair.stitches.any fun x => x.kind == 5 && x.arr == arr
      if !a.bitWait.contains region || ledger || yarn || !s.acts arr then s
      else
        let s1 := updArr arr (fun x => { x with
          bitWait := x.bitWait.filter (· != region), bitsLed := (region :: x.bitsLed).eraseDups
          bitsPart := if s.shadowed arr then (region :: x.bitsPart).eraseDups else x.bitsPart
          drains := x.drains.map fun d => { d with regions := d.regions.filter (· != region) } }) s
        (a.drains.map (·.row)).foldl (fun st r => drainIssue arr r st) s1)

/-- A region has no drive write in flight and no dirty data in the write buffer (R181). -/
def State.regionIdle (a : Arr) (region : Nat) (s : State) : Bool :=
  !(a.drains.any fun d => (a.rowRegions d.row).contains region)
    && !(s.io.wb.any fun b => b.dirty && match s.vol? b.vol with
        | some v => v.arr == a.no && !v.packed && (match a.locate v.no (b.lba * v.bs) with
            | some (r, _, _) => (a.rowRegions r).contains region
            | none => false)
        | none => false)

/-- BITMAP_IDLE_EXPIRY (R181): a region idle for 5 s has its bit cleared, in HBM first and then in the vault and ledgers. -/
def execBitmapIdleExpiry (arr region : Nat) (s : State) : Host.Outcome State Fault Refusal :=
  .next (match s.arr? arr with
    | none => s
    | some a =>
      let last := (assocGet region a.regAct).getD 0
      if !a.bits.contains region || a.bitWait.contains region || a.resync.contains region || !s.acts arr || !s.regionIdle a region then s
      else whenDue (some (last + 5 * sec)) (fun st =>
        let s1 := updArr arr (fun x => { x with
          bits := x.bits.filter (· != region), bitsVault := x.bitsVault.filter (· != region)
          bitsLed := x.bitsLed.filter (· != region), bitsPart := x.bitsPart.filter (· != region)
          regAct := x.regAct.filter (·.1 != region) }) st
        writeBits arr 0 region
          (issueStitch 5 arr 0 0 [0, region] (issueStitch 3 arr 0 0 [2, region] s1))) s)

/-- The positions of a row that did not take its writes: absent, failed, or failed in this drain. -/
def Arr.rowMissing (a : Arr) (d : Drain) : List Nat := (List.range a.n).filter fun q => !a.writable q || d.failed.contains q

/-- The new data blocks (position, offset block) of a drain that no member took (R179). -/
def drainLost (a : Arr) (d : Drain) : List (Nat × Nat) :=
  let miss := a.rowMissing d
  (d.blks.filterMap fun x =>
    let ps := a.stripPos d.row x.1
    if ps.all miss.contains then (ps.head?).map fun q => (q, x.2.1) else none).eraseDups

/-- DRAIN_ROW_COMPLETE (R137, R179, R195, R527): every write of a drained row has completed or failed. Within tolerance the
row's data are durable; beyond it new blocks that no member took are lost with cause 1, otherwise the row stands without
its redundancy, cause 3. -/
def execDrainRowComplete (arr row : Nat) (s : State) : Host.Outcome State Fault Refusal :=
  .next (match s.arr? arr with
    | none => s
    | some a => match a.drains.find? (·.row == row) with
      | none => s
      | some d =>
        if !d.issued || !d.writes.isEmpty then s
        else
          let tol := parityStrips a.layout
          let miss := a.rowMissing d
          let lost := if tol == 0 then drainLost a d else if tol < miss.length then drainLost a d else []
          let noPar := tol != 0 && (decide (tol < miss.length) || (d.methods.any fun o =>
            !((drainBlocks a ((s.vol? d.vol).elim false (·.b512)) d o.1).any fun x =>
              (List.range tol).any fun j => parityPos tol a.n row j == x.1)))
          let mine := s.io.wb.filter fun b => b.dirty && d.orders.contains b.order
          let s1 := updArr arr (fun x => { x with
            drains := x.drains.filter (·.row != row)
            regAct := (a.rowRegions row).map (fun g => (g, s.now)) ++ x.regAct.filter fun g => !(a.rowRegions row).contains g.1
            patrolRep := x.patrolRep.filter fun r => !(r.row == row && r.reported) }) s
          if !lost.isEmpty then
            let kind6 := lost.filter fun x => a.writable x.1 && !d.failed.contains x.1
            let par := ((lost.map (·.2)).eraseDups.flatMap (lostParity a ((s.vol? d.vol).elim false (·.b512)) d lost)).filter fun x =>
              a.writable x.1 && !d.failed.contains x.1
            let out := kind6.map (fun x => (x.1, x.2, ({} : Blk), a.lostTag x.1 row)) ++ par.map fun x => (x.1, x.2.1, x.2.2, a.rowTag x.1 row)
            let s2 := strike 1 mine s1
            let s3 := out.foldl (fun st x => issueTagged (a.bayOf x.1) 3 .write (driveLba a.strip row (x.2.1 * 4096)) 1 .other [x.2.2.1] [x.2.2.2] st)
              (loseBlocks arr row 4 lost s2)
            settleMedia (s3.onIo fun i => { i with wb := i.wb.filter fun b => !(b.dirty && d.orders.contains b.order) })
          else
            let taken := d.blks.map fun x => (a.stripPos row x.1, x.2.1)
            let s2 := updArr arr (fun x => { x with
              lost := taken.foldl (fun l t => t.1.foldl (fun m q => unlose row q t.2 m) l) x.lost }) s1
              |> writeLost arr a.lost
            let s3 := if noPar then strike 3 mine s2 else s2
            settleMedia (cleanOrders d.orders s3))

end Sys2Proof.Machine
end

