-- ==== Sys2Proof/Machine/Rows.lean ====
section
/-! DEFINITION. Rows under their lock: resynchronisation, rebuild and patrol (R183, R184, R188, R190 to R193, R196 to R199). -/

namespace Sys2Proof.Machine

/-! ### Resynchronisation and rebuild (R183, R184, R190, R193) -/

/-- The first and last row that hold a byte of a region (R180). -/
def Arr.regionRows (a : Arr) (g : Nat) : Nat × Nat := (g * 268435456 / a.width, ((g + 1) * 268435456 - 1) / a.width)

/-- Rows of an array's allocated extents end here. -/
def Arr.rowEnd (a : Arr) : Nat := a.ext.length * extentRows a.width

/-- The first row from r on that lies in an allocated extent (R190). -/
def Arr.allocRow (a : Arr) (r : Nat) : Nat :=
  let x := a.rowExt r
  if (a.ext.getD x {}).role != 0 then r
  else match ((List.range a.ext.length).find? fun y => decide (x < y) && (a.ext.getD y {}).role != 0) with
    | some y => y * extentRows a.width
    | none => a.rowEnd

/-- The next row of the running resynchronisation: on in the lowest region, or its first row (R183). -/
def Arr.nextResync (a : Arr) : Option Nat :=
  match sortNat a.resync with
  | [] => none
  | g :: _ =>
    let f := a.regionRows g
    match a.resyncRow with
    | some r => some (if f.1 ≤ r ∧ r ≤ f.2 then r else f.1)
    | none => some f.1

/-- The position that a data strip's loss is listed under (R248). -/
def Arr.lossPos (a : Arr) (row i : Nat) : Nat := (a.stripPos row i).headD 0

/-- The data strip of a row that a position holds. -/
def Arr.dataAt (a : Arr) (q row : Nat) : Option Nat := (List.range a.d).find? fun i => (a.stripPos row i).contains q

/-- The job of a row and kind. -/
def Arr.job? (a : Arr) (row kind : Nat) : Option RowJob := a.jobs.find? fun j => j.row == row && j.kind == kind

/-- Change the job of a row and kind. -/
def updJob (arr row kind : Nat) (f : RowJob → RowJob) (s : State) : State :=
  updArr arr (fun a => { a with jobs := updWhere (fun j => j.row == row && j.kind == kind) f a.jobs }) s

/-- What a job has read of a position at an offset, unless it is unreadable or to be repaired. -/
def RowJob.got (j : RowJob) (q o : Nat) : Option Blk :=
  if j.unread.contains (q, o) then none else (j.olds.find? fun x => x.1 == q && x.2.1 == o).map (·.2.2)

/-- Data strips of a row, by number, whose copies or position a job reads: those of a mirror set with something to write, all of
a parity row. -/
def Arr.jobStrips (a : Arr) (j : RowJob) : List Nat :=
  (List.range a.d).filter fun i =>
    if parityStrips a.layout != 0 then true
    else match j.kind with
      | 2 => (a.stripPos j.row i).any a.rebuildPos.contains
      | 3 => (a.stripPos j.row i).any fun q => j.unread.any (·.1 == q)
      | _ => true

/-- The rows of a region could not be resynchronised: their parity is not confirmed (R184). -/
def Arr.doubtful (a : Arr) (row : Nat) : Bool := (a.rowRegions row).any a.unconf.contains

/-- The parity strips that a job has of a row at an offset. -/
def Arr.jobPar (a : Arr) (j : RowJob) (o : Nat) : List (Nat × Nat) :=
  let p := parityStrips a.layout
  (List.range p).filterMap fun k => (j.got (parityPos p a.n j.row k) o).map fun b => (k, cover b)

/-- The data strips that a job has of a row at an offset. -/
def Arr.jobData (a : Arr) (j : RowJob) (o : Nat) : List (Nat × Nat) :=
  (List.range a.d).filterMap fun i => ((a.stripPos j.row i).findSome? fun q => j.got q o).map fun b => (i, cover b)

/-- Every data strip of a parity row at an offset, as a job solves it. In a row whose parity is not confirmed, what a missing strip
is solved to must agree with the spare parity, and counts as missing where there is none (R184, R191). -/
def Arr.jobSolve (a : Arr) (j : RowJob) (o : Nat) : Option (List Nat) :=
  let data := a.jobData j o
  let par := a.jobPar j o
  let miss := a.d - data.length
  if miss == 0 || j.kind != 2 || !a.doubtful j.row then solveRow a.d data par
  else match solveRow a.d data (par.take miss) with
    | none => none
    | some xs =>
      let spare := par.drop miss
      if !spare.isEmpty && spare.all fun y => parityOf y.1 ((List.range xs.length).zip xs) == y.2 then some xs else none

/-- The positions whose strips a job reads next: first what the layout needs, then, where blocks stay unknown, what has not been read (R183,
R191). -/
def Arr.jobWants (a : Arr) (j : RowJob) : List Nat :=
  let offs := List.range (a.strip / 4096)
  let can := fun q => a.readable q j.row && !j.tried.contains q
  if parityStrips a.layout == 0 then
    (a.jobStrips j).filterMap fun i =>
      let ps := a.stripPos j.row i
      if offs.any fun o => ps.all fun q => (j.got q o).isNone then ps.find? can else none
  else
    let p := parityStrips a.layout
    let data := ((List.range a.d).map (dataPos p a.n j.row)).filter can
    let par := ((List.range p).map (parityPos p a.n j.row)).filter can
    if j.tried.isEmpty then data ++ (if a.doubtful j.row then par else par.take (a.d - data.length))
    else if offs.any fun o => decide ((a.jobData j o).length + (a.jobPar j o).length < a.d) then data ++ par
    else []

/-- A row needs a member that is neither at hand nor the target, so its parity is left to that member's rebuild (R184). -/
def Arr.jobPutOff (a : Arr) (j : RowJob) : Bool :=
  decide (j.kind < 2) && parityStrips a.layout != 0
    && (List.range a.d).any fun i => let q := dataPos (parityStrips a.layout) a.n j.row i; !a.readable q j.row && !a.resyncTgt.contains q

/-- The positions that a job writes in full: the targets; in a resynchronisation also the parity of a row whose data were all read
(R183, R188, R190). -/
def Arr.jobTargets (a : Arr) (j : RowJob) : List Nat :=
  let p := parityStrips a.layout
  match j.kind with
  | 2 => a.rebuildPos.filter fun q => (a.pos.getD q {}).st == .rebuilding
  | 3 => []
  | _ =>
    let whole := (List.range a.d).all fun i => a.readable (dataPos p a.n j.row i) j.row
    (a.resyncTgt ++ (if p != 0 && whole then (List.range p).map (parityPos p a.n j.row) else [])).eraseDups.filter a.writable

/-- The drive blocks that a job writes at one offset, and the data strips lost there (R183, R191, R193): (position, offset block,
content, marked lost), and lost strips. A resynchronisation loses blocks only to unreadable sectors; what it cannot solve because
members are away it leaves as it is. -/
def Arr.jobBlocks (a : Arr) (j : RowJob) (o : Nat) : List (Nat × Nat × Blk × Bool) × List Nat :=
  let p := parityStrips a.layout
  let bad := (j.unread.filter fun x => x.2 == o && a.readable x.1 j.row).map (·.1)
  let leave := j.kind == 3 || (decide (j.kind < 2) && !j.unread.any (·.2 == o))
  if p == 0 then
    let each := (a.jobStrips j).map fun i =>
      let ps := a.stripPos j.row i
      let tgt := if j.kind < 2 then ps.filter a.writable else ps.filter fun q => (a.jobTargets j).contains q || bad.contains q
      match ps.findSome? fun q => j.got q o with
      | some b => ((tgt.filter fun q => (j.got q o).isNone).map fun q => (q, o, b, a.isLost j.row (a.lossPos j.row i) o), [])
      | none => if leave then ([], []) else ((ps.filter a.writable).map fun q => (q, o, ({} : Blk), true), [i])
    (each.flatMap (·.1), each.flatMap (·.2))
  else
    match a.jobSolve j o with
    | some xs =>
      let val := fun q => match a.dataAt q j.row, a.parityAt q j.row with
        | some i, _ => uncover (xs.getD i 0)
        | none, some k => uncover (parityOf k ((List.range a.d).zip xs))
        | _, _ => {}
      (((a.jobTargets j) ++ bad).eraseDups.map fun q => (q, o, val q, (a.dataAt q j.row).isSome && a.isLost j.row q o), [])
    | none =>
      if leave then ([], [])
      else
        let data := a.jobData j o
        let gone := (List.range a.d).filter fun i => !data.any (·.1 == i)
        let xs := (List.range a.d).map fun i => (i, (assocGet i data).getD 0)
        let zero := (gone.map (dataPos p a.n j.row)).filter a.writable
        let par := (List.range p).filter fun k => a.writable (parityPos p a.n j.row k)
        (zero.map (fun q => (q, o, ({} : Blk), true)) ++ par.map (fun k => (parityPos p a.n j.row k, o, uncover (parityOf k xs), false)), gone)

/-- A pass of a rebuild has reached its last row: positions without rows left are IN-SYNC, the others start the next pass
(R190). -/
def passEnd (arr : Nat) (s : State) : State :=
  match s.arr? arr with
  | none => s
  | some a =>
    let again := a.rebuild2
    let done := a.rebuildPos.filter fun p => !again.any (·.1 == p)
    let s1 := done.foldl (fun st p => targetDone arr p st) s
    if again.isEmpty then updArr arr (fun x => { x with rebuildRow := none, rebuildPos := [], rebuildTail := [] }) s1
    else updArr arr (fun x => { x with rebuildRow := some 0, rebuildPos := again.map (·.1), rebuild2 := [], rebuildTail := again }) s1

/-- Where the running pass ends: at the highest row left to a later pass, or at the last row (R190). -/
def Arr.passLimit (a : Arr) : Nat :=
  if a.rebuildPos.all fun p => a.rebuildTail.any (·.1 == p) then (a.rebuildTail.map (·.2)).foldl max 0 else a.rowEnd

/-- A row under its lock is done: the lock is released, and the resynchronisation or rebuild goes on with the next row (R183, R188, R190,
R192). -/
def jobDone (arr row kind : Nat) (s : State) : State :=
  let s1 := updArr arr (fun a => { a with jobs := a.jobs.filter fun j => !(j.row == row && j.kind == kind) }) s
  match s1.arr? arr with
  | none => s1
  | some a =>
    match kind with
    | 0 =>
      if a.nextResync != some row then s1
      else
        let g := (sortNat a.resync).headD 0
        if row < (a.regionRows g).2 then ledgerSoon arr (updArr arr (fun x => { x with resyncRow := some (row + 1) }) s1)
        else
          let left := a.resync.filter (· != g)
          let s2 := ledgerSoon arr (updArr arr (fun x => { x with
            resync := left, resyncRow := if left.isEmpty then none else some (row + 1)
            resyncTouched := x.resyncTouched.filter fun r => (a.rowRegions r).any left.contains }) s1)
          if left.isEmpty then a.resyncTgt.foldl (fun st p => targetDone arr p st) s2 else s2
    | 1 => updArr arr (fun x => { x with resyncTouched := (row :: x.resyncTouched).eraseDups }) s1
    | 2 => match a.rebuildRow with
      | none => s1
      | some r0 =>
        if a.allocRow r0 != row then s1
        else
          let s2 := ledgerSoon arr (updArr arr (fun x => { x with rebuildRow := some (row + 1) }) s1)
          if a.passLimit ≤ a.allocRow (row + 1) then passEnd arr s2 else s2
    | _ => s1

/-- A job goes on when no read of it is outstanding: it reads what it still needs, or writes what it has to, or is done. The strips
that cannot be solved are lost, for reason 2 where an unreadable sector is among the causes (R184, R191, R193). -/
def jobGo (arr row kind : Nat) (s : State) : State :=
  match s.arr? arr with
  | none => s
  | some a => match a.job? row kind with
    | none => s
    | some j =>
      if !j.reads.isEmpty || j.issued then s
      else if a.jobPutOff j then
        jobDone arr row kind (updArr arr (fun x => { x with unconf := (x.unconf ++ a.rowRegions row).eraseDups }) s)
      else
        let want := a.jobWants j
        if !want.isEmpty then
          let ids := (List.range want.length).map (· + s.io.nextDc)
          let s1 := want.foldl (fun st q => issueDc (a.bayOf q) 1 .read (driveLba a.strip row 0) (a.strip / 4096) (.jobRead arr row kind q) [] st) s
          updJob arr row kind (fun x => { x with reads := ids, tried := x.tried ++ want }) s1
        else
          let offs := List.range (a.strip / 4096)
          let out := offs.map fun o => (o, a.jobBlocks j o)
          let lost := (out.flatMap fun x => x.2.2.map fun i => (a.lossPos row i, x.1)).filter fun x => !a.isLost row x.1 x.2
          let by2 := lost.filter fun x => j.unread.any (·.2 == x.2)
          let by1 := lost.filter fun x => !j.unread.any (·.2 == x.2)
          let s1 := loseBlocks arr row 1 by1 (loseBlocks arr row 2 by2 s)
          let blks := (out.flatMap (·.2.1)).filter fun x => a.writable x.1
          let runs := groupRuns ((List.range a.n).flatMap fun q => (sortNat ((blks.filter (·.1 == q)).map (·.2.1)).eraseDups).map fun l => (q, l))
          if runs.isEmpty then jobDone arr row kind s1
          else
            let ids := (List.range runs.length).map (· + s1.io.nextDc)
            let s2 := runs.foldl (fun st r =>
              let mine := (List.range r.2.2).map fun k => ((blks.find? fun x => x.1 == r.1 && x.2.1 == r.2.1 + k).map (·.2.2)).getD ({}, false)
              issueTagged (a.bayOf r.1) 1 .write (driveLba a.strip row (r.2.1 * 4096)) r.2.2 (.jobWrite arr row kind r.1) (mine.map (·.1))
                (mine.map fun x => if x.2 then a.lostTag r.1 row else a.rowTag r.1 row) st) s1
            updJob arr row kind (fun x => { x with writes := ids, issued := true }) s2

/-- A job takes a row under its lock. -/
def startJob (arr : Nat) (j : RowJob) (s : State) : State :=
  jobGo arr j.row j.kind (updArr arr (fun a => { a with jobs := a.jobs ++ [j] }) s)

/-- A drive read of a job ends. A strip that could not be read is read again block by block, to find the blocks that cannot (R193). -/
def jobReadDone (d : DrvCmd) (arr row kind q : Nat) (ok : Bool) (blocks : List Blk) (s : State) : State :=
  match s.arr? arr with
  | none => s
  | some a =>
    let off := d.lba - driveLba a.strip row 0
    let split := !ok && a.readable q row && decide (1 < d.cnt)
    let ids := if split then (List.range d.cnt).map (· + s.io.nextDc) else []
    let s1 := if split then (List.range d.cnt).foldl (fun st k => issueDc d.bay 1 .read (d.lba + k) 1 (.jobRead arr row kind q) [] st) s else s
    jobGo arr row kind (updJob arr row kind (fun j => { j with
      reads := j.reads.filter (· != d.id) ++ ids
      olds := if ok then j.olds ++ ((List.range d.cnt).zip blocks).map fun x => (q, off + x.1, x.2) else j.olds
      unread := if ok || split || !a.readable q row then j.unread else j.unread ++ [(q, off)] }) s1)

/-- A drive write of a job ends; after the last one the row is done. -/
def jobWriteDone (d : DrvCmd) (arr row kind : Nat) (s : State) : State :=
  let s1 := updJob arr row kind (fun j => { j with writes := j.writes.filter (· != d.id) }) s
  match (s1.arr? arr).bind (·.job? row kind) with
  | none => s1
  | some j => if j.issued && j.writes.isEmpty then jobDone arr row kind s1 else s1

/-- RESYNC_ROW (R183, R184, R188, R192): the next row of the lowest region to resynchronise, or a row that a host write touches, is
locked; its parity is recomputed or its copies made equal, and a returning member's strip is written. After the last region the
returning members are IN-SYNC. -/
def execResyncRow (arr row : Nat) (s : State) : Host.Outcome State Fault Refusal :=
  .next (match s.arr? arr with
    | none => s
    | some a =>
      let ahead := (a.rowRegions row).any a.resync.contains && !a.resyncTouched.contains row
        && (s.io.wb.any fun b => b.dirty && match s.vol? b.vol with
          | some v => v.arr == arr && (match a.locate v.no (b.lba * v.bs) with
            | some (r, _, _) => r == row
            | none => false)
          | none => false)
      if !s.acts arr || a.offline || a.drains.any (·.row == row) || a.jobs.any (·.row == row) then s
      else if a.nextResync == some row then
        if a.jobs.any (·.kind == 0) then s
        else if a.resyncTouched.contains row then jobDone arr row 0 s
        else startJob arr { row := row, kind := 0 } s
      else if ahead then startJob arr { row := row, kind := 1 } s
      else s)

/-- REBUILD_ROW (R188, R190, R192, R193): the next row of the rebuild is locked, reconstructed and written to its targets; offsets
with more strips missing or unreadable than the layout tolerates lose their data blocks. After the last row the targets are
IN-SYNC. -/
def execRebuildRow (arr row : Nat) (s : State) : Host.Outcome State Fault Refusal :=
  .next (match s.arr? arr with
    | none => s
    | some a => match a.rebuildRow with
      | none => s
      | some r0 =>
        let r := a.allocRow r0
        if !s.acts arr || a.offline || a.drains.any (·.row == row) || a.jobs.any (fun j => j.row == row || j.kind == 2) then s
        else if a.passLimit ≤ r then passEnd arr s
        else if r != row then s
        else startJob arr { row := row, kind := 2 } s)

/-! ### Patrol (R196 to R199) -/

/-- What patrol does at one offset (R197): nothing, repair one position, or report. `checks` are the positions whose block
fails its check, `names` those that the syndromes or the differing copies name, 255 where they name none. -/
def patrolVerdict (lay : Layout) (checks names : List Nat) : Option (Option Nat) :=
  let tol := if parityStrips lay == 0 then copies lay - 1 else parityStrips lay
  if checks.isEmpty && names.isEmpty then none
  else if tol < checks.length then some none
  else match lay with
    | .p1 => match checks with
      | [q] => some (some q)
      | _ => some none
    | .m2 => match checks with
      | [q] => some (some q)
      | _ => some none
    | .m3 => match checks, names with
      | [q], _ => some (some q)
      | _, [q] => if q == 255 then some none else some (some q)
      | _, _ => some none
    | _ => match names, checks with
      | [q], _ => if q != 255 && checks.all (· == q) then some (some q) else some none
      | [], [q] => some (some q)
      | _, _ => some none

/-- One offset of a patrolled row is repaired or reported, recorded, counted and audited (R199). -/
def patrolOffset (arr row : Nat) (lay : Layout) (s : State) (x : Nat × List (Nat × Bool)) : State :=
  let checks := (x.2.filter (·.2)).map (·.1)
  let names := (x.2.filter fun y => !y.2).map (·.1)
  match patrolVerdict lay checks names with
  | none => s
  | some (some q) =>
    let rep : PatrolRep := { row := row, blk := x.1, mask := 2 ^ q, reported := false, time := s.time.dev }
    issueStitch 8 arr 0 row [row, x.1, 2 ^ q, 0] (fwEvent 0x06 q (ssAddr 3 arr 0)
      (updArr arr (fun a => { a with patrolRep := a.patrolRep ++ [rep], repairs := a.repairs + 1 }) s))
  | some none =>
    let mask := (((checks ++ names).filter (· != 255)).eraseDups.map (2 ^ ·)).sum
    let rep : PatrolRep := { row := row, blk := x.1, mask := mask, reported := true, time := s.time.dev }
    issueStitch 8 arr 0 row [row, x.1, mask, 1] (fwEvent 0x07 0 (ssAddr 3 arr 0)
      (updArr arr (fun a => { a with patrolRep := a.patrolRep ++ [rep], reports := a.reports + 1 }) s))

/-- PATROL_ROW (R196 to R199): the next row of the patrol pass, or a row skipped before, is checked; a row with dirty data
or a drive write in flight is skipped to the end of the pass; repairs are written under the row lock. -/
def execPatrolRow (arr row : Nat) (finding : List (List (Nat × Bool))) (s : State) : Host.Outcome State Fault Refusal :=
  .next (match s.arr? arr with
    | none => s
    | some a =>
      let next := a.allocRow a.patrolRow
      let atEnd := decide (a.rowEnd ≤ next)
      let busy := a.drains.any (·.row == row) || a.jobs.any (·.row == row) || (s.io.wb.any fun b => b.dirty && match s.vol? b.vol with
        | some v => v.arr == arr && !v.packed && (match a.locate v.no (b.lba * v.bs) with
          | some (r, _, _) => r == row
          | none => false)
        | none => false)
      let ok := if atEnd then a.patrolSkip.contains row else next == row
      if !s.acts arr || a.offline || !ok then s
      else
        let go := if busy then s
          else
            let s1 := updArr arr (fun x => { x with patrolRep := x.patrolRep.filter fun r => !(r.row == row && r.reported) }) s
            let found := (List.range finding.length).zip finding
            let fix := found.filterMap fun x => match patrolVerdict a.layout ((x.2.filter (·.2)).map (·.1)) ((x.2.filter fun y => !y.2).map (·.1)) with
              | some (some q) => some (q, x.1)
              | _ => none
            let s2 := found.foldl (patrolOffset arr row a.layout) s1
            if fix.isEmpty then s2 else startJob arr { row := row, kind := 3, unread := fix } s2
        let s2 := updArr arr (fun x =>
          if atEnd then (if busy then x else { x with patrolSkip := x.patrolSkip.filter (· != row) })
          else { x with patrolRow := row + 1, patrolSkip := if busy then x.patrolSkip ++ [row] else x.patrolSkip }) go
        ledgerSoon arr (updArr arr (fun x =>
          if x.rowEnd ≤ x.allocRow x.patrolRow && x.patrolSkip.isEmpty then { x with patrolRow := 0, patrolStart := s.time.dev } else x) s2))

end Sys2Proof.Machine
end

