-- ==== Sys2Proof/Machine/Accept.lean ====
section
/-! DEFINITION. Acceptance and ordering of host commands (R84, R111 to R115, R284 to R288, R526). -/

namespace Sys2Proof.Machine

/-- This unit orders the command: alone, every command; in a pair the responding unit orders admin commands and Flushes of
every namespace, the holder those of its arrays (R113, R284). While an array is being handed over its commands wait (R293). -/
def State.ordersCmd (a : Assoc) (c : Cmd) (s : State) : Bool :=
  let arr := s.cmdArr c
  match s.md.mode with
  | .solo => true
  | .paired => if arr == 255 then a.responding || !(s.inStep || s.inWarm) else (s.lease arr).acting && !s.pair.hand.any fun h => h.arr == arr
  | _ => false

/-- Bytes of a write received without a gap: from PUSH packets, or from H2CData PDUs (R71, R159). -/
def gotTo (a : Assoc) (c : Cmd) : Nat :=
  if a.tcp then reachFrom (c.h2c.map fun p => (p.off, p.len)) (c.h2c.length + 1) 0 else pushedTo a c

/-- The data stream of a write that did not come inline. -/
def gotData (a : Assoc) (c : Cmd) : Nat :=
  if a.tcp then c.h2c.foldl (fun acc p => overlay acc p.off p.len p.data) 0 else pushedData a c

/-- Every byte that a write announces has arrived (R71). -/
def State.writeComplete (a : Assoc) (c : Cmd) (s : State) : Bool :=
  if !c.isWrite || c.inl then true
  else match s.cmdVol c with
    | some v => decide (transferLen v c.sqe ≤ gotTo a c)
    | none => true

/-- The blocks of a complete write (R71, R120). -/
def writeBlocks (a : Assoc) (c : Cmd) (v : Volume) : List Blk := if c.inl then c.blocks else splitBlocks v c.sqe (gotData a c)

/-- The order numbers that a Flush covers: dirty blocks of acknowledged writes of its volume, or of every volume (R133). -/
def State.flushCover (c : Cmd) (s : State) : List Nat :=
  (s.io.wb.filter fun b => b.dirty && b.acked && (c.sqe.nsid == 0xFFFFFFFF || c.sqe.nsid == b.vol + 1)).map (·.order)

/-- The disposition and the status field of an ARRIVAL (R279). -/
def dispOf (v : Verdict) (sc : Nat) : Nat × Nat :=
  match v with
  | .pass => (0, 0)
  | _ =>
    if sc == scTags then (1, 0)
    else if sc == scQueueDepth then (2, 0)
    else if sc == scInternal then (3, 0)
    else if sc == scZoneBusy then (4, 0)
    else (6, sc)

/-- The status that a verdict ends a command with, 0 when it passes. -/
def verdictStatus : Verdict → Nat
  | .pass => scOk
  | .fail sc => sc
  | .violation _ => scWindowViolation
  | .carry _ => scDeferred

/-- A VIOLATION goes with a command refused at its window or zone (R88, R102). -/
def cmdViolation (c : Cmd) (reason : Nat) (s : State) : State :=
  let len := match s.placedLen c with
    | some n => n
    | none => (s.cmdVol c).elim 0 fun v => transferLen v c.sqe
  violate c.assoc reason 1 len c.seq c.key c.off c.row (updAssoc c.assoc (fun a => { a with refusedRx := c.seq :: a.refusedRx }) s)

/-- PUSH data held for a row are discarded (R97, R101). -/
def dropPush (id row : Nat) (s : State) : State :=
  updAssoc id (fun a => { a with zone := a.zone.map fun z => { z with held := z.held.filter (·.row != row) } }) s

/-- A Vendor Mailbox Passthrough of a principal that is no administrator enters the audit log (R124). -/
def refusedPassthrough (a : Assoc) (c : Cmd) (s : State) : State :=
  match c.frame with
  | none => s
  | some f => auditPush { kind := 1, origin := 6, principal := a.principal, opcode := f.opcode, result := 0x0104
                          flags := if f.force then 2 else 0, detail := f.tag } s

/-- A command is ordered: the checks 2 to 14 of R526, the ARRIVAL in a pair, a tag for an accepted command, the final status
for any other (R113, R114, R284). -/
def orderCmd (a : Assoc) (c : Cmd) (s : State) : State :=
  let v := acceptCheck a c c.xlen s
  let sc := verdictStatus v
  let d := dispOf v sc
  let q := c.sqe
  let rng := !c.admin && q.opcode != 0x00 && q.opcode != 0x09
  let fields := [c.row, q.qid, q.cid, q.opcode, c.lane, d.1, c.source, q.nsid, if rng then q.nlb else 0, if rng then q.slba else 0, d.2]
  let arrival := if s.inStep then some s.pair.txStitch else none
  let s1 := issueStitch 1 (s.cmdArr c) a.id c.row fields s
  let err := if !c.admin && q.opcode == 0x00 then carriedError a c else none
  let cov := if !c.admin && q.opcode == 0x00 then s.flushCover c else []
  let count := ((assocGet q.qid a.sqHead).getD 0 + 1) % 1024
  let c1 := { c with ordered := true, arrival := arrival, tag := v == .pass, covered := cov, defErr := err, sqHead := count }
  let s2 := updCmd a.id c.row (fun _ => c1) (updAssoc a.id (fun x => { x with sqHead := assocSet q.qid count x.sqHead }) s1)
  match v with
  | .pass => s2.onAudit fun x => { x with tagsHigh := max x.tagsHigh (s2.io.cmds.filter (·.tag)).length }
  | .fail x =>
    let s3 := if zoneWrite a c then dropPush a.id c.row s2 else s2
    finishAdm c1 x 0 0 (if x == scRole then refusedPassthrough a c s3 else s3)
  | .violation r => finishAdm c1 sc 0 0 (cmdViolation c1 r (if zoneWrite a c then dropPush a.id c.row s2 else s2))
  | .carry e =>
    let s3 := updAssoc a.id (fun x => { x with deferred := x.deferred.filter (·.2 != e) }) s2
    match c1.arrival with
    | some n => finishAfter a.id c.row n sc (e % 2 ^ 32) (e / 2 ^ 32) true s3
    | none => finish a.id c.row sc (e % 2 ^ 32) (e / 2 ^ 32) true s3

/-- A command that has reached its lane is ordered once this unit orders it and, for a write in a pair, its data are
complete (R284). -/
def tryOrder (id row : Nat) (s : State) : State :=
  match s.assoc? id, s.cmd? id row with
  | some a, some c =>
    if c.ordered || s.holdUp || c.st != .accepted || c.twinHold.isSome || !s.ordersCmd a c || (s.paired && !s.writeComplete a c) then s
    else if s.inStep && s.pair.credits == 0 then s
    else orderCmd a c (s.onPair fun p => if s.inStep then { p with credits := p.credits - 1 } else p)
  | _, _ => s

/-- Every unordered command of an array, or of every array, is looked at in order of acceptance (R289, R293). -/
def orderAll (p : Cmd → Bool) (s : State) : State :=
  (s.io.cmds.filter fun c => !c.ordered && p c).foldl (fun st c => tryOrder c.assoc c.row st) s

/-- The volume key of a namespace ID: NSID - 1 for a volume, 0400h otherwise (R339). -/
def volumeKey (nsid : Nat) : Nat := if 1 ≤ nsid && nsid ≤ 1024 then nsid - 1 else 0x400

/-- The command lane of an association's command, by the indirection table of the association's port (R339; the volume key is
hashed most significant byte first, log 18). -/
def State.laneOf (a : Assoc) (nsid : Nat) (s : State) : Nat :=
  ((s.parser a.net).lanes).getD (crc32c (bytesBE 4 a.id ++ bytesBE 2 (volumeKey nsid)) % 1024) 0

/-- The command processor of a lane: the one in service with fewest commands of the lane's two (R25, R341). In SOLO a halted one gets no
new command, and with none left to run the command waits in the lane (R501). -/
def State.pickCp (lane : Nat) (s : State) : Nat :=
  let load := fun k => (s.io.cmds.filter fun c => c.cp == k).length
  let a := 2 * lane
  let b := 2 * lane + 1
  let halted := fun k => s.md.mode == .solo && (s.dbg.cores.getD (4 + k) {}).halted
  let runs := fun k => s.inService 0x3005 k && !halted k
  if runs a && runs b then (if load b < load a then b else a)
  else if runs a then a
  else if runs b then b
  else if halted a || halted b then 64 + lane
  else b

/-- The reaching unit passes a command of a single-sided association, and the data of a write, to the holder; while the yarn is
lost the command ends as R288 gives. -/
def forwardCmd (id row : Nat) (s : State) : State :=
  match s.assoc? id, s.cmd? id row with
  | some a, some c =>
    let arr := s.cmdArr c
    if !s.paired || !a.singleSided || c.ordered || c.dispatched || s.ordersCmd a c || arr == 255 || (s.lease arr).acting then s
    else if s.inStep then
      if !s.writeComplete a c then s
      else
        let blks := if c.isWrite then (s.cmdVol c).elim [] (writeBlocks a c) else []
        sendYarn 3 (128 + 4112 * blks.length) (.forward id row c.cls c.key c.off c.sqe blks)
          (updCmd id row (fun k => { k with dispatched := true, twinWait := none }) s)
    else if a.tcp then finish id row (if (s.lease arr).claimed then scAnaTransition else scAnaInaccessible) 0 0 false s
    else finish id row scInternal 0 0 true s
  | _, _ => s

/-- A host command reaches its lane: it is recorded, and ordered when this unit orders it. In a pair a CMD of a VDT host
without TWIN waits up to 200 ms for its association to become single-sided (R77, R115, R288). An admin command restarts KATO
(R128); a self-test pauses (R157). -/
def acceptCmd (a : Assoc) (c : Cmd) (s : State) : State :=
  let lane := s.laneOf a c.sqe.nsid
  let hold := s.inStep && !a.tcp && !c.twin && !a.singleSided
  let c1 := { c with t := s.now, lane := lane, cp := s.pickCp lane, sqHead := (assocGet c.sqe.qid a.sqHead).getD 0,
                     twinHold := if hold then some (s.now + 200 * ms) else none,
                     twinWait := if s.inStep && !hold then some (s.now + s.settingN 0x0783 * us) else none }
  let abr := if c.admin && c.sqe.opcode == 0x08 then 1 else 0
  let s1 := updAssoc a.id (fun x => { x with
    katoAt := if c.admin && x.kato != 0 then some (s.now + x.kato * ms) else x.katoAt
    stats := { x.stats with abortsRx := x.stats.abortsRx + abr } }) s
  let quiet := c.admin && (c.sqe.opcode == 0x0C || c.sqe.opcode == 0x14)
  let s2 := s1.onIo fun i => { i with
    cmds := i.cmds ++ [c1]
    st := i.st.map fun (x : SelfTest) => if quiet then x else { x with paused := true } }
  forwardCmd a.id c.row (tryOrder a.id c.row (s2.onMd fun m => { m with idleAt := s.now }))

/-- The row's CMD has arrived: the arrival floor rises past it (R84). -/
def rowArrived (row : Nat) (a : Assoc) : Assoc :=
  let l := if a.arrFloor ≤ row && !a.arrRows.contains row then row :: a.arrRows else a.arrRows
  let p := floorUp (l.length + 1) a.arrFloor l
  { a with arrFloor := p.1, arrRows := p.2 }

/-- The holder places a read's data on the reaching unit of a single-sided association (R288). -/
def State.readElsewhere (a : Assoc) (s : State) : Bool := s.paired && a.singleSided && a.partnerSuspended

end Sys2Proof.Machine
end

