-- ==== Sys2Proof/Machine/Pair.lean ====
section
/-! DEFINITION. Leases, witness messages, takeover, loss of the shadow and handover, as shared operations (R258 to R273,
R286 to R293). -/

namespace Sys2Proof.Machine

/-! ### Witness messages -/

/-- The lease duration d, ns (R259). -/
def State.leaseDur (s : State) : Nat := s.settingN 0x0780 * ms

/-- From t_s to the stop point of a lease of duration d: d - 500 us - 200 x 10^-6 d (R268). -/
def actFor (d : Nat) : Nat := d - 500 * us - d / 5000

/-- The stop point of an array's lease, elapsed ns (R268). -/
def State.stopPoint (arr : Nat) (s : State) : Nat := (s.lease arr).ts + actFor (s.lease arr).dur

/-- The existing arrays. -/
def State.arrNos (s : State) : List Nat := s.io.arrs.map (·.no)

/-- Bytes of a witness message's UDP frame (R262, R266). -/
def witnessBytes (addr : Nat) : Nat := 14 + (if isIpv4 addr then 20 else 40) + 8 + 80 + 4

/-- A message for the witness goes on both paths at once: it waits for the poll of the bus, and leaves by the management port
when a witness address is set (R265, R266). -/
def putWitness (m : Nat → OutMsg) (s : State) : State :=
  let s1 := s.onPair fun p => { p with busQ := p.busQ ++ [m 0] }
  if s.cfg.witAddr == 0 || !s.sw.linkUp.getD 8 false then s1
  else enqueue 47 7 (witnessBytes s.cfg.witAddr) (m 1) s1

/-- Send a REQUEST, or a QUERY as kind 0, for an array: the counter rises, and the answer is awaited (R262, R264, R266). A unit
without a key authenticates nothing and sends nothing. -/
def sendWitness (arr kind epoch : Nat) (s : State) : State :=
  if s.cfg.witKey.isNone then s
  else
    let l := s.lease arr
    let c := s.pair.wctr + 1
    let sh := kind != 0 && l.acting && l.shadowed
    let r : WReq := { ctr := c, arr := arr, kind := kind, t := s.now, shadowed := sh, epoch := epoch }
    putWitness (fun path => .witness path kind arr c epoch (s.leaseDur / us) sh)
      (s.onPair fun p => { p with wctr := c, wreqs := p.wreqs ++ [r] })

/-- A renewal with the epoch in force (R269). From the third unanswered one on it also goes over the yarn (R271). -/
def renew (arr : Nat) (s : State) : State :=
  let s1 := sendWitness arr 1 (s.lease arr).epoch s
  if 2 ≤ (s.lease arr).missed && s.yarnUp then
    sendYarn 7 96 (.relay false arr s1.pair.wctr [1, (s.lease arr).epoch, s.leaseDur / us]) s1
  else s1

/-- A claim with an epoch (R267, R273). -/
def claim (arr epoch : Nat) (recovery : Bool) (s : State) : State :=
  updLease arr (fun l => { l with claimed := true, recovery := recovery, waitAt := none }) (sendWitness arr 2 epoch s)

/-- The unit has stored a new epoch in its vault (R269). -/
def putEpoch (arr epoch : Nat) (s : State) : State := updLease arr (fun l => { l with epoch := epoch }) s

/-! ### Losing the shadow -/

/-- Commands that wait for a partner no longer there: a write goes through to the media, any other completion is released
(R290, R299). -/
def releaseWaits (p : Cmd → Bool) (s : State) : State :=
  let thru := fun (b : WbBlk) => s.io.cmds.any fun c =>
    p c && c.st == .waitConfirm && c.assoc == b.assoc && c.row == b.row && b.dirty
  let s1 := s.onIo fun i => { i with
    wb := updWhere thru (fun b => { b with through := true }) i.wb
    cmds := updWhere (fun c => p c && c.st == .waitConfirm) (fun c => { c with st := .waitMedia }) i.cmds }
  let s2 := (s1.io.cmds.filter fun c => p c && c.st == .waitStitch && !c.relayTo).foldl
    (fun st c => finish c.assoc c.row c.sc c.dw0 c.dw1 c.more st) s1
  settleMedia s2

/-- The arrays this unit holds lose their shadow; it renews at once with shadowed = 0 (R269). -/
def loseShadow (s : State) : State :=
  let held := (List.range 8).filter fun n => (s.lease n).acting && (s.lease n).shadowed
  let s1 := held.foldl (fun st n => sendWitness n 1 (st.lease n).epoch (updLease n (fun l => { l with shadowed := false }) st)) s
  releaseWaits (fun _ => true) ((endProof 2 0x010A s1).onPair fun p => { p with stitches := [] })

/-- With the partner gone this unit answers for its associations: admin commands that it held as records are its own to execute (R53, R281, R299). -/
def adoptAdmin (s : State) : State :=
  let held := fun (c : Cmd) => c.admin && c.ordered && c.arrival.isNone && c.st == .waiting && c.hostCopy
    && c.sqe.opcode != 0x0C && c.sqe.opcode != 0xD1 && c.sqe.opcode != 0xD3
  s.onIo fun i => { i with
    assocs := i.assocs.map fun a => if a.tcp then a else { a with responding := true }
    cmds := updWhere held (fun c => { c with st := .accepted, tag := true }) i.cmds }

/-- The unit enters CAST-ON and is to cast on at once (R273, R403). -/
def enterCastOn (s : State) : State :=
  (s.onMd fun m => { m with mode := .castOn, boot := 0 }).onPair fun p => { p with
    castOn := none, castRetry := some s.now, joint := false, apart := false, warm := false }

/-! ### Stopping and taking over -/

/-- The bays of an array's members. -/
def State.arrBays (arr : Nat) (s : State) : List Nat := (s.arr? arr).elim [] fun a => a.bays fun _ => true

/-- The unit stops acting on an array: it orders nothing, submits nothing and sends nothing for it; its outstanding drive
commands are ended by a hot reset of its own ports; commands are kept as records (R270). -/
def stopActing (arr : Nat) (s : State) : State :=
  let bays := s.arrBays arr
  let gone := (s.io.dcs.filter fun d => bays.contains d.bay).map (·.id)
  let s1 := s.onIo fun i => { i with
    dcs := i.dcs.filter fun d => !bays.contains d.bay
    cmds := i.cmds.map fun c => if s.cmdArr c == arr && c.st == .reading then
        { c with st := .waiting, wait := .none, drive := [], got := [], strips := [] } else
        { c with drive := c.drive.filter fun d => !gone.contains d } }
  let s2 := updArr arr Arr.noWrites s1
  let s3 := s2.onIo fun i => { i with vols := updWhere (·.arr == arr) (fun v => { v with asm := [], asmFrog := [], rows := [] }) i.vols }
  updLease arr (fun l => { l with held := false, acting := false, shadowed := false, renewAt := none, claimed := false, byPromise := false, tie := false }) s3

/-- Buffered content, map cache and row assemblies of an array are discarded (R273). Acknowledged writes lost with them raise a
deferred write error of cause 7 (R137). -/
def discardPicture (arr : Nat) (s : State) : State :=
  let mine := fun (b : WbBlk) => s.arrOf b.vol == arr
  let s1 := strike 7 (s.io.wb.filter fun b => mine b && b.dirty && b.acked) s
  let s2 := s1.onIo fun i => { i with wb := i.wb.filter (!mine ·), pages := i.pages.filter fun p => s.arrOf p.vol != arr }
  updArr arr (fun a => { a with resync := (a.resync ++ a.bitsLed).eraseDups, bits := (a.bits ++ a.bitsLed).eraseDups }) s2

/-- The holder executes what it shadowed or held back: shadow records become tags, reads that were not delivered are issued
again, and host copies that no ARRIVAL named are ordered (R287, R289). -/
def resumeCommands (arr : Nat) (s : State) : State :=
  let mine := fun (c : Cmd) => s.cmdArr c == arr
  let s1 := s.onIo fun i => { i with
    cmds := updWhere (fun c => mine c && c.ordered) (fun c => { c with
      tag := true, arrival := none, st := if c.st == .waiting && c.sqe.opcode != 0x0C then .accepted else c.st }) i.cmds }
  let s2 := (s1.io.cmds.filter fun c => mine c && c.ordered && c.isRead && c.st == .accepted).foldl (fun st c => startRead c st) s1
  orderAll mine s2

/-- A unit that gains the lease of an array takes it over (R289): regions set in its bitmap copy are resynchronised, the former
holder's row assembly is dropped, and commands go on. -/
def takeOver (arr : Nat) (wasMarion : Bool) (s : State) : State :=
  let s1 := updArr arr (fun a => { a with drains := [], jobs := [], resync := if wasMarion then (a.resync ++ a.bits).eraseDups else a.resync }) s
  let s2 := s1.onIo fun i => { i with vols := updWhere (·.arr == arr) (fun v => { v with asm := [], asmFrog := [], rows := [] }) i.vols }
  resumeCommands arr (releaseWaits (fun c => s.cmdArr c == arr) s2)

/-- Every array of the shelf is acted on here. -/
def State.holdsAll (s : State) : Bool := s.arrNos.all fun n => (s.lease n).acting

/-- A PAIRED unit that has lost the yarn and holds every array is SOLO (R403). Its associations are single-sided (R288). -/
def checkSolo (s : State) : State :=
  if s.paired && !s.yarnUp && s.holdsAll then
    orderAll (fun _ => true) ((s.onMd fun m => { m with mode := .solo }).onIo fun i => { i with
      cmds := i.cmds.map fun c => { c with twinHold := none, twinWait := none } })
  else s

/-- A lease is gained or renewed: it counts from the first sending of the request that the GRANT answers (R268, R269); a unit that
did not act takes the array over. A new array of a pair is shadowed from its first lease on, and renewed at once to say so
(log 21). A GRANT more than d/4 after t_s is followed by a renewal at once. -/
def gainLease (arr epoch : Nat) (sh : Bool) (ts dur : Nat) (s : State) : State :=
  let l := s.lease arr
  let fresh := !l.acting && !(s.md.mode == .solo && s.pair.soloNoLease && !l.leased)
  let sh1 := sh || (l.stored == 3 && s.paired && s.yarnUp)
  let s1 := updLease arr (fun x => { x with
    held := true, acting := true, epoch := epoch, shadowed := sh1, ts := ts, dur := dur, renewAt := some (ts + dur / 4), missed := 0
    leased := true, byPromise := false, tie := false, claimed := false, recovery := false, marion := false, stored := 1, promised := none, waitAt := none }) s
  let s2 := issueStitch 20 arr 0 0 [epoch, if sh1 then 1 else 0, 255] s1
  let s3 := if fresh then
      let st := if l.recovery then discardPicture arr s2 else s2
      takeOver arr (l.marion && !l.recovery) st
    else s2
  let s4 := if ts + dur / 4 < s.now || sh1 != sh then renew arr s3 else s3
  let s5 := s4.onPair fun p => { p with soloNoLease := p.soloNoLease && s4.arrNos.any fun n => !(s4.lease n).leased }
  checkSolo s5

/-! ### Handover (R293) -/

/-- A handover of an array begins: the holder stops ordering its commands and submitting new drive commands. It needs a
marionette in step; answers whether it has begun. -/
def startHandover (arr : Nat) (mb : Option (Nat × Nat)) (s : State) : State × Bool :=
  if s.shadowed arr && !s.pair.hand.any (fun h => h.arr == arr) && s.yarnUp then
    (s.onPair fun p => { p with hand := p.hand ++ [{ arr := arr, t0 := s.now, mb := mb }] }, true)
  else (s, false)

/-- The holder goes on with an array whose handover is abandoned or refused (R293). -/
def endHandover (arr : Nat) (s : State) : State :=
  orderAll (fun c => s.cmdArr c == arr) (s.onPair fun p => { p with hand := p.hand.filter (·.arr != arr) })

/-- The successor has been granted the array: LEASE is issued, and the former holder becomes its marionette (R293). -/
def handOver (arr epoch : Nat) (s : State) : State :=
  let s1 := issueStitch 20 arr 0 0 [epoch, 0, 1 - s.md.slot] s
  let s2 := stopActing arr (s1.onPair fun p => { p with hand := p.hand.filter (·.arr != arr) })
  updLease arr (fun l => { l with epoch := epoch, marion := true, stored := 2 }) s2

/-- The next array of a running series is handed over, in ascending order (R293, R502). -/
def handNext (s : State) : State :=
  match s.pair.handQ with
  | [] => s
  | n :: rest =>
    if !s.pair.hand.isEmpty then s
    else (startHandover n none (s.onPair fun p => { p with handQ := rest })).1

/-- Every held array is to be handed over: one after the other in ascending order, or all at once in a hold-up; `after` says what
follows (R299, R394, R404, R502). -/
def handAll (after : AfterHand) (s : State) : State :=
  let held := sortNat (s.arrNos.filter fun n => (s.lease n).acting)
  let s1 := s.onPair fun p => { p with after := if p.after.contains after then p.after else p.after ++ [after] }
  if after == .holdUp then held.foldl (fun st n => (startHandover n none st).1) s1
  else handNext (s1.onPair fun p => { p with handQ := held })

/-- Every array this unit holds can be handed over now. -/
def State.canHandAll (s : State) : Bool := s.yarnUp && s.arrNos.all fun n => !(s.lease n).acting || (s.lease n).shadowed

end Sys2Proof.Machine
end

