-- ==== Sys2Proof/Machine/Resets.lean ====
section
/-! DEFINITION. Controller and module resets, SAFE, the drain before MAINTENANCE or POWER-STANDBY, and what follows the last
handover, as shared operations (R404, R408 to R415, R292). -/

namespace Sys2Proof.Machine

/-! ### Pair fault and withdrawal -/

/-- Vendor event 03h, pair fault, on every association (R146, R292, R295). -/
def pairFault (s : State) : State :=
  raiseAll (fun _ => true) 7 3 0xC0 (s.onPair fun p => { p with faultPair := true })

/-! ### SAFE (R403, R408) -/

/-- Every command and association is discarded without a RESP or a stitch (R408, R411). -/
def dropHosts (s0 : State) : State :=
  let s := (s0.io.assocs.filterMap (·.removing)).eraseDups.foldl (fun st o => endOper o 1 0 st) s0
  let s1 := s.onIo fun i => { i with
    cmds := [], assocs := [], st := none
    freed := i.assocs.map (fun a => (a.id, s.now)) ++ i.freed.filter fun f => decide (s.now < f.2 + 60 * sec) }
  let host := fun (q : QItem) => match q.msg with
    | .vdtRef .. => true
    | .ackPkt .. => true
    | .nakPkt .. => true
    | .tcpData .. => true
    | .tcpR2t .. => true
    | .tcpResp .. => true
    | _ => false
  s1.onSw fun w => { w with egress := w.egress.filter fun q => !host q, cached := [], inflight := [], parsers := w.parsers.map fun p => { p with missQ := [], stalled := [] } }

/-- The leases this unit holds are released (R267, R403). -/
def releaseLeases (s : State) : State :=
  ((List.range 8).filter fun n => (s.lease n).acting).foldl
    (fun st n => stopActing n (if (st.lease n).held then sendWitness n 4 (st.lease n).epoch st else st)) s

/-- Entry into SAFE on a condition, a row of R408 counted from 1: leases released, NET links down, hosts discarded, fans at
100 %; the condition is recorded. -/
def enterSafe (cond : Nat) (s : State) : State :=
  if s.md.mode == .safe || s.md.mode == .powerStandby then s
  else
    let s1 := fwEvent 4 cond unitObj (releaseLeases s)
    let s2 := (dropHosts (endProof 2 0x010A s1)).onPair fun p => { p with stitches := [], castOn := none, castRetry := none, hand := [], handQ := [], after := [], soloNoLease := false, joint := false }
    let s3 := s2.onSw fun w => { w with linkUp := w.linkUp.mapIdx fun n u => if n < 8 then false else u }
    let s4 := s3.onBays fun b => { b with fans := b.fans.map (fun f => { f with duty := 100 }), page := 0, lightAt := some (s.now + 60 * sec) }
    s4.onMd fun m => { m with mode := .safe, safe := cond, safeRec := cond, boot := 0, drain := none }

/-! ### Parts (R465, R477 to R484) -/

/-- A part's spare, or the part itself, is back in its place: it is in service (R477, R481). -/
def partReturns (cls inst : Nat) (s : State) : State :=
  let p := s.part cls inst
  let s1 := updPart cls inst (fun x => { x with st := 0, spare := 255, op := none, code := 0, back := false, drainAt := none, change := s.time.dev }) s
  let s2 := if p.spare == 255 then s1 else updPart cls p.spare (fun x => { x with st := 0 }) s1
  if cls == 0x3001 && s.md.ps == 0 && s.md.psIn == 0 then s2.onSw fun w => { w with planes := w.planes.set inst true } else s2

/-- The test of a part is cancelled (R484): its operation ends failed, and the part returns to service unless it had already failed. -/
def cancelTest (s : State) (p : Part) : State :=
  let s1 := match p.op with
    | some op => endOper op 2 0x010A s
    | none => s
  if p.st == 3 || p.st == 4 then updPart p.cls p.inst (fun x => { x with op := none, code := 0 }) s1
  else partReturns p.cls p.inst s1

/-- Every running test of the parts that q names is cancelled. -/
def cancelTests (q : Part → Bool) (s : State) : State :=
  (s.parts.filter fun p => p.code != 0 && (p.st == 1 || p.st == 2 || p.st == 3) && q p).foldl cancelTest s

/-- How many parts of a kind must stay in service (R478); for a pseudo-channel pair those of its stack, the spare included. -/
def fewest : Nat → Option Nat
  | 0x2001 => some 16
  | 0x3001 => some 3
  | 0x3002 => some 28
  | 0x3003 => some 2
  | 0x3005 => some 28
  | 0x3006 => some 1
  | 0x3008 => some 1
  | _ => none

/-- The stack of a pseudo-channel pair (R22, R464). -/
def stackOf (pcp : Nat) : Nat := if pcp < 32 then pcp / 16 else pcp - 32

/-- The instances of a part's kind; for a pseudo-channel pair the pairs of its stack with their spare (R464). -/
def kindInsts (cls inst : Nat) : List Nat :=
  match cls with
  | 0x2001 => ((List.range 16).map fun k => stackOf inst * 16 + k) ++ [32 + stackOf inst]
  | 0x3001 => List.range 4
  | 0x3002 => List.range 32
  | 0x3003 => List.range 4
  | 0x3005 => List.range 32
  | 0x3006 => List.range 8
  | 0x3007 => List.range 24
  | 0x3008 => List.range 2
  | _ => [inst]

/-- Parts of a kind in service. -/
def State.servingParts (cls inst : Nat) (s : State) : Nat := ((kindInsts cls inst).filter fun n => s.inService cls n).length

/-- A part fails (R477, R478, R484): a test of its kind is cancelled, and below the fewest in service the unit enters SAFE. -/
def partFails (cls inst : Nat) (s : State) : State :=
  let s1 := updPart cls inst (fun p => { p with st := 3, passed := false, change := s.time.dev }) s
  let s2 := cancelTests (fun p => p.cls == cls && p.inst != inst) (fwEvent 0x0E 3 (ssAddr cls inst 0) s1)
  match fewest cls with
  | some n => if s2.servingParts cls inst < n then enterSafe 5 s2 else s2
  | none => s2

/-! ### Controller reset (R409, R412, R415) -/

/-- An activation under way ends without a change: phase 0 or 1 in SOLO (R153, R417). A refused entry is written. -/
def dropActivation (s : State) : State :=
  match s.img.act with
  | some (_, _, op) =>
    let e : AEntry := { kind := 1, origin := 7, opcode := 0x0C12, result := 0x010A, obj := unitObj }
    auditPush e (endOper op 2 0x010A (s.onImg fun i => { i with act := none }))
  | none => s

/-- A controller reset: an association reset of every association; command processors lose their halts, breakpoints and
watchpoints; a second one is merged into a running one (R412, R415, R417). -/
def controllerReset (s : State) : State :=
  if (s.md.ctrlReset.any fun t => decide (s.now < t)) then s
  else
    let run := s.onDbg fun d => { d with cores := d.cores.mapIdx fun n c => if 4 ≤ n then {} else c }
    let lanes := run.onIo fun i => { i with cmds := i.cmds.map fun c => if 64 ≤ c.cp then { c with cp := 2 * c.lane } else c }
    let s0 := cancelTests (fun _ => true) (if s.img.act.isSome && !s.paired then dropActivation lanes else lanes)
    let live := (s0.io.assocs.filter fun a => a.st != .halfOpen).map (·.id)
    let one := fun (st : State) (id : Nat) =>
      let s1 := if st.paired then issueStitch 13 255 id 0 [0, 3, 0] st else st
      assocReset id s1
    let s1 := abortSelfTest (fun _ => true) 2 (live.foldl one s0)
    s1.onMd fun m => { m with ctrlReset := some (s.now + 300 * ms) }

/-- The audit entry of the end of a debug session (R488, R495). -/
def sessionEntry (s : State) : State :=
  let k := (s.dbg.unlocked.map (·.1)).getD 0
  auditPush { kind := 2, origin := 4, detail := 0x4006 + k * 65536 + min 255 s.dbg.writes * 16777216 } s

/-! ### Module reset (R409 to R411, R415) -/

/-- What a module reset leaves of an array: members, map, ledger and lost blocks come back from the media; work in flight ends
(R415). Regions with a bit set in the vault or a ledger are resynchronised at start-up (R183). -/
def arrReset (a : Arr) : Arr :=
  { a.noWrites with bits := (a.bitsVault ++ a.bitsLed).eraseDups, hdrAt := none, dumpRate := 0 }

/-- What a module reset leaves of a volume (R415). -/
def volReset (v : Volume) : Volume := { v with asm := [], asmFrog := [], rows := [] }

/-- The package restarts: BOOT; dirty write-buffer data stay (R410), associations, commands, clean data and map cache go, counters
start at 0, the bay channels and drives keep their state but their links go down (R410, R415); device time runs on, unsynchronised (R428). -/
def moduleReset (s0 : State) : State :=
  let s := if s0.dbg.session then sessionEntry s0 else s0
  let s1 := (dropHosts s).onIo fun i => { i with
    arrs := i.arrs.map arrReset, vols := i.vols.map volReset, dcs := [], pages := [], fails := [], lockouts := []
    wb := i.wb.filter (·.dirty), wtHold := [], halfOver := 0
    copies := i.copies.map fun c => { c with assocSt := 0, rows := [], cutTag := none, final := none } }
  let planes := (List.range 4).map fun n => !((s.part 0x3001 n).st == 3 || (s.part 0x3001 n).st == 4)
  let s2 := s1.onSw fun w => { ({} : Sw) with
    planes := planes, gates := w.gates, rate := w.rate
    parsers := w.parsers.map fun p => { ({ port := p.port } : Parser) with
      lanes := p.nextBank.lanes, dscp := p.nextBank.dscp, txDscp := p.nextBank.txDscp, mal := p.nextBank.mal, tcpCls := p.nextBank.tcpCls } }
  let s3 := s2.onPair fun p => { ({} : Pair) with
    leases := p.leases.map fun l => { epoch := l.epoch, stored := l.stored, noClaim := l.noClaim }
    wctr := p.wctr, snapshot := p.snapshot, withdrawn := p.withdrawn, proofLast := p.proofLast }
  let s4 := s3.onMbx fun m => { results := m.results, bad := List.replicate 8 0, slots := m.slots.filter fun x => x.path == 2 && x.ready.isSome }
  let s5 := s4.onAudit fun a => { a with frozen := none, errLog := [], dweOn := 0, abortsDone := 0, orphaned := 0, drvResets := 0, tagsHigh := 0,
                                         leftOut := 0, exporting := none }
  let s6 := s5.onImg fun i => { i with act := none, verifying := none }
  let s7 := s6.onParts fun l => l.map fun p => { p with
    st := if p.st == 1 || p.st == 2 then 0 else p.st, spare := if p.st == 1 || p.st == 2 then 255 else p.spare, op := none, code := 0, back := false, drainAt := none }
  let s8 := s7.onDbg fun d => { cores := d.cores.map fun _ => {}, present := s.dbg.present }
  let s9 := s8.onBays fun b => { b with
    drives := b.drives.map (Option.map fun d => { d with ready := false, linkUp := false, orphans := 0, resetting := none }), modLocate := false
    ch := b.ch.map fun c => { c with locate := false, prep := none, remStep := 0 } }
  let s10 := s9.onTime fun t => { t with st := 0, unsync := true, good := 0, annAt := none, gm := 0, utcPtp := false, leap := none, rates := [] }
  s10.onMd fun m => { m with
                            mode := .boot, boot := 2, safe := 0, t0 := s.now, fw := false, rootLock := false, held := 0, bayNext := 0, bayAt := none,
                            assembled := false, drain := none, standbyAt := none, ps := 0, psIn := 0, psReq := none,
                            psGated := [], ctrlReset := none, resetAfter := false }

/-! ### Leaving service (R404) -/

/-- Steps 2 and 3 of R404: a controller reset, then the drain of all dirty data; request 1 standby, 2 maintenance. -/
def beginLeave (req op : Nat) (s : State) : State :=
  controllerReset (s.onMd fun m => { m with drain := some (req, op) })

/-! ### Debug hold (R498, R500, R502) -/

/-- The state-space address of a core: MC0 to MC3 are cores 0 to 3, CPn is core 4 + n (R464, R492). -/
def coreObj (n : Nat) : Nat := if n < 4 then ssAddr 0x3004 n 0 else ssAddr 0x3005 (n - 4) 0

/-- The state record of a core (R498). -/
def coreRecord (c : Core) : List Nat :=
  [if c.halted then 1 else 0, c.reason, c.idx, 0, 0, 0, 0, 0] ++ bytesLE 8 (c.regs.getD 32 0)

/-- A response of the debug port: it is kept as the answer of its request (R487). -/
def ddpAnswer (q type status : Nat) (payload : List Nat) (s : State) : State :=
  let r : DdpResp := { seq := q, type := type, status := status, payload := payload }
  s.onDbg fun d => { d with lastReq := some (q, r), out := d.out ++ [r] }

/-- An audit entry of the debug port (R495). -/
def debugEntry (code key obj : Nat) (s : State) : State := auditPush { kind := 2, origin := 4, obj := obj, detail := code + key * 65536 } s

/-- The key index of the unlocked session. -/
def State.unlockKey (s : State) : Nat := (s.dbg.unlocked.map (·.1)).getD 0

/-- A core halts: its registers are those of this moment, which the manual does not describe (R497). -/
def haltCore (n reason idx : Nat) (bySession : Bool) (s : State) : State :=
  let k := s.free
  updCore n (fun c => { c with
    halted := true, reason := reason, idx := idx, bySession := bySession
    regs := if c.halted && reason != 2 then c.regs else (List.range 35).map fun i => Config.coreReg k i % 2 ^ 64 }) s.drawn

/-- A debug hold in progress ends without its purpose: handovers not yet requested are given up, and the leases still held are kept (R502). -/
def dropHold (s : State) : State :=
  match s.dbg.hold with
  | none => s
  | some _ =>
    let s1 := (s.onDbg fun d => { d with hold := none }).onPair fun p => { p with
      handQ := if p.after.all (· == .debugHold) then [] else p.handQ
      after := p.after.filter (· != .debugHold) }
    ((s.pair.hand.filter fun h => !h.sent && h.mb.isNone).map (·.arr)).foldl (fun st n => endHandover n st) s1

/-- The debug hold is refused or fails: status 06h, and a core that a breakpoint halted meanwhile resumes (R502, R503). -/
def debugHoldFails (s : State) : State :=
  match s.dbg.hold with
  | none => s
  | some _ => ddpAnswer s.dbg.holdSeq 3 6 [] (resumeCores (·.halted) (dropHold s))

/-- The unit holds no lease: it stops replay, enters CAST-ON and halts the core (R502). -/
def debugHeld (s : State) : State :=
  match s.dbg.hold with
  | none => s
  | some (core, _) =>
    let s1 := (enterCastOn s).onPair fun p => { p with castRetry := none }
    let s2 := debugEntry 0x4003 s.unlockKey (coreObj core) (haltCore core 1 0 true s1)
    ddpAnswer s.dbg.holdSeq 3 0 (coreRecord (s2.dbg.cores.getD core {})) (s2.onDbg fun d => { d with hold := none, held := some s.now, heldBy := core })

/-- The last handover that a purpose waited for has ended: what was waiting follows (R153, R292, R386, R394, R404, R502). -/
def afterHandover (s : State) : State :=
  if !s.pair.hand.isEmpty || !s.pair.handQ.isEmpty || (s.arrNos.any fun n => (s.lease n).acting) then s
  else
    let todo := s.pair.after
    let s0 := s.onPair fun p => { p with after := [], handQ := [] }
    todo.foldl (fun st x => match x with
      | .standby => beginLeave 1 ((st.md.drain.map (·.2)).getD 0) st
      | .maintenance => beginLeave 2 ((st.md.drain.map (·.2)).getD 0) st
      | .activation => st.onImg fun i => { i with act := i.act.map fun a => (3, s.now + 6 * sec, a.2.2) }
      | .moduleReset => moduleReset st
      | .withdraw => enterCastOn st
      | .debugHold => debugHeld st
      | .holdUp => st) s0

/-- What waited for handovers that cannot be made is given up: a module reset follows all the same (R417), a withdrawn unit goes on
to CAST-ON, every other purpose ends with 0109h (R153, R404, R502). -/
def giveUp (s : State) : State :=
  let todo := s.pair.after
  let s0 := s.onPair fun p => { p with after := [], handQ := [] }
  todo.foldl (fun st x => match x with
    | .standby => endOper ((st.md.drain.map (·.2)).getD 0) 2 0x0109 (st.onMd fun m => { m with drain := none })
    | .maintenance => endOper ((st.md.drain.map (·.2)).getD 0) 2 0x0109 (st.onMd fun m => { m with drain := none })
    | .activation => dropActivation st
    | .moduleReset => moduleReset st
    | .withdraw => enterCastOn (st.arrNos.foldl (fun t n => stopActing n t) st)
    | .debugHold => debugHoldFails st
    | .holdUp => st) s0

/-- A handover ends without the lease moving (R293): it is counted when abandoned, the mailbox that ordered it ends with 0109h, and
in a debug hold it is tried once more (R502). -/
def handFailed (arr : Nat) (counted : Bool) (s : State) : State :=
  match s.pair.hand.find? fun h => h.arr == arr with
  | none => s
  | some h =>
    let s1 := endHandover arr (s.onPair fun p => { p with handAbandoned := p.handAbandoned + (if counted then 1 else 0) })
    let s2 := match h.mb with
      | some (p, k) => answerSlot p k 0x0109 [] s1
      | none => s1
    if s.pair.after.contains .debugHold && h.tries == 0 && s.yarnUp then
      (startHandover arr none s2).1.onPair fun p => { p with hand := updWhere (fun x => x.arr == arr) (fun x => { x with tries := 1 }) p.hand }
    else if s2.pair.after.isEmpty then s2
    else if s2.pair.hand.isEmpty then giveUp s2
    else s2

/-- A handover is complete at the former holder (R293): LEASE is issued, its mailbox ends, and the series or its purpose goes on. -/
def handDone (arr epoch : Nat) (s : State) : State :=
  let mb := (s.pair.hand.find? fun h => h.arr == arr).bind (·.mb)
  let s1 := handOver arr epoch s
  let s2 := match mb with
    | some (p, k) => answerSlot p k 0 [] s1
    | none => s1
  afterHandover (handNext s2)

/-- The unit that replayed a stream is withdrawn: it hands over its arrays and enters CAST-ON; withdrawn twice within 24 h of
device time it enters SAFE (R282, R292, R408). -/
def withdraw (s : State) : State :=
  let recent := s.pair.withdrawn.filter fun t => decide (s.time.dev < t + 86400 * sec)
  let s1 := s.onPair fun p => { p with withdrawn := s.time.dev :: recent }
  if !recent.isEmpty then enterSafe 4 s1
  else
    afterHandover (handAll .withdraw s1)

end Sys2Proof.Machine
end

