-- ==== Sys2Proof/Machine/Copies.lean ====
section
/-! DEFINITION. Volume copies: their passes, the cutover and the outbound association (R202 to R204). -/

namespace Sys2Proof.Machine

/-- The copy of an operation ID. -/
def State.copy? (op : Nat) (s : State) : Option Copy := s.io.copies.find? (·.op == op)

/-- Update one copy. -/
def updCopy (op : Nat) (f : Copy → Copy) (s : State) : State :=
  s.onIo fun i => { i with copies := updWhere (·.op == op) f i.copies }

/-- The 1 MiB ranges of a volume (R203). -/
def copyRanges (v : Volume) : List Nat := List.range (ceilDiv v.size 1048576)

/-- The port that the module's own associations use: the lowest NET port whose link is up. -/
def State.ownPort (s : State) : Nat := ((List.range 8).find? fun p => s.sw.linkUp.getD p false).getD 0

/-- The drive blocks (position, LBA) that hold one range of a volume: its strips, or the granules of its chunks (R174, R202). -/
def State.rangeBlocks (v : Volume) (a : Arr) (range : Nat) (s : State) : List (Nat × Nat) :=
  if v.packed then
    (List.range 16).flatMap fun k =>
      let e := v.entry (range * 16 + k)
      if e == 0 || entryBad e then []
      else
        let f := entryFields e
        (List.range f.2.2.1).filterMap fun g =>
          let x := a.locateGran f.1 (g + f.2.1)
          (s.pickCopy a ((a.stripPos x.1 x.2.1).filter fun p => a.readable p x.1)).map fun p => (p, driveLba a.strip x.1 x.2.2)
  else
    ((List.range 256).flatMap fun k =>
      let lba := (range * 1048576 + k * 4096) / v.bs
      if lba * v.bs < v.size then (s.needBlocks a v lba []).getD [] else []).eraseDups

/-- A message of the copy's association leaves in TC0 (R202). -/
def copySend (bytes : Nat) (m : OutMsg) (s : State) : State := enqueue s.ownPort 0 bytes m s

/-- One range leaves as a Write of the copy's association (R202). -/
def sendRange (op range : Nat) (s : State) : State :=
  match s.copy? op with
  | none => s
  | some c =>
    updCopy op (fun x => { x with txSeq := x.txSeq + 1, row := x.row + 1, rows := x.rows ++ [(c.row, range)] })
      (copySend 8192 (.copyWrite op c.assocId c.txSeq c.row range c.twin) s)

/-- The next range of a pass is read in TC0, or sent at once when no drive holds any of it; a copy carries one range at a time
(R202, R203). Its TC0 work waits while its gate list closes TC0 (R367). -/
def copyFeed (op : Nat) (s : State) : State :=
  match s.copy? op with
  | none => s
  | some c => match s.vol? c.vol, c.todo with
    | some v, range :: _ => match s.arr? v.arr with
      | none => s
      | some a =>
        let reading := s.io.dcs.any fun d => d.why == .copy op range
        if c.assocSt != 3 || !c.rows.isEmpty || reading || !s.acts v.arr || a.offline || !s.listOpens (0x20000 + c.vol) 0 then s
        else
          let need := s.rangeBlocks v a range
          let byPos := (List.range a.n).flatMap fun p => (sortNat ((need.filter (·.1 == p)).map (·.2))).map fun l => (p, l)
          if need.isEmpty then sendRange op range s
          else (groupRuns byPos).foldl (fun st x => issueDc (a.bayOf x.1) 0 .read x.2.1 x.2.2 (.copy op range) [] st) s
    | _, _ => s

/-- The copy of a volume is over, well or with a result code: a COPY stitch of pass 0 tells the partner (R204; the values are the model's,
log 23). -/
def stitchCopyEnd (c : Copy) (code : Nat) (s : State) : State :=
  if s.acts (s.arrOf c.vol) then issueStitch 22 (s.arrOf c.vol) 0 0 [c.op, 0, code] s else s

/-- A copy ends without success (R204): its operation fails, held writes go on. -/
def failCopy (op code : Nat) (s : State) : State :=
  match s.copy? op with
  | none => s
  | some c =>
    let s1 := (stitchCopyEnd c code s).onIo fun i => { i with copies := i.copies.filter (·.op != op), wtHold := i.wtHold.filter (· != c.vol) }
    let s2 := match c.cutTag with
      | some t => answerSlot t.1 t.2 0x010A [] s1
      | none => s1
    endOper op 2 code s2

/-- Writes that a cutover held start in the order in which they became executable, as the caps allow (R203, R388). -/
def startHeld (s : State) : State :=
  let list := s.io.cmds.filter fun c => c.st == .executable
  let order := sortNat (list.map (·.execSeq))
  (order.filterMap fun n => list.find? fun c => c.execSeq == n).foldl (fun st c => if st.mayStart c then startWrite c st else st) s

/-- COPY_PASS_END (R203): every range of the running pass is at the destination; the ranges written since it began are the
next pass. -/
def execCopyPassEnd (op : Nat) (s : State) : Host.Outcome State Fault Refusal :=
  .next (match s.copy? op with
    | none => s
    | some c =>
      if !c.todo.isEmpty || !c.rows.isEmpty || c.final.isSome then s
      else
        let s1 := issueStitch 22 (s.arrOf c.vol) 0 0 [op, c.pass, 0xFFFFFFFF] s
        copyFeed op (updCopy op (fun x => { x with
          pass := x.pass + 1, lastBytes := x.bytes, lastDone := true, bytes := 0, todo := sortNat x.changed, changed := [] }) s1))

/-- COPY_FINAL_PASS_END (R203): the final pass ended in time; the destination is the volume as at the cutover, the copy is
over, and the held writes execute on the source. -/
def execCopyFinalPassEnd (op : Nat) (s : State) : Host.Outcome State Fault Refusal :=
  .next (match s.copy? op with
    | none => s
    | some c => match c.final with
      | none => s
      | some t =>
        if !c.todo.isEmpty || !c.rows.isEmpty || t < s.now then s
        else
          let s2 := (stitchCopyEnd c 0 s).onIo fun i => { i with copies := i.copies.filter (·.op != op), wtHold := i.wtHold.filter (· != c.vol) }
          let s3 := match c.cutTag with
            | some x => answerSlot x.1 x.2 0 [] s2
            | none => s2
          startHeld (endOper op 1 0 s3))

/-- COPY_FINAL_PASS_TIMEOUT (R203): the final pass has not ended within 1 s; the cutover is abandoned, the held writes are
released, and passes resume. -/
def execCopyFinalPassTimeout (op : Nat) (s : State) : Host.Outcome State Fault Refusal :=
  .next (match s.copy? op with
    | none => s
    | some c => whenDue c.final (fun st =>
        let s1 := updCopy op (fun x => { x with final := none, cutTag := none }) (st.onIo fun i => { i with wtHold := i.wtHold.filter (· != c.vol) })
        let s2 := match c.cutTag with
          | some x => answerSlot x.1 x.2 0x010A [] s1
          | none => s1
        copyFeed op (startHeld s2)) s)

/-- COPY_ASSOCIATION_PACKET (R202, R204): the source's association with the destination moves on: the handshake, completions of
ranges, acknowledgements and FLUSHes. -/
def execCopyAssociationPacket (op : Nat) (p : CopyPkt) (s : State) : Host.Outcome State Fault Refusal :=
  .next (match s.copy? op with
    | none => s
    | some c =>
      let seen := fun (q : Nat) (st : State) => copySend 128 (.copyAck op c.assocId q)
        (updCopy op (fun x => { x with rxSeqs := (q :: x.rxSeqs).eraseDups }) st)
      match p with
      | .hello2 ok a paired =>
        if c.assocSt != 1 then s
        else if ok then copySend 512 (.copyKeys op a) (updCopy op (fun x => { x with assocSt := 2, assocId := a, twin := paired }) s)
        else failCopy op 0x0104 s
      | .keys4 ok =>
        if c.assocSt != 2 then s
        else if ok then copyFeed op (updCopy op (fun x => { x with assocSt := 3 }) s) else failCopy op 0x0104 s
      | .resp q row st =>
        if c.assocSt != 3 || c.rxSeqs.contains q then s
        else match assocGet row c.rows with
          | none => seen q s
          | some range =>
            if st != 0 then failCopy op 0x010F (seen q s)
            else
              let s1 := updCopy op (fun x => { x with
                rows := x.rows.filter (·.1 != row), todo := x.todo.filter (· != range), last := some range, bytes := x.bytes + 1048576 }) (seen q s)
              copyFeed op (issueStitch 22 (s.arrOf c.vol) 0 0 [op, c.pass, range] s1)
      | .ack _ => s
      | .nak reason =>
        if reason == 2 then copySend 512 (.copyHello op c.dst) (updCopy op (fun x => { x with assocSt := 1, rows := [], txSeq := 1, rxSeqs := [] }) s)
        else if c.assocSt == 1 then failCopy op 0x010B s
        else s
      | .flush q id _ => if c.assocSt == 3 && !c.rxSeqs.contains q then copySend 128 (.copyFlushAck op c.assocId id) (seen q s) else s)

end Sys2Proof.Machine
end

