-- ==== Sys2Proof/Machine/Drives.lean ====
section
/-! DEFINITION. Drive commands: completion, orphaning, timeout, readiness, and members that leave and return (R151, R186 to
R191, R280, R475, R476). -/

namespace Sys2Proof.Machine

/-- The member position whose drive sits in a bay: (array, position). -/
def State.memberAt (bay : Nat) (s : State) : Option (Nat × Nat) :=
  s.io.arrs.findSome? fun a => (a.pos.findIdx? fun p => p.bay == bay && !memberGone p.st).map fun p => (a.no, p)

/-- The row that a drive command serves, 0 for work of no command (R280). -/
def DrvCmd.row (d : DrvCmd) : Nat :=
  match d.why with
  | .hostRead _ r .. => r
  | .recon _ r .. => r
  | .chunk _ r .. => r
  | .hostFlush _ r => r
  | _ => 0

/-- The association that a drive command serves. -/
def DrvCmd.host (d : DrvCmd) : Option (Nat × Nat) :=
  match d.why with
  | .hostRead a r .. => some (a, r)
  | .recon a r .. => some (a, r)
  | .chunk a r .. => some (a, r)
  | .hostFlush a r => some (a, r)
  | _ => none

/-- A DRIVE stitch of a drive command: outcome 0 success, 1 error retried, 2 error final, 3 orphaned, 4 controller reset (R280). -/
def stitchDrive (d : DrvCmd) (outcome status : Nat) (s : State) : State :=
  let arr := match s.memberAt d.bay with
    | some x => x.1
    | none => 255
  issueStitch 2 arr ((d.host.map (·.1)).getD 0) d.row [d.row, d.id, d.bay, outcome, status, d.lba] s

/-- The drive command is no longer outstanding for its host command. -/
def dropFromCmd (d : DrvCmd) (s : State) : State :=
  match d.host with
  | some (a, r) => updCmd a r (fun c => { c with drive := c.drive.filter (· != d.id) }) s
  | none => s

/-- Drive blocks that a host read brought: (position, drive LBA, content). -/
def stripsOf (pos : Nat) (d : DrvCmd) (blocks : List Blk) : List (Nat × Nat × Blk) :=
  ((List.range d.cnt).zip blocks).map fun x => (pos, d.lba + x.1, x.2)

/-- A drive read of a host command ends, with its blocks or without (R130, R191, R228). -/
def hostReadDone (d : DrvCmd) (pos : Nat) (ok : Bool) (blocks : List Blk) (s : State) : State :=
  let s1 := dropFromCmd d s
  match d.why with
  | .chunk a r vol chunk =>
    match s1.cmd? a r, s1.vol? vol with
    | some c, some v =>
      if c.matchAt.isSome then settleAborted a r s1
      else
        let f := entryFields (v.entry chunk)
        let c1 := if !ok then { c with lost := c.lost || f.2.2.1 == 0 || (c.redone && c.sqe.lr) } else { c with got := c.got ++ (chunkBlks v c.missing chunk blocks) }
        let s2 := updCmd a r (fun _ => c1) s1
        -- granules that could not be read are reconstructed from the rest of their rows, once with LR (R121, R191, R228)
        if !ok && !c1.lost then
          match s2.arr? v.arr with
          | none => s2
          | some ar =>
            let bad := ((List.range d.cnt).map fun i => (pos, d.lba + i)) ++ c.bad
            let needs := ((List.range f.2.2.1).map (· + f.2.1)).map fun g =>
              let x := ar.locateGran f.1 g
              let dl := driveLba ar.strip x.1 x.2.2
              if bad.any fun b => b.2 == dl && (ar.stripPos x.1 x.2.1).contains b.1 then s2.reconBlocks ar x.1 x.2.1 dl bad else some []
            let need := (needs.flatMap fun n => n.getD []).eraseDups
            if needs.any Option.isNone || need.isEmpty then settleRead a r (updCmd a r (fun k => { k with lost := true }) s2)
            else issueReads c1 ar (s2.readClass vol) need (.chunk a r vol chunk) (updCmd a r (fun k => { k with bad := bad, redone := true }) s2)
        else settleRead a r s2
    | _, _ => s1
  | _ => match d.host with
    | none => s1
    | some (a, r) =>
      match s1.cmd? a r with
      | none => s1
      | some c =>
        if c.matchAt.isSome then settleAborted a r s1
        else settleRead a r (updCmd a r (fun k => if ok then { k with strips := k.strips ++ stripsOf pos d blocks }
          else { k with bad := k.bad ++ (List.range d.cnt).map fun i => (pos, d.lba + i) }) s1)

/-- A drive read of a drain ends: its old blocks are at hand, or the row is reconstructed from everything else (R178, R191). -/
def drainReadDone (d : DrvCmd) (arr row pos : Nat) (ok : Bool) (blocks : List Blk) (s : State) : State :=
  match s.arr? arr with
  | none => s
  | some a =>
    let old := ((List.range d.cnt).zip blocks).map fun x => (pos, (d.lba + x.1) - driveLba a.strip row 0, x.2)
    let upd := fun (y : Drain) => { y with reads := y.reads.filter (· != d.id), olds := if ok then y.olds ++ old else y.olds
                                           methods := if ok then y.methods else y.methods.map fun m => (m.1, 2)
                                           unread := if ok then y.unread else pos :: y.unread }
    let s1 := updArr arr (fun x => { x with drains := updWhere (·.row == row) upd x.drains }) s
    if ok then drainIssue arr row s1
    else match a.drains.find? (·.row == row) with
      | none => s1
      | some dr =>
        let have_ := fun (p off : Nat) => dr.olds.any fun x => x.1 == p && x.2.1 == off
        let more := (dr.methods.map (·.1)).flatMap fun off =>
          ((List.range a.n).filter fun p => p != pos && !dr.unread.contains p && a.readable p row && !have_ p off).map fun p => (p, driveLba a.strip row (off * 4096))
        let runs := groupRuns ((List.range a.n).flatMap fun p => (sortNat ((more.filter (·.1 == p)).map (·.2))).map fun l => (p, l))
        let ids := (List.range runs.length).map (· + s1.io.nextDc)
        let s2 := runs.foldl (fun st x => issueDc (a.bayOf x.1) 3 .read x.2.1 x.2.2 (.drainRead arr row x.1 x.2.1) [] st) s1
        drainIssue arr row (updArr arr (fun x => { x with drains := updWhere (·.row == row) (fun y => { y with reads := y.reads ++ ids }) x.drains }) s2)

/-- What follows the end of a drive command by the work it served; `ok` is false for a final error. -/
def afterDrive (d : DrvCmd) (ok : Bool) (blocks : List Blk) (s : State) : State :=
  let pos := if d.pos == 255 then (s.memberAt d.bay).elim 255 (·.2) else d.pos
  match d.why with
  | .hostRead .. => hostReadDone d pos ok blocks s
  | .recon .. => hostReadDone d pos ok blocks s
  | .chunk .. => hostReadDone d pos ok blocks s
  | .drainRead arr row p _ => drainReadDone d arr row p ok blocks s
  | .drainWrite arr row p =>
    let upd := fun (y : Drain) => { y with writes := y.writes.filter (· != d.id), failed := if ok then y.failed else (p :: y.failed).eraseDups }
    updArr arr (fun x => { x with drains := updWhere (·.row == row) upd x.drains }) s
  | .jobRead arr row kind q => jobReadDone d arr row kind q ok blocks s
  | .jobWrite arr row kind _ => jobWriteDone d arr row kind s
  | .rowWrite vol skein row _ =>
    let upd := fun (r : RowW) => { r with writes := r.writes.filter (· != d.id), failed := if ok then r.failed else r.failed + 1 }
    let s1 := updVol vol (fun v => { v with rows := updWhere (fun r => r.skein == skein && r.row == row) upd v.rows }) s
    let full := match s1.vol? vol with
      | none => false
      | some v => v.rows.any fun r => r.skein == skein && r.row == row && r.writes.isEmpty && !r.jour
          && decide (r.failed ≤ (s1.arr? v.arr).elim 0 fun a => if parityStrips a.layout == 0 then copies a.layout - 1 else parityStrips a.layout)
    if full then rowJournal vol skein row s1 else s1
  | .journal arr _ => updArr arr (fun a => { a with jWait := a.jWait.filter (· != d.id) }) s
  | .metaData _ => slotDc d.id ok s
  | .superblock arr => superblockDone arr d.id ok s
  | .index vol skein => indexDone vol skein d.id s
  | .hostFlush a r =>
    let s1 := dropFromCmd d s
    match s1.cmd? a r with
    | some c => if c.matchAt.isSome then settleAborted a r s1 else if c.drive.isEmpty then endFlush c s1 else s1
    | none => s1
  | .removal => updChan d.bay (fun c => { c with flushDone := true }) s
  | .selfTest => s
  | .copy op range =>
    let more := s.io.dcs.any fun x => x.why == .copy op range
    if more then s else sendRange op range s
  | .other => s

/-- A drive command leaves the records. -/
def removeDc (id : Nat) (s : State) : State := s.onIo fun i => { i with dcs := i.dcs.filter (·.id != id) }

/-- Drive commands that can no longer be served end as failed (R186, R191, R375). -/
def endDcs (p : DrvCmd → Bool) (s : State) : State :=
  (s.io.dcs.filter p).foldl (fun st d =>
    if (st.dc? d.id).isSome then afterDrive d false [] (stitchDrive d 2 0 (removeDc d.id st)) else st) s

/-- The Flush of a confirmed removal is issued when no other command is outstanding at the drive (R393). -/
def removalFlush (bay : Nat) (s : State) : State :=
  let c := s.chan bay
  if c.remStep == 1 && !c.flushDone && !s.io.dcs.any (fun d => d.bay == bay && (d.subAt.isSome || d.why == .removal)) then
    issueDc bay 6 .flush 0 0 .removal [] s
  else s

/-- The member in a bay fails (R186). -/
def failBay (bay : Nat) (s : State) : State :=
  match s.memberAt bay with
  | some (arr, p) => endDcs (fun d => d.bay == bay) (failMember arr p s)
  | none => s

/-- A drive command ended with an unrecovered read error: 16 within 24 h fail the member (R186). -/
def countReadError (bay : Nat) (s : State) : State :=
  let day := 86400 * sec
  let s1 := updDrive bay (fun d => { d with readErrs := (s.now :: d.readErrs).filter fun t => decide (s.now < t + day) }) s
  match s1.drive? bay with
  | some d => if 16 ≤ d.readErrs.length then failBay bay s1 else s1
  | none => s1

/-- A controller reset of a drive: its outstanding commands are issued again after it; 3 within 10 min fail the member (R151,
R186, R476). -/
def resetDrive (bay : Nat) (s : State) : State :=
  let wait := match s.drive? bay with
    | some d => min d.capTo (10 * sec)
    | none => 0
  let s1 := updDrive bay (fun d => { d with
    orphans := 0, ready := false, resetting := some (s.now + wait)
    resets := (s.now :: d.resets).filter fun t => decide (s.now < t + 600 * sec) }) s
  let s2 := stitchDrive { bay := bay } 4 0 (s1.onAudit fun a => { a with drvResets := a.drvResets + 1 })
  let s3 := s2.onIo fun i => { i with dcs := updWhere (·.bay == bay) (fun d => { d with subAt := none, abortAt := none, queued := s.now }) i.dcs }
  match s3.drive? bay with
  | some d => if 3 ≤ d.resets.length then failBay bay s3 else s3
  | none => s3

/-- The number of an NVMe status that stands for an unrecovered read error (R129). -/
def unrecoveredStatus (st : Nat) : Bool := st % 2048 == scUnrecovered

/-- The blocks of a failed drive read of a host command are rewritten once they are reconstructed (R191). -/
def noteMend (d : DrvCmd) (s : State) : State :=
  match d.host, s.memberAt d.bay with
  | some (a, r), some (_, p) => updCmd a r (fun k => { k with mend := k.mend ++ (List.range d.cnt).map fun i => (p, d.lba + i) }) s
  | _, _ => s

/-- A submitted drive command ends (R121, R130, R150, R178, R186, R225, R280). A failed write is retried once. Fatal status fails the
member. -/
def driveEnds (dc : Nat) (ok : Bool) (status : Nat) (fatal : Bool) (blocks : List Blk) (s : State) : State :=
  match s.dc? dc with
  | none => s
  | some d =>
    if d.subAt.isNone then s
    else
      let s0 := match d.op with
        | .setPower ps => if ok then updDrive d.bay (fun x => { x with pstate := ps }) s else s
        | _ => s
      let retryable := !ok && !fatal && !d.retry && d.op == .write
      if retryable then
        stitchDrive d 1 status (updDc dc (fun x => { x with subAt := none, abortAt := none, retry := true, queued := s.now }) s0)
      else
        let s1 := stitchDrive d (if ok then 0 else 2) status (removeDc dc s0)
        let s2 := afterDrive d ok blocks (if ok then s1 else noteMend d s1)
        if fatal then failBay d.bay s2
        else if ok then s2
        else match d.op with
          | .write => failBay d.bay s2
          | .read => if unrecoveredStatus status then countReadError d.bay s2 else s2
          | _ => s2

/-- DRIVE_COMPLETION (R280): a drive command of this unit ends with its status and what a read brought. -/
def execDriveCompletion (dc : Nat) (ok : Bool) (status : Nat) (fatal : Bool) (blocks : List Blk) (s : State) : Host.Outcome State Fault Refusal :=
  .next (
    let s1 := driveEnds dc ok status fatal blocks s
    (s.dc? dc).elim s1 fun d => removalFlush d.bay s1)

/-- The slot of a drive command that the drive still holds is orphaned (R151, R474): a write's region is marked dirty, a read is served by
reconstruction, and a drive with 64 orphaned slots is reset. -/
def orphanDc (d : DrvCmd) (st : State) : State :=
  let s1 := updDrive d.bay (fun x => { x with orphans := x.orphans + 1 }) (st.onAudit fun a => { a with orphaned := a.orphaned + 1 })
  let s2 := stitchDrive d 3 0 (removeDc d.id s1)
  let s3 := match d.why, d.op with
    | .drainWrite arr row _, _ =>
      let regs := (s2.arr? arr).elim [] fun a => a.rowRegions row
      let mark := setBits arr regs s2
      if d.retry then failBay d.bay (afterDrive d false [] mark)
      else
        let new := mark.io.nextDc
        let swap := fun (y : Drain) => { y with writes := y.writes.map fun w => if w == d.id then new else w }
        updArr arr (fun a => { a with resync := (a.resync ++ regs).eraseDups, drains := updWhere (·.row == row) swap a.drains })
          (updDc new (fun x => { x with retry := true }) (issueTagged d.bay d.cls d.op d.lba d.cnt d.why d.data d.tags mark))
    | _, .write =>
      if d.retry then failBay d.bay (afterDrive d false [] s2)
      else afterDrive d false [] s2
    | _, _ => afterDrive d false [] s2
  match s3.drive? d.bay with
  | some x => if 64 ≤ x.orphans then resetDrive d.bay s3 else s3
  | none => s3

/-- ORPHAN_TIMER_EXPIRY (R151): 1 ms after an abort the drive still has the command; its slot is orphaned. -/
def execOrphanTimerExpiry (dc : Nat) (s : State) : Host.Outcome State Fault Refusal :=
  .next (match s.dc? dc with
    | none => s
    | some d => whenDue d.abortAt (fun st => removalFlush d.bay (orphanDc d st)) s)

/-- DRIVE_COMMAND_TIMEOUT (R475): 8 s after its submission a drive command is timed out; the drive is sent an Abort, and the
slot is orphaned 1 ms later. -/
def execDriveCommandTimeout (dc : Nat) (s : State) : Host.Outcome State Fault Refusal :=
  .next (match s.dc? dc with
    | none => s
    | some d => match d.subAt with
      | none => s
      | some t =>
        if d.abortAt.isSome then s
        else whenDue (some (t + 8 * sec)) (fun st =>
          issueDc d.bay 6 (.abort dc) 0 0 .other [] (updDc dc (fun x => { x with abortAt := some (st.now + ms) }) st)) s)

/-- DRIVE_READY_TIMEOUT (R476): a drive that was reset is not ready in time and fails as a member; its channel stays ON. -/
def execDriveReadyTimeout (bay : Nat) (s : State) : Host.Outcome State Fault Refusal :=
  if 24 ≤ bay then .fault .noSuchBay
  else .next (match s.drive? bay with
    | none => s
    | some d => whenDue d.resetting (fun st => failBay bay (updDrive bay (fun x => { x with resetting := none }) st)) s)

/-- MEMBER_ABSENT (R186, R188, R299): the module has lost the presence of a member's bay, or its link has been down for 1 s. In a
pair an array with a marionette in step is handed over instead where only the link is lost. -/
def execMemberAbsent (arr pos : Nat) (s : State) : Host.Outcome State Fault Refusal :=
  .next (match s.arr? arr with
    | none => s
    | some a =>
      let x := a.pos.getD pos { st := .failed }
      let bay := x.bay
      let gone := bay == 255 || !(s.chan bay).present || (s.drive? bay).isNone
      let down := match s.drive? bay with
        | some d => d.downAt.any (fun t => decide (t + sec ≤ s.now)) || (!d.ready && d.resetting.isNone && d.downAt.isNone && (s.chan bay).readyAt.isNone)
        | none => false
      if !s.acts arr || memberGone x.st || !(gone || down) then s
      else if !gone && s.shadowed arr then (startHandover arr none s).1
      else endDcs (fun d => d.bay == bay) (absentMember arr pos s))

/-- MEMBER_RETURN (R188): the drive of an absent position is ready in a bay again; a drive whose removal was confirmed does not
return before a held press cancels it (R393). -/
def execMemberReturn (arr pos bay : Nat) (s : State) : Host.Outcome State Fault Refusal :=
  if 24 ≤ bay then .fault .noSuchBay
  else .next (match s.arr? arr, s.drive? bay with
    | some a, some d => match d.label with
      | some l =>
        if s.acts arr && d.ready && d.downAt.isNone && d.ok && l.arr == arr && l.pos == pos && l.arrayId == a.id && !l.spare
            && (a.pos.getD pos {}).bay != bay && (s.chan bay).remStep == 0 then
          returnMember arr pos bay l.gen d.serial s
        else s
      | none => s
    | _, _ => s)

/-- RETURN_GRACE_EXPIRY (R188): the grace of an absent position expires; it fails, and a spare is sought. -/
def execReturnGraceExpiry (arr pos : Nat) (s : State) : Host.Outcome State Fault Refusal :=
  .next (match s.arr? arr with
    | none => s
    | some a =>
      let x := a.pos.getD pos { st := .failed }
      if x.st != .absent || !s.acts arr then s
      else whenDue x.graceAt (fun st => failMember arr pos (issueStitch 3 arr 0 0 [3, pos] st)) s)

/-- KEEPER_COPY_COMPLETE (R180, R182): a new keeper holds its whole copy of the ledger and counts as live. -/
def execKeeperCopyComplete (arr pos : Nat) (s : State) : Host.Outcome State Fault Refusal :=
  .next (if s.acts arr then
      stitchMember arr pos (updArr arr (fun a => { a with keepers := updWhere (·.pos == pos) (fun k => { k with live := true }) a.keepers }) s)
    else s)

/-- The skein state of a number, as the messages of the model give it: 0 RESERVED, 1 OPEN-HOST, 2 OPEN-FROG, 3 CLOSED, 4 FROGGING (R230). -/
def skeinAt : Nat → SkeinState
  | 1 => .openHost
  | 2 => .openFrog
  | 3 => .closed
  | 4 => .frogging
  | _ => .reserved

/-- A volume of an imported array, as its superblock and map describe it (R201, R243, R244). -/
def importVolume (arr : Nat) (s : State) (v : ImpVol) : State :=
  if v.no ≥ 1024 || (s.vol? v.no).isSome then s
  else
    let new : Volume := { no := v.no, arr := arr, packed := v.packed, b512 := v.b512, prot := v.prot, size := v.size, created := v.created,
                          nguid := v.nguid, allot := v.allot, mapExt := (v.exts.filter fun e => e.2.1 == 2).length, map := v.map }
    let put := fun (l : List Ext) (e : Nat × Nat × Nat × Nat) =>
      l.modify e.1 fun x => { x with owner := v.no, role := e.2.1, skein := skeinAt e.2.2.1, index := e.2.2.2 }
    updArr arr (fun a => { a with ext := v.exts.foldl put a.ext }) (s.onIo fun i => { i with vols := i.vols ++ [new] })

/-- IMPORT_END (R201): labels, superblocks and ledger of an imported array are rewritten; the array and its volumes are in service. -/
def execImportEnd (arr : Nat) (vols : List ImpVol) (s : State) : Host.Outcome State Fault Refusal :=
  .next (match s.arr? arr with
    | none => s
    | some a =>
      if !a.importing then s
      else
        let s0 := vols.foldl (importVolume arr) (updArr arr (fun x => { x with importing := false }) s)
        let s1 := ledgerNow arr (relabel arr (superblockNow arr s0))
        match s1.mbx.opers.find? fun o => o.opcode == 0x0417 && o.st == 0 && o.obj == ssAddr 3 arr 0 with
        | some o => endOper o.id 1 0 s1
        | none => s1)

end Sys2Proof.Machine
end

