-- ==== Sys2Proof/Machine/Transport.lean ====
section
/-! DEFINITION. The VDT transport: handshakes, packets of a host, timers of an association (chapter 02). -/

namespace Sys2Proof.Machine

/-! ### The association table -/

/-- The bucket of an address and an association ID (R334). -/
def bucketOf (src id : Nat) : Nat := crc32c (bytesBE 16 src ++ bytesBE 4 id) % 8192

/-- Entries of a bucket outside the overflow area. -/
def State.inBucket (b : Nat) (s : State) : Nat := (s.io.assocs.filter fun a => !a.overflow && bucketOf a.src a.id == b).length

/-- The first admissible association ID from a candidate on: non-zero, not in use, not released within 60 s (R46). -/
def State.newId (s : State) : Nat :=
  let base := Config.assocId s.free
  let bad := fun n => n == 0 || (s.io.assocs.any (·.id == n)) || s.io.freed.any fun f => f.1 == n && decide (s.now < f.2 + 60 * sec)
  let cand := (List.range (s.io.assocs.length + s.io.freed.length + 2)).map fun i => (base + i) % 2 ^ 32
  (cand.find? fun n => !bad n).getD 1

/-- The lowest context index not in use (R335). -/
def State.newCtx (s : State) : Nat := ((List.range 4352).find? fun k => !s.io.assocs.any (·.ctx == k)).getD 0

/-- A failed handshake is counted; 16 within 1 s shut the source address out for 10 s (R52). -/
def failHandshake (src : Nat) (s : State) : State :=
  let recent := (src, s.now) :: s.io.fails.filter fun f => decide (s.now < f.2 + sec)
  if 16 ≤ (recent.filter (·.1 == src)).length then
    s.onIo fun i => { i with fails := recent.filter (·.1 != src), lockouts := (src, s.now + 10 * sec) :: i.lockouts.filter (·.1 != src) }
  else s.onIo fun i => { i with fails := recent }

/-- The source address is shut out (R52). -/
def State.lockedOut (src : Nat) (s : State) : Bool := s.io.lockouts.any fun l => l.1 == src && decide (s.now < l.2)

/-- A HELLO-1 payload keeps R47 (R52). -/
def helloOk (h : Hello) : Bool :=
  (h.auth == 1 || h.auth == 2) && decide (1024 ≤ h.maxPayload) && decide (h.maxPayload ≤ 8192) && h.maxPayload % 1024 == 0
    && decide (1 ≤ h.identLen) && decide (h.identLen ≤ if h.auth == 1 then 256 else 2048) && h.reservedZero && h.parses

/-- HELLO-2 leaves toward a host (R48). -/
def sendHello2 (port : Nat) (a : Assoc) (s : State) : State :=
  let cert := if a.authMode == 2 then 2112 else 0
  enqueue port 5 (vdtFrameBytes a.src (68 + cert) - 16) (.hello2 a.src a.id a.authMode s.md.slot s.paired a.maxPayload a.hello a.helloKey) s

/-- The answer to a HELLO of a unit that does not serve (R400). -/
def helloRefused (h : Hello) (reason : Nat) (s : State) : State :=
  match s.md.mode with
  | .powerStandby => s
  | .safe => s
  | _ => sendNakClear h.port h.src reason s

/-- HELLO_1 (R46 to R48, R52, R54, R55, R299, R334 to R336, R400): a host opens an association. -/
def execHello1 (h : Hello) (s : State) : Host.Outcome State Fault Refusal :=
  .next (
    if s.lockedOut h.src || s.holdUp then s
    else if (s.md.mode != .solo && s.md.mode != .paired) || (s.paired && !s.yarnUp) then helloRefused h 5 s
    else if !helloOk h then failHandshake h.src (sendNakClear h.port h.src 5 s)
    else match s.io.assocs.find? fun a => a.src == h.src && a.hello == h.ident && a.st == .halfOpen with
      | some a => sendHello2 h.port a s
      | none =>
        if 256 ≤ (s.io.assocs.filter (·.st == .halfOpen)).length then s.onIo fun i => { i with halfOver := i.halfOver + 1 }
        else if 4096 ≤ (s.io.assocs.filter (·.st != .halfOpen)).length then sendNakClear h.port h.src 4 s
        else
          let id := s.newId
          let full := decide (4 ≤ s.inBucket (bucketOf h.src id))
          if full && decide (64 ≤ (s.io.assocs.filter (·.overflow)).length) then
            updParser h.port (fun p => { p with tabRef := p.tabRef + 1 }) (sendNakClear h.port h.src 4 s)
          else
            let a : Assoc := {
              id := id, src := h.src, udpPort := h.udpPort, net := h.port, st := .halfOpen, ctx := s.newCtx, overflow := full
              principal := h.principal.getD 65535, authMode := h.auth, twinCap := h.twinCap, maxPayload := min h.maxPayload (s.settingN 0x0287)
              hello := h.ident, created := s.now, rto := s.settingN 0x0280 * us, ackDelay := s.settingN 0x0281 * us
              pktsPerAck := s.settingN 0x0282, gapDelay := s.settingN 0x0283 * us, keepalive := s.settingN 0x0284 * ms
              resumeWin := s.settingN 0x0285 * sec, phaseTime := s.settingN 0x0286 * 3600 * sec, txPhaseAt := s.now, lastAct := s.now
              helloKey := s.freeVal, dst := h.dst }
            let s1 := s.drawn.onIo fun i => { i with assocs := i.assocs ++ [a] }
            let high := (s1.inBucket (bucketOf h.src id))
            sendHello2 h.port a (s1.onSw fun w => { w with assocHigh := max w.assocHigh high }))

/-- HELLO_1_RESUME (R67, R336): a host resumes an association; one still live here is suspended first. -/
def execHello1Resume (h : Hello) (s : State) : Host.Outcome State Fault Refusal :=
  .next (
    if s.lockedOut h.src || s.holdUp then s
    else if !s.serves then helloRefused h 5 s
    else if !helloOk h then failHandshake h.src (sendNakClear h.port h.src 5 s)
    else match s.io.assocs.find? fun a => a.id == h.resumed && a.src == h.src && a.st != .halfOpen && !a.tcp with
      | none => sendNakClear h.port h.src 2 s
      | some a =>
        if a.resuming && a.hello == h.ident then sendHello2 h.port a s
        else
          let s1 := suspend a.id s
          let f := fun (x : Assoc) => { x with
            resuming := true, hello := h.ident, created := s.now, udpPort := h.udpPort, net := h.port, authMode := h.auth, twinCap := h.twinCap
            maxPayload := min h.maxPayload (s.settingN 0x0287), helloKey := s.freeVal, dst := h.dst
            rxPhase := 0, rxPrev := none, rxPrevKey := false, principal := h.principal.getD 65535 }
          match (updAssoc a.id f s1).assoc? a.id with
          | some b => sendHello2 h.port b (updAssoc a.id f s1).drawn
          | none => s1)

/-- The addresses that KEYS-4 lists: those of the unit's NET ports and always the one that the host used, at most 16 (R51). -/
def State.keys4Addrs (a : Assoc) (s : State) : List (Nat × Nat × Nat) :=
  let own := (List.range 8).flatMap fun p => (s.cfg.addrs.getD p []).map fun x => (x, s.md.slot, p)
  let used := (a.dst, s.md.slot, a.net)
  (used :: own.filter fun x => x.1 != a.dst).take 16

/-- The context fields that an ASSOC stitch carries: 1 created, 2 resumed, 3 released (R278). -/
def assocFields (kind : Nat) (a : Assoc) : List Nat :=
  [kind, a.src, a.udpPort, a.net, a.principal, a.authMode, if a.twinCap then 1 else 0, a.maxPayload, a.tagLimit]

/-- KEYS-4 leaves with sequence 1; RESPs that a resume brought back follow, and reads that are not complete are placed again
(R51, R67). -/
def sendKeys4 (id : Nat) (s : State) : State :=
  match s.assoc? id with
  | none => s
  | some a =>
    let s1 := admitWaiting 1024 id (admitSeq a 5 (.keys4 (s.keys4Addrs a)) (updAssoc id (fun x => { x with awaitStitch := none }) s))
    (s1.io.cmds.filter fun c => c.assoc == id && c.st == .placing).foldl (fun st c =>
      match st.cmdVol c with
      | some v => if c.isRead && !c.got.isEmpty then deliverRead c v st else updCmd id c.row (fun k => { k with st := .accepted }) st
      | none => updCmd id c.row (fun k => { k with st := .accepted }) st) s1

/-- The principal of a handshake may authenticate in the way it did. -/
def State.authOk (a : Assoc) (s : State) : Bool :=
  match s.principal? a.principal with
  | some p => decide (3 ≤ a.principal) && bit p.auth (a.authMode - 1)
  | none => false

/-- KEYS_3 (R50 to R53, R67, R336): the host's finished value and, in certificate mode, its signature and chain decide whether the
association is made live. In a pair KEYS-4 waits until the partner has the context. -/
def execKeys3 (h : Hdr) (finishedOk sigOk chainOk : Bool) (s : State) : Host.Outcome State Fault Refusal :=
  .next (match s.io.assocs.find? fun a => a.id == h.assoc && a.src == h.src && !a.tcp with
    | none => onArrival h 11 (fun _ t => t) s
    | some a =>
      let fresh := a.st == .halfOpen
      if !s.serves || !(fresh || (a.st == .suspended && a.resuming)) then onArrival h 11 (fun _ t => t) s
      else match keys3Stop a h s with
      | some t => t
      | none =>
      if !finishedOk || (a.authMode == 2 && !(sigOk && chainOk)) || !s.authOk a then
        let s1 := failHandshake a.src s
        if fresh then freeAssoc a.id s1 else updAssoc a.id (fun x => { x with resuming := false }) s1
      else
        let pol := ((s.principal? a.principal).map (·.policy)).getD {}
        let start := fun (x : Assoc) => { x with
          st := .live, resuming := false, awaitStitch := some 0, rxCum := 0, rxSet := [], rxNew := 0, rxOldest := none, gapSince := none, lastNak := none
          rxPhase := 0, rxPrev := none, rxPrevKey := false, txNext := 1, unacked := [], txPhase := 0, txPhaseAt := s.now, txPhaseN := 0, srtt := none, rttvar := 0
          rto := s.settingN 0x0280 * us, refusedRx := [], hostFlushes := [], lastAct := s.now, partnerSuspended := false }
        let first := fun (x : Assoc) => if fresh then { x with policy := pol, tagLimit := pol.tagLimit, meter := meterNew pol s.now,
                                                               shaper := { credit := 0, t := s.now } } else x
        let s1 := receive h 11 (updAssoc a.id (fun x => first (start x)) s)
        if s1.stitching then
          let n := s1.pair.txStitch
          let b := (s1.assoc? a.id).getD a
          updAssoc a.id (fun x => { x with awaitStitch := some n })
            (issueStitch 16 255 a.id 0 (assocFields (if fresh then 1 else 2) b) s1)
        else sendKeys4 a.id s1)

/-- HELLO_LOCKOUT_EXPIRY (R52). -/
def execHelloLockoutExpiry (src : Nat) (s : State) : Host.Outcome State Fault Refusal :=
  .next (s.onIo fun i => { i with lockouts := i.lockouts.filter fun l => !(l.1 == src && decide (l.2 ≤ s.now)) })

/-- HALF_OPEN_EXPIRY (R54): a handshake has been half-open for 1 s. -/
def execHalfOpenExpiry (assoc : Nat) (s : State) : Host.Outcome State Fault Refusal :=
  .next (match s.assoc? assoc with
    | none => s
    | some a =>
      if a.st == .halfOpen then whenDue (some (a.created + sec)) (freeAssoc assoc) s
      else if a.resuming then whenDue (some (a.created + sec)) (updAssoc assoc fun x => { x with resuming := false }) s
      else s)

/-! ### Retransmission -/

/-- A packet of the module is sent again: attempt + 1, under the current phase (R60). -/
def retransmit (id seq : Nat) (s : State) : State :=
  match s.assoc? id with
  | none => s
  | some a => match a.unacked.find? (·.seq == seq) with
    | none => s
    | some p =>
      let queued := s.sw.egress.any fun q => q.msg == .vdtRef id seq
      if queued || 16 ≤ p.attempt then s
      else
        let again := fun (x : TxPkt) => { x with attempt := x.attempt + 1, phase := a.txPhase, timer := none, lastRetx := some s.now }
        enqueue (s.netPort a) p.cls (vdtFrameBytes a.src (payloadLen p.body)) (.vdtRef id seq)
          (updAssoc id (fun x => { x with unacked := updWhere (·.seq == seq) again x.unacked, stats := { x.stats with retx := x.stats.retx + 1 } }) s)

/-- The RESP of a completed row is sent again while it is unacknowledged (R76). -/
def resendResp (id row : Nat) (s : State) : State :=
  match s.assoc? id with
  | none => s
  | some a => match a.unacked.find? fun p => match p.body with
      | .resp r => r.row == row
      | _ => false with
    | some p => retransmit id p.seq s
    | none => s

/-! ### Commands and data of a host -/

/-- A marionette that holds the whole host copy of an ordered write puts it in its write buffer, sends CONFIRM, and completes the
write; one with FUA waits for the media (R284, R286). -/
def confirmWrite (id row : Nat) (s : State) : State :=
  match s.assoc? id, s.cmd? id row with
  | some a, some c => match s.cmdVol c with
    | none => s
    | some v =>
      let write := !c.admin && (c.sqe.opcode == 0x01 || c.sqe.opcode == 0x08 || c.sqe.opcode == 0x09)
      if !(s.inStep || (s.md.mode == .castOn && s.serves)) || (s.lease v.arr).acting || !c.ordered || c.st != .waiting || !write || !c.hostCopy || !s.writeComplete a c then s
      else
        let blks := if c.isWrite then writeBlocks a c v else []
        let zeros := if c.sqe.opcode == 0x09 then c.ranges.flatMap fun r => (List.range r.2).map fun i => (r.1 + i, zeroBlk v)
          else if c.sqe.opcode == 0x08 then (List.range c.sqe.nlb).map fun i => (c.sqe.slba + i, zeroBlk v) else []
        let s1 := bufferBlocks c v.no (((List.range blks.length).map (· + c.sqe.slba)).zip blks ++ zeros) false s
        let s3 := if c.sqe.opcode == 0x09 then c.ranges.foldl (fun st r => markCopies v.no r.1 r.2 v.bs st) s1
          else markCopies v.no c.sqe.slba c.sqe.nlb v.bs s1
        let s2 := sendYarn 7 64 (.confirm id row) (dropPush id row s3)
        if c.sqe.fua then updCmd id row (fun k => { k with st := .waitMedia, covered := s2.ordersOf id row }) s2
        else markAcked id row (finish id row scOk 0 0 false s2)
  | _, _ => s

/-- The record of a command made from a CMD packet (R70, R107). -/
def cmdOf (h : Hdr) (q : Sqe) (data : Nat) (ranges : List (Nat × Nat)) (frame : Option MbFrame) (s : State) : Cmd :=
  let c : Cmd := { assoc := h.assoc, row := h.row, sqe := q, cls := h.cls, key := h.key, off := h.off, twin := h.twin, xlen := h.len, seq := h.seq,
                   ranges := ranges, frame := frame }
  if c.isWrite && 64 < h.len then
    { c with inl := true, blocks := (s.cmdVol c).elim [] fun v => splitBlocks v q data }
  else c

/-- CMD (R69 to R71, R76, R77, R84, R92, R115, R284, R288, R526): a command of a host reaches its lane. A row above the range is as
not received, a row held or completed is a duplicate. -/
def execCmd (h : Hdr) (q : Sqe) (data : Nat) (ranges : List (Nat × Nat)) (frame : Option MbFrame) (s : State) :
    Host.Outcome State Fault Refusal :=
  .next (match arrivalCheck h 1 s with
    | .stop t => t
    | .go a =>
      if a.floor + 65535 < h.row || h.row == 0 then
        sinkCells a.id h.seq (updParser h.port (fun p => { p with aboveWin := p.aboveWin + 1 }) s)
      else
        let cls := if h.cls == permittedClass 1 h.cls then s else updParser h.port (fun p => { p with badClass := p.badClass + 1 }) s
        let s1 := sinkCells a.id h.seq (receive h 1 cls)
        let done := decide (h.row < a.floor) || a.doneRows.contains h.row
        let c := cmdOf h q data ranges frame s1
        match s1.cmd? a.id h.row with
        | some old =>
          if old.hostCopy then s1
          else
            let full := { old with sqe := q, cls := c.cls, key := c.key, off := c.off, twin := c.twin, inl := c.inl, xlen := c.xlen,
                                   blocks := c.blocks, frame := frame, ranges := ranges, seq := c.seq, hostCopy := true, twinWait := none }
            confirmWrite a.id h.row (updAssoc a.id (rowArrived h.row) (updCmd a.id h.row (fun _ => full) s1))
        | none =>
          if done then resendResp a.id h.row s1
          else if a.releasing then s1
          else
            let s2 := updAssoc a.id (rowArrived h.row) s1
            match s2.assoc? a.id with
            | some b => acceptCmd b c s2
            | none => s2)

/-- PUSH (R91, R92, R97, R101): data for the landing zone are kept by row and offset, or refused. -/
def execPush (h : Hdr) (data : Nat) (s : State) : Host.Outcome State Fault Refusal :=
  .next (onArrival h 2 (fun a s1 =>
    let done := decide (h.row < a.floor) || a.doneRows.contains h.row
    let accepted := (s1.cmd? a.id h.row).any fun c => c.isWrite
    let why := match zoneReason a h.key h.off h.len with
      | some 3 => if accepted then (if a.zone.any fun (z : Zone) => decide (h.off + h.len ≤ z.mib * 1048576) then none else some 5) else some 3
      | r => r
    match why with
    | some r => violate a.id r 2 h.len h.seq h.key h.off h.row (updAssoc a.id (fun x => { x with refusedRx := h.seq :: x.refusedRx }) s1)
    | none =>
      if done then s1
      else
        let p : PushData := { row := h.row, off := h.off, len := h.len, data := data }
        let s2 := updAssoc a.id (fun x => { x with zone := x.zone.map fun (z : Zone) => { z with held := z.held ++ [p] } }) s1
        confirmWrite a.id h.row (if s.paired then forwardCmd a.id h.row (tryOrder a.id h.row s2) else s2)) s)

/-- ACK (R63). -/
def execAck (h : Hdr) (s : State) : Host.Outcome State Fault Refusal := .next (onArrival h 5 (fun _ t => t) s)

/-- NAK (R64): each listed packet still unacknowledged is sent again at once, at most once per round-trip estimate. -/
def execNak (h : Hdr) (reason : Nat) (ranges : List (Nat × Nat)) (s : State) : Host.Outcome State Fault Refusal :=
  .next (onArrival h 6 (fun a s1 =>
    if reason != 1 then s1
    else
      let rtt := a.srtt.getD a.rto
      let again := (((s1.assoc? a.id).elim [] (·.unacked)).filter fun p =>
        p.sentAt.isSome && (ranges.take 64).any (fun r => decide (r.1 ≤ p.seq) && decide (p.seq ≤ r.2))
          && !(p.lastRetx.any fun t => decide (s.now < t + rtt))).map (·.seq)
      again.foldl (fun st q => retransmit a.id q st) s1) s)

/-- VDT_FLUSH (R74, R95): it is answered once everything up to the covered sequence has been received. -/
def execVdtFlush (h : Hdr) (id covered : Nat) (s : State) : Host.Outcome State Fault Refusal :=
  .next (onArrival h 7 (fun a s1 =>
    answerFlushes a.id (updAssoc a.id (fun x => { x with hostFlushes := x.hostFlushes ++ [(id, covered)] }) s1)) s)

/-- FLUSH_ACK (R35, R94, R287, R288): a read's data are placed; it completes with the status of its drive operation, or with
Placement Refused where the host refused its data. -/
def execFlushAck (h : Hdr) (id status : Nat) (s : State) : Host.Outcome State Fault Refusal :=
  .next (onArrival h 8 (fun a s1 =>
    match s1.io.cmds.find? fun c => c.assoc == a.id && c.st == .placing && (c.flushSeq.map (·.1)) == some id with
    | none => s1
    | some c =>
      let sc := if status == 1 && c.refused then scPlacement else c.sc
      if c.relayTo then
        -- the reaching unit returns the outcome to the holder, which issues DELIVERED (R288)
        sendYarn 7 64 (.relayRead c.assoc c.row sc []) (updCmd c.assoc c.row (fun k => { k with st := .waiting, sc := sc }) s1)
      else if c.matchAt.isSome then s1
      else finishVia 14 [c.row, sc] c sc c.dw0 c.dw1 c.more s1) s)

/-- VIOLATION (R94, R103, R104): the host refused an access of this unit. -/
def execViolation (h : Hdr) (reason offType len offSeq key off row : Nat) (s : State) : Host.Outcome State Fault Refusal :=
  .next (onArrival h 9 (fun a s1 =>
    let s2 := recordViolation a.id reason key row s1
    let s3 := updCmd a.id row (fun c => if c.st == .placing && offType != 0 && offSeq != 0 then { c with refused := true } else c) s2
    issueStitch 19 255 a.id row [reason, key, off, row, len] s3) s)

/-- KEEPALIVE (R66, R68): it keeps the association from being idle; as a release request it ends the association. -/
def execKeepalive (h : Hdr) (release : Bool) (s : State) : Host.Outcome State Fault Refusal :=
  .next (onArrival h 12 (fun a s1 =>
    if !release then s1
    else
      let s2 := resetCommands a.id true s1
      let s3 := match s2.assoc? a.id with
        | none => s2
        | some b => enqueue (s.netPort b) 5 (vdtFrameBytes b.src 4)
            (.vdt b.id b.src b.udpPort b.txNext 0 b.txPhase 5 true b.rxCum (sackBits b.rxCum b.rxSet) (.keepalive true))
            (updAssoc b.id (fun x => { x with txNext := x.txNext + 1 }) s2)
      releaseAssoc a.id s3) s)

/-! ### Timers -/

/-- ACKNOWLEDGEMENT_DELAY_EXPIRY (R63). -/
def execAcknowledgementDelayExpiry (assoc : Nat) (s : State) : Host.Outcome State Fault Refusal :=
  .next (match s.assoc? assoc with
    | some a => if a.st == .live && 0 < a.rxNew then whenDue a.rxOldest (sendAck assoc) s else s
    | none => s)

/-- The missing runs below the highest sequence received, lowest first (R64). -/
def gapRanges : Nat → Nat → List Nat → List (Nat × Nat)
  | 0, _, _ => []
  | _ + 1, _, [] => []
  | n + 1, next, q :: l => if next < q then (next, q - 1) :: gapRanges n (q + 1) l else gapRanges n (q + 1) l

/-- GAP_DELAY_EXPIRY (R64): a gap has stood for the gap delay since it began or since the previous NAK. -/
def execGapDelayExpiry (assoc : Nat) (s : State) : Host.Outcome State Fault Refusal :=
  .next (match s.assoc? assoc with
    | some a => match a.gapSince with
      | some t =>
        if a.st != .live then s
        else whenDue (some ((a.lastNak.getD t) + a.gapDelay)) (fun st =>
          let l := (gapRanges (a.rxSet.length + 1) (a.rxCum + 1) (sortNat a.rxSet)).take 64
          sendNak assoc 1 l (updAssoc assoc (fun x => { x with lastNak := some st.now }) st)) s
      | none => s
    | none => s)

/-- RETRANSMISSION_TIMER_EXPIRY (R65, R66): the RTO rises and the packet is sent again; after 16 retransmissions the association
is suspended. -/
def execRetransmissionTimerExpiry (assoc seq : Nat) (s : State) : Host.Outcome State Fault Refusal :=
  .next (match s.assoc? assoc with
    | none => s
    | some a => match a.unacked.find? (·.seq == seq) with
      | none => s
      | some p =>
        if a.st != .live then s
        else whenDue p.timer (fun st =>
          if 16 ≤ p.attempt then suspend assoc st
          else retransmit assoc seq (updAssoc assoc (fun x => { x with rto := max x.rto (min (2 * p.armed) (10 * ms)) }) st)) s)

/-- RESUME_WINDOW_EXPIRY (R66, R100): a suspended association that was not resumed is released. -/
def execResumeWindowExpiry (assoc : Nat) (s : State) : Host.Outcome State Fault Refusal :=
  .next (match s.assoc? assoc with
    | some a => if a.st == .suspended && !a.releasing then whenDue (some (a.suspAt + a.resumeWin)) (releaseAssoc assoc) s else s
    | none => s)

/-- KEEPALIVE_INTERVAL_EXPIRY (R68). -/
def execKeepaliveIntervalExpiry (assoc : Nat) (s : State) : Host.Outcome State Fault Refusal :=
  .next (match s.assoc? assoc with
    | some a =>
      if a.st == .live && !a.tcp then whenDue (some (a.lastAct + a.keepalive)) (fun st =>
        sendSeq assoc 5 (.keepalive false) (updAssoc assoc (fun x => { x with lastAct := st.now }) st)) s
      else s
    | none => s)

/-- The unit's direction moves to the next key phase (R58). -/
def nextPhase (now : Nat) (a : Assoc) : Assoc := { a with txPhase := (a.txPhase + 1) % 256, txPhaseAt := now, txPhaseN := 0 }

/-- KEY_PHASE_TIMEOUT (R58). -/
def execKeyPhaseTimeout (assoc : Nat) (s : State) : Host.Outcome State Fault Refusal :=
  .next (match s.assoc? assoc with
    | some a => if a.st == .live then whenDue (some (a.txPhaseAt + a.phaseTime)) (updAssoc assoc (nextPhase s.now)) s else s
    | none => s)

/-- PREVIOUS_KEY_DISCARD (R59). -/
def execPreviousKeyDiscard (assoc : Nat) (s : State) : Host.Outcome State Fault Refusal :=
  .next (match s.assoc? assoc with
    | some a => if a.rxPrevKey then whenDue (some a.rxPrevUntil) (updAssoc assoc fun x => { x with rxPrevKey := false }) s else s
    | none => s)

/-- VIOLATION_INTERVAL_END (R104): an interval of 1 s ends; one that left entries out is summarised. -/
def execViolationIntervalEnd (s : State) : Host.Outcome State Fault Refusal :=
  .next (whenDue (some s.audit.violEnd) (fun st =>
    let n := st.audit.violOut
    let s1 := st.onAudit fun a => { a with violN := 0, violOut := 0, violEnd := a.violEnd + sec }
    if n == 0 then s1 else auditPush { kind := 5, origin := 7, detail := n } s1) s)

end Sys2Proof.Machine
end

