-- ==== Sys2Proof/Machine/Windows.lean ====
section
/-! DEFINITION. Host windows and landing zones: registration, grants, revocation and drains (chapter 03). -/

namespace Sys2Proof.Machine

/-- The command is one of the window and zone commands (R82). -/
def Cmd.isWindow (c : Cmd) : Bool := c.admin && [0xD0, 0xD1, 0xD2, 0xD3].contains c.sqe.opcode

/-- A window or zone command of a row with an opcode may execute: ordered, every lower row has arrived, and no lower window or
zone command waits (R84). -/
def State.windowReady (id row op : Nat) (s : State) : Option (Assoc × Cmd) :=
  match s.assoc? id, s.ready id row .accepted with
  | some a, some c =>
    let before := s.io.cmds.any fun k => k.assoc == id && k.isWindow && decide (k.row < row) && k.st == .accepted
    if c.admin && c.sqe.opcode == op && decide (row ≤ a.arrFloor) && !before then some (a, c) else none
  | _, _ => none

/-- WINDOW_REGISTER (R82, R83, R87, R99): a window key of the association. -/
def execWindowRegister (assoc row : Nat) (s : State) : Host.Outcome State Fault Refusal :=
  .next (match s.windowReady assoc row 0xD0 with
    | none => s
    | some (a, c) =>
      let k := c.sqe.key
      let len := c.sqe.wlen
      if k == 0 || len < 4096 || 2 ^ 57 < len || len % 4096 != 0 then finishAdm c scField 0 0 s
      else if a.windows.any (·.key == k) then finishAdm c scSequence 0 0 s
      else if 256 ≤ a.windows.length then finishAdm c scWindowFull 0 0 s
      else
        finishAdm c scOk (a.windows.length + 1) 0
          (updAssoc assoc (fun x => { x with windows := x.windows ++ [{ key := k, len := len }], revoked := x.revoked.filter (· != k) }) s))

/-- The command moves data into the window of a key and has not reached its final status (R88, R96). -/
def State.usesWindow (c : Cmd) (key : Nat) (s : State) : Bool := (s.placedLen c).isSome && c.key == key

/-- A command cancelled by a revocation ends with Window Revoked; the unit that orders it decides and records it (R96, R97, R279). -/
def cancelRevoked (a : Assoc) (s : State) (c : Cmd) : State :=
  if !s.ordersCmd a c then s
  else if s.inStep then
    let n := s.pair.txStitch
    let q := c.sqe
    let st := issueStitch 1 (s.cmdArr c) a.id c.row [c.row, q.qid, q.cid, q.opcode, c.lane, 5, c.source, q.nsid, 0, 0, 0] s
    finishAfter a.id c.row n scWindowRevoked 0 0 false st
  else finish a.id c.row scWindowRevoked 0 0 false s

/-- WINDOW_REVOKE (R83, R96): closing. Reads of the key that are not dispatched are cancelled, in a pair by the unit that orders them;
the command ends with the drain. -/
def execWindowRevoke (assoc row : Nat) (s : State) : Host.Outcome State Fault Refusal :=
  .next (match s.windowReady assoc row 0xD1 with
    | none => s
    | some (a, c) =>
      let k := c.sqe.key
      match a.windows.find? (·.key == k) with
      | none => finishAdm c scSequence 0 0 s
      | some w =>
        let s1 := updCmd assoc row (fun x => { x with st := .waiting }) s
        if w.closing then
          updAssoc assoc (fun x => { x with windows := updWhere (·.key == k) (fun y => { y with revokeRows := y.revokeRows ++ [row] }) x.windows }) s1
        else
          let cut := s.io.cmds.filter fun x => x.assoc == assoc && x.row != row && s.usesWindow x k && !x.dispatched && x.st != .placing && x.st != .waitStitch
            && (!s.inStep || s.ordersCmd a x)
          let close := fun (y : Window) => { y with closing := true, revokeRows := [row], cancelled := cut.length }
          cut.foldl (cancelRevoked a) (updAssoc assoc (fun x => { x with windows := updWhere (·.key == k) close x.windows }) s1))

/-- Finish the commands that wait for a drain: the first with the count of cancelled commands, the others with 0 (R82, R83). -/
def endRevokes (assoc : Nat) (rows : List Nat) (cancelled : Nat) (s : State) : State :=
  (rows.zip (cancelled :: List.replicate rows.length 0)).foldl (fun st x =>
    match st.cmd? assoc x.1 with
    | some c => finishAdm c scOk x.2 0 st
    | none => st) s

/-- WINDOW_DRAIN_END (R96): every read of a closing window has posted its RESP; the entry is freed and the key revoked. -/
def execWindowDrainEnd (assoc key : Nat) (s : State) : Host.Outcome State Fault Refusal :=
  .next (match s.assoc? assoc with
    | none => s
    | some a => match a.windows.find? fun w => w.key == key && w.closing with
      | none => s
      | some w =>
        if s.io.cmds.any fun x => x.assoc == assoc && s.usesWindow x key && !w.revokeRows.contains x.row then s
        else endRevokes assoc w.revokeRows w.cancelled
          (updAssoc assoc (fun x => revokeKey key { x with windows := x.windows.filter (·.key != key) }) s))

/-- MiB of the landing-zone pool that no zone holds (R90). -/
def State.zoneFree (s : State) : Nat :=
  s.cfg.poolUse * 1024 - (s.io.assocs.map fun a => match a.zone with
    | some z => z.mib
    | none => 0).sum

/-- A zone of a size is granted (R90, R99). -/
def grantZone (key mib : Nat) (a : Assoc) : Assoc :=
  { a with zone := some { key := key, mib := mib }, revoked := a.revoked.filter (· != key) }

/-- ZONE_GRANT (R82, R83, R86, R90): the responding unit decides the size and stitches it. -/
def execZoneGrant (assoc row : Nat) (s : State) : Host.Outcome State Fault Refusal :=
  .next (match s.windowReady assoc row 0xD2 with
    | none => s
    | some (a, c) =>
      let want := bits c.sqe.cdw12 4 0
      if a.zone.isSome then finishAdm c scSequence 0 0 s
      else if s.inStep && !a.responding then s
      else if s.zoneFree < 1 then finishVia 18 [row, c.sqe.key, 0] c scZonePool 0 0 false s
      else
        let mib := min want s.zoneFree
        finishVia 18 [row, c.sqe.key, mib] c scOk mib 0 false (updAssoc assoc (grantZone c.sqe.key mib) s))

/-- ZONE_RELEASE (R83, R97): closing. PUSH data of rows with no accepted CMD are discarded; the command ends with the drain. -/
def execZoneRelease (assoc row : Nat) (s : State) : Host.Outcome State Fault Refusal :=
  .next (match s.windowReady assoc row 0xD3 with
    | none => s
    | some (a, c) => match a.zone with
      | none => finishAdm c scSequence 0 0 s
      | some z =>
        if z.key != c.sqe.key then finishAdm c scSequence 0 0 s
        else
          let s1 := updCmd assoc row (fun x => { x with st := .waiting }) s
          let rows := (s.io.cmds.filter fun x => x.assoc == assoc && zoneWrite a x).map (·.row)
          let f := fun (y : Zone) =>
            if y.closing then { y with releaseRows := y.releaseRows ++ [row] }
            else { y with closing := true, closedAt := s.now, releaseRows := [row], held := y.held.filter fun p => rows.contains p.row }
          updAssoc assoc (fun x => { x with zone := x.zone.map f }) s1)

/-- ZONE_DATA_WAIT_EXPIRY (R97): 10 ms after closing, writes that still lack data end with Window Revoked. -/
def execZoneDataWaitExpiry (assoc : Nat) (s : State) : Host.Outcome State Fault Refusal :=
  .next (match s.assoc? assoc with
    | none => s
    | some a => match a.zone with
      | none => s
      | some z =>
        if !z.closing then s
        else whenDue (some (z.closedAt + 10 * ms)) (fun st =>
          let cut := st.io.cmds.filter fun x => x.assoc == assoc && zoneWrite a x && x.key == z.key && (x.st == .accepted || x.st == .needData)
            && !st.writeComplete a x && (!st.inStep || st.ordersCmd a x)
          let s1 := if st.paired && !cut.isEmpty then issueStitch 3 255 assoc 0 [6, assoc] st else st
          let s2 := updAssoc assoc (fun x => { x with zone := x.zone.map fun (y : Zone) => { y with
            cancelled := y.cancelled + cut.length, held := y.held.filter fun p => !cut.any (·.row == p.row) } }) s1
          cut.foldl (cancelRevoked a) s2) s)

/-- ZONE_DRAIN_END (R97): every write of a closing zone has its final status; the capacity returns to the pool. -/
def execZoneDrainEnd (assoc : Nat) (s : State) : Host.Outcome State Fault Refusal :=
  .next (match s.assoc? assoc with
    | none => s
    | some a => match a.zone with
      | none => s
      | some z =>
        if !z.closing || s.io.cmds.any fun x => x.assoc == assoc && zoneWrite a x && x.key == z.key then s
        else endRevokes assoc z.releaseRows z.cancelled (updAssoc assoc (fun x => revokeKey z.key { x with zone := none }) s))

end Sys2Proof.Machine
end

