-- ==== Sys2Proof/Machine/Admin.lean ====
section
/-! DEFINITION. Admin commands: log pages, Identify, Abort, features, events, self-test, keep alive (R116 to R158). -/

namespace Sys2Proof.Machine

/-! ### Placing a page -/

/-- Data of an admin command are placed in the host window; in a pair the responding unit places them and the other unit waits
for DELIVERED (R35, R287). -/
def placeAdmin (c : Cmd) (len : Nat) (bytes : List Nat) (s : State) : State :=
  match s.assoc? c.assoc with
  | none => s
  | some a =>
    if s.inStep && !a.responding then updCmd c.assoc c.row (fun k => { k with st := .waiting }) s
    else placeData { c with dw0 := 0, dw1 := 0 } 4 len (ofBytesLE bytes % 256 ^ len) scOk (updCmd c.assoc c.row (fun k => { k with dispatched := true }) s)

/-- An admin command of an opcode that may execute now. -/
def State.adminReady (id row op : Nat) (s : State) : Option (Assoc × Cmd) :=
  match s.assoc? id, s.ready id row .accepted with
  | some a, some c => if c.admin && c.sqe.opcode == op then some (a, c) else none
  | _, _ => none

/-- A page of zero bytes with fields (offset, bytes) laid over it. -/
def page (n : Nat) (fields : List (Nat × List Nat)) : List Nat :=
  fields.foldl (fun acc f => acc.take f.1 ++ f.2 ++ acc.drop (f.1 + f.2.length)) (zeros n)

/-! ### Log pages -/

/-- Log page 05h (R140): CSUPP in bit 0 of each supported opcode, LBCC in bit 1 of the commands that change blocks. -/
def pageEffects (a : Assoc) (s : State) : List Nat :=
  let adm := (List.range 256).flatMap fun op =>
    bytesLE 4 (if adminOpcode a.tcp op && (op != 0xC1 || s.isAdmin a.principal) then 1 else 0)
  let io := (List.range 256).flatMap fun op =>
    bytesLE 4 (if ioOpcode op then (if op == 0x01 || op == 0x08 || op == 0x09 then 3 else 1) else 0)
  adm ++ io ++ zeros 2048

/-- Log page C0h, Module State (R141). -/
def pageState (s : State) : List Nat :=
  let arrs := (List.range 8).map fun n => arrayRole n s + 16 * (s.arr? n).elim 0 arrayHealth
  let tags := (s.io.cmds.filter (·.tag)).length
  bytesLE 2 1 ++ [unitByte s, modeCode s.md.mode, s.md.ps] ++ zeros 3 ++ bytesLE 8 s.time.dev ++ bytesLE 4 s.img.active
    ++ bytesLE 4 s.img.dialect ++ arrs ++ bytesLE 8 (s.dirtyBytes fun _ => true) ++ bytesLE 8 (s.settingN 0x0883 * 1048576)
    ++ bytesLE 4 tags ++ bytesLE 4 s.audit.tagsHigh ++ bytesLE 4 (s.io.assocs.filter (·.st == .live)).length ++ bytesLE 4 s.audit.dweOn
    ++ bytesLE 8 s.audit.abortsDone ++ bytesLE 8 s.audit.orphaned ++ bytesLE 4 s.audit.drvResets ++ zeros 428

/-- Log page C1h, Deferred Write Errors (R142). -/
def pageDeferred (s : State) : List Nat :=
  bytesLE 4 s.audit.dwe.length ++ zeros 4 ++ bytesLE 8 s.audit.dweTotal ++ s.audit.dwe.flatMap fun e =>
    bytesLE 8 e.seq ++ bytesLE 8 e.time ++ bytesLE 8 e.lba ++ bytesLE 4 e.nsid ++ bytesLE 4 e.cnt ++ bytesLE 4 e.assoc ++ bytesLE 8 e.row
      ++ [e.cause, e.arr] ++ zeros 2

/-- The logical ranges (volume, first LBA, blocks) that a lost entry of an array touches (R143, R174, R248). -/
def State.lostRanges (a : Arr) (l : LostBlk) (s : State) : List (Nat × Nat × Nat) :=
  let x := a.ext.getD (a.rowExt l.row) {}
  match s.vol? x.owner, (List.range a.d).find? fun i => (a.stripPos l.row i).contains l.pos with
  | some v, some i =>
    let byte := l.row % extentRows a.width * a.width + i * a.strip + l.first * 4096
    if x.role == 1 then [(v.no, (x.index * extentBytes + byte) / v.bs, l.cnt * 4096 / v.bs)]
    else
      let lo := byte / 4096
      let hit := v.map.filter fun m =>
        let f := entryFields m.2
        f.1 == a.rowExt l.row && decide (f.2.1 < lo + l.cnt) && decide (lo < f.2.1 + f.2.2.1)
      hit.map fun m => (v.no, m.1 * 65536 / v.bs, 65536 / v.bs)
  | _, _ => []

/-- Log page C2h, Lost Block Ranges of the volume of an NSID, or of all (R143). -/
def pageLost (nsid : Nat) (s : State) : List Nat :=
  let all := s.io.arrs.flatMap fun a => a.lost.flatMap fun l => (s.lostRanges a l).map fun r => (r, a.no, l.reason)
  let mine := all.filter fun r => nsid == 0xFFFFFFFF || nsid == r.1.1 + 1
  bytesLE 4 (min 1024 mine.length) ++ zeros 4 ++ bytesLE 8 mine.length ++ (mine.take 1024).flatMap fun r =>
    bytesLE 4 (r.1.1 + 1) ++ zeros 4 ++ bytesLE 8 r.1.2.1 ++ bytesLE 4 r.1.2.2 ++ [r.2.1, r.2.2] ++ zeros 2

/-- Log page C3h, Association Statistics (R144). -/
def pageStats (a : Assoc) (s : State) : List Nat :=
  let t := a.stats
  bytesLE 4 a.id ++ bytesLE 2 a.ioQueues ++ zeros 2 ++ bytesLE 4 (s.tagsOf a.id) ++ bytesLE 4 a.tagLimit
    ++ ([t.completed, t.reads, t.writes, t.bytesRead, t.bytesWritten, t.abortsRx, t.abortsDone, t.tagsExh, t.violations, t.retx, t.dups].flatMap (bytesLE 8))
    ++ (t.hist.flatMap (bytesLE 4)) ++ zeros 88

/-- The bytes of a log page; pages whose layout the manual takes from the NVMe specification alone are free values (log 7). -/
def State.logBytes (a : Assoc) (lid nsid : Nat) (s : State) : List Nat :=
  match lid with
  | 0x05 => pageEffects a s
  | 0xC0 => pageState s
  | 0xC1 => pageDeferred s
  | 0xC2 => pageLost nsid s
  | 0xC3 => pageStats a s
  | _ => bytesLE ((s.logSize lid).getD 0) (Config.smart s.free)

/-- GET_LOG_PAGE (R139 to R147): the page from the offset on, zero beyond its end; with RAE = 0 its event is armed again. -/
def execGetLogPage (assoc row : Nat) (s : State) : Host.Outcome State Fault Refusal :=
  .next (match s.adminReady assoc row 0x02 with
    | none => s
    | some (a, c) =>
      let q := c.sqe
      let s1 := if bit q.cdw10 15 then s else updAssoc assoc (fun x => { x with unarmed := x.unarmed.filter (·.2 != q.lid) }) s
      placeAdmin c q.logLen (((s.logBytes a q.lid q.nsid).drop q.logOff).take q.logLen) s1.drawn)

/-! ### Identify -/

/-- The lowercase hexadecimal digits of the n-byte number x, most significant first. -/
def hexDigits (n x : Nat) : List Nat := (bytesBE n x).flatMap fun b => [b / 16, b % 16].map fun d => if d < 10 then 48 + d else 87 + d

/-- Identify Controller, CNS 01h (R125); the offsets are those of the NVMe Base Specification that it names. -/
def identController (s : State) : List Nat :=
  let nqn := ascii "nqn.2024-03.example.gubehild:ky2448:" ++ (match s.md.shelf with
    | some x => hexDigits 16 x
    | none => bytesLE 16 s.md.serial)
  page 4096 [(77, [9]), (80, bytesLE 4 0x20000), (256, bytesLE 2 0x10), (258, [15]), (259, [3]), (261, [6]), (320, bytesLE 2 1), (512, [0x66, 0x44]),
    (516, bytesLE 4 1024), (520, bytesLE 2 0x8C), (525, [7]), (768, nqn)]

/-- Blocks allocated of a volume (R126). -/
def allocated (v : Volume) : Nat := if v.packed then (v.map.filter (·.2 != 0)).length * 65536 / v.bs else v.size / v.bs

/-- Identify Namespace, CNS 00h (R126). -/
def identNamespace (v : Volume) : List Nat :=
  let n := v.size / v.bs
  page 4096 [(0, bytesLE 8 n), (8, bytesLE 8 n), (16, bytesLE 8 (allocated v)), (28, [if v.prot then 0x11 else 0]), (29, [if v.prot then 1 else 0]), (33, [9]),
    (104, bytesLE 16 v.nguid), (128, bytesLE 4 ((if v.b512 then 9 else 12) * 65536 + (if v.prot then 16 else 0)))]

/-- Namespace list, CNS 02h: existing volumes above the NSID, rising (R126). -/
def identList (nsid : Nat) (s : State) : List Nat :=
  let ids := (sortNat (s.io.vols.map (·.no + 1))).filter fun n => decide (nsid < n)
  page 4096 [(0, (ids.take 1024).flatMap (bytesLE 4))]

/-- IDENTIFY (R125, R126). -/
def execIdentify (assoc row : Nat) (s : State) : Host.Outcome State Fault Refusal :=
  .next (match s.adminReady assoc row 0x06 with
    | none => s
    | some (_, c) =>
      let v := s.cmdVol c
      let data := match bits c.sqe.cdw10 7 0 with
        | 0 => v.elim (zeros 4096) identNamespace
        | 1 => identController s
        | 2 => identList c.sqe.nsid s
        | 3 => v.elim (zeros 4096) fun w => page 4096 [(0, [2, 16]), (4, bytesLE 16 w.nguid)]
        | _ => v.elim (zeros 4096) fun w => page 4096 [(12, bytesLE 4 (if w.prot then 0x100 else 0))]
      placeAdmin c 4096 data s)

/-! ### Abort -/

/-- ABORT (R149, R150): resolved once every lower row has arrived. The unit that holds the named command's tag decides; it is not
found, or its abort reaches the match point. -/
def execAbort (assoc row : Nat) (s : State) : Host.Outcome State Fault Refusal :=
  .next (match s.adminReady assoc row 0x08 with
    | none => s
    | some (a, c) =>
      if a.arrFloor < row then s
      else
        let sq := bits c.sqe.cdw10 15 0
        let cid := bits c.sqe.cdw10 31 16
        let hold := fun (t : State) => updCmd assoc row (fun k => { k with st := .waiting }) t
        let rec_ := fun (t : State) => if s.inStep then updCmd assoc row (fun k => { k with arrival := some (k.arrival.getD 0) }) t else t
        match s.io.cmds.find? fun k => k.assoc == assoc && k.row != row && k.sqe.qid == sq && k.sqe.cid == cid with
        | none => if s.inStep && !a.responding then hold s else endAbort assoc row 1 (rec_ s)
        | some k => if s.ordersCmd a k then reachMatch assoc k.row (some row) false false (rec_ (hold s)) else hold s)

/-! ### Features -/

/-- A temperature in kelvin as degrees C. -/
def celsius (k : Nat) : Int := (k : Int) - 273

/-- The value of a feature: DW0 of Get Features; SEL 1 gives the default (R127). -/
def featureDw0 (a : Assoc) (fid cdw11 : Nat) (dflt : Bool) : Nat :=
  let under := bits cdw11 21 20 == 1
  match fid with
  | 0x04 => if dflt then (if under then 273 else 358) else if under then (a.tempUnder + 273).toNat else a.tempOver + 273
  | 0x07 => if dflt then 0 else (a.ioQueues - 1) * 65537
  | 0x0F => if dflt then 0 else a.kato
  | 0x06 => 1
  | 0x0B => if dflt then 0xB03 else featVal 0x0B a
  | f => if dflt then 0 else featVal f a

/-- SET_FEATURES (R111, R117, R127). -/
def execSetFeatures (assoc row : Nat) (s : State) : Host.Outcome State Fault Refusal :=
  .next (match s.adminReady assoc row 0x09 with
    | none => s
    | some (_, c) =>
      let v := c.sqe.cdw11
      let fid := c.sqe.fid
      let put := fun (f : Assoc → Assoc) => updAssoc assoc f s
      match fid with
      | 0x04 =>
        let k := celsius (bits v 15 0)
        finishAdm c scOk 0 0 (put fun a => if bits v 21 20 == 1 then { a with tempUnder := k } else { a with tempOver := k.toNat })
      | 0x06 => if bit v 0 then finishAdm c scOk 0 0 s else finishAdm c scNotChangeable 0 0 s
      | 0x07 =>
        let n := min 32 (bits v 15 0 + 1)
        if s.io.cmds.any fun k => k.assoc == assoc && decide (n < k.sqe.qid) then finishAdm c scSequence 0 0 s
        else finishAdm c scOk ((n - 1) * 65537) 0 (put fun a => { a with ioQueues := n })
      | 0x0F =>
        let k := ceilDiv v 100 * 100
        finishAdm c scOk 0 0 (put fun a => { a with kato := k, katoAt := if k == 0 then none else some (s.now + k * ms) })
      | f => finishAdm c scOk 0 0 (put fun a => { a with feats := assocSet f v a.feats }))

/-- GET_FEATURES (R117, R127). -/
def execGetFeatures (assoc row : Nat) (s : State) : Host.Outcome State Fault Refusal :=
  .next (match s.adminReady assoc row 0x0A with
    | none => s
    | some (a, c) => finishAdm c scOk (featureDw0 a c.sqe.fid c.sqe.cdw11 (bits c.sqe.cdw10 10 8 == 1)) 0 s)

/-! ### Events, self-test, keep alive -/

/-- ASYNCHRONOUS_EVENT_REQUEST (R145): it receives the event that has waited longest, or waits for one. -/
def execAsynchronousEventRequest (assoc row : Nat) (s : State) : Host.Outcome State Fault Refusal :=
  .next (match s.adminReady assoc row 0x0C with
    | none => s
    | some (a, c) => match a.events with
      | e :: rest => finishAdm c scOk (e.etype + e.info * 256 + e.page * 65536) 0 (updAssoc assoc (fun x => { x with events := rest }) s)
      | [] => updCmd assoc row (fun k => { k with st := .waiting }) s)

/-- The bays whose drives a self-test covers; only the holder of an array tests its drives (R155). -/
def State.selfTestBays (nsid : Nat) (s : State) : List Nat :=
  let arrs := if nsid == 0 then [] else match nsVol nsid with
    | some v => [s.arrOf v]
    | none => s.arrNos
  arrs.flatMap fun n => if s.acts n then s.arrBays n else []

/-- DEVICE_SELF_TEST (R155 to R158): one test at a time starts or, with STC Fh, ends with result 1h. -/
def execDeviceSelfTest (assoc row : Nat) (s : State) : Host.Outcome State Fault Refusal :=
  .next (match s.adminReady assoc row 0x14 with
    | none => s
    | some (_, c) =>
      let code := bits c.sqe.cdw10 3 0
      if code == 15 then finishAdm c scOk 0 0 (abortSelfTest (fun _ => true) 1 s)
      else if s.io.st.isSome then finishAdm c scSelfTest 0 0 s
      else
        let busy := s.io.cmds.any fun k => !(k.assoc == assoc && k.row == row) && !(k.admin && k.sqe.opcode == 0x0C)
        let s1 := s.onIo fun i => { i with st := some { assoc := assoc, code := code, nsid := c.sqe.nsid, paused := busy } }
        finishAdm c scOk 0 0 ((s.selfTestBays c.sqe.nsid).foldl (fun st b => issueDc b 6 .selfTest 0 0 .selfTest [] st) s1))

/-- SELF_TEST_RESUME (R157): 10 ms with no host command outstanding. -/
def execSelfTestResume (s : State) : Host.Outcome State Fault Refusal :=
  .next (match s.io.st with
    | none => s
    | some t =>
      if !t.paused || s.io.cmds.any fun k => !(k.admin && k.sqe.opcode == 0x0C) then s
      else whenDue (some (t.idleAt.getD s.now + 10 * ms)) (fun st => st.onIo fun i => { i with st := some { t with paused := false } }) s)

/-- SELF_TEST_END (R156, R158): the result and the failing segment enter log 06h. -/
def execSelfTestEnd (result segment : Nat) (s : State) : Host.Outcome State Fault Refusal :=
  .next (match s.io.st with
    | none => s
    | some t =>
      if t.paused then s
      else (s.onIo fun i => { i with st := none }).onAudit fun a => { a with selfRes := ((t.code, result, segment) :: a.selfRes).take 20 })

/-- KEEP_ALIVE (R128). -/
def execKeepAlive (assoc row : Nat) (s : State) : Host.Outcome State Fault Refusal :=
  .next (match s.adminReady assoc row 0x18 with
    | none => s
    | some (_, c) => finishAdm c scOk 0 0 s)

/-- KATO_EXPIRY (R128, R152): no admin command for KATO; the association is reset. The responding unit decides; the timer stands
still during a firmware activation. -/
def execKatoExpiry (assoc : Nat) (s : State) : Host.Outcome State Fault Refusal :=
  .next (match s.assoc? assoc with
    | none => s
    | some a =>
      if a.kato == 0 || s.activationHold || (s.inStep && !a.responding) then s
      else whenDue a.katoAt (fun st => assocReset assoc (issueStitch 13 255 assoc 0 [0, 3, 0] (issueStitch 3 255 assoc 0 [4, assoc] st))) s)

end Sys2Proof.Machine
end

