-- ==== Sys2Proof/Machine/Parse.lean ====
section
/-! DEFINITION. Received frames: the stages of the parser, the miss queue, the slow path and bank swaps (chapter 10). -/

namespace Sys2Proof.Machine

/-- The link index of a port that has a parser: NET0 to NET7 are 0 to 7, MGMT is 8 (R329). -/
def parserLink (p : Nat) : Option Nat := if p < 8 then some p else if p == 47 then some 8 else none

/-- A frame is plain (R330). -/
def framePlain (f : Frame) : Bool := decide (f.tags ≤ 1) && !f.fragment && !f.extHdr

/-- The destination is a module address of the port (R330). -/
def State.moduleAddr (p dst : Nat) (s : State) : Bool := (s.cfg.addrs.getD p []).contains dst

/-- The profile of a frame, numbered in the order of R330: 0 VDT over IPv6, 1 VDT over IPv4, 2 NVMe/TCP, 3 management, 4 other. -/
def State.profile (f : Frame) (s : State) : Nat :=
  if f.port == 47 then
    let udp := f.proto == 17 && (f.eth == .ipv6 || f.eth == .ipv4)
    if f.eth == .ptp || (f.proto == 6 && f.dport == 9127 && (f.eth == .ipv6 || f.eth == .ipv4))
        || (udp && (f.dport == 319 || f.dport == 320))
        || (udp && s.cfg.witAddr != 0 && f.h.src == s.cfg.witAddr && f.sport == s.settingN 0x0781) then 3 else 4
  else if framePlain f && s.moduleAddr f.port f.dst then
    if f.eth == .ipv6 && f.proto == 17 && f.dport == 47370 then 0
    else if f.eth == .ipv4 && f.proto == 17 && f.dport == 47370 then 1
    else if (f.eth == .ipv6 || f.eth == .ipv4) && f.proto == 6 && (f.dport == 4420 || f.dport == 8009) then 2
    else 4
  else 4

/-- The UDP length agrees with the payload length: a HELLO carries no tag (R39). -/
def frameUdpOk (f : Frame) : Bool := f.udpLen == 8 + 64 + f.h.len + (if f.ptype == 10 then 0 else 16)

/-- A frame is malformed under its profile (R342). -/
def frameMalformed (f : Frame) (prof : Nat) : Bool :=
  match prof with
  | 0 => f.short || !frameUdpOk f || f.version != 1 || f.ptype == 0 || decide (12 < f.ptype) || decide (8192 < f.h.len) || !f.ipLenOk
      || f.sum != .good
  | 1 => f.short || !frameUdpOk f || f.version != 1 || f.ptype == 0 || decide (12 < f.ptype) || decide (8192 < f.h.len) || !f.ipLenOk
      || f.sum == .bad
  | 2 => f.short || decide (f.dataOff < 5) || !f.ipLenOk
  | 3 => f.short || !f.ipLenOk
  | _ => false

/-- The wire priority of a frame: the PCP of its tag, else its DSCP through the port's map (R332). The MGMT port has no map
of its own and takes DSCP [5:3]. -/
def State.wirePrio (f : Frame) (s : State) : Nat :=
  if f.tags != 0 then f.pcp % 8
  else if f.port == 47 then f.dscp / 8 % 8
  else (s.parser f.port).dscp.getD (f.dscp % 64) 0 % 8

/-- A frame goes to the slow path, within 100,000 a second (R344, R345). -/
def toSlowPath (f : Frame) (punt : Option Nat) (s : State) : State :=
  let recent := s.sw.slowRate.filter fun t => decide (s.now < t + sec)
  if 100000 ≤ recent.length then updParser f.port (fun p => { p with slowOver := p.slowOver + 1 }) s
  else
    let e : SlowFrame := { port := f.port, kind := f.slow, ident := f.ident, src := f.h.src, dst := f.dst, t := s.now,
                           frag := f.fragment, punt := punt }
    (updParser f.port (fun p => { p with slow := p.slow + 1 }) s).onSw fun w => { w with
      slowQ := w.slowQ ++ [e], slowRate := s.now :: recent }

/-- Cells of a frame reach the CPU port at once: they are counted in and out (R304, R326). -/
def cellsToCpu (f : Frame) (cls : Nat) (s : State) : State :=
  let n := cellsOf f.bytes
  updPort 46 cls (fun r => { r with cout := r.cout + n }) (updPort f.port cls (fun r => { r with cin := r.cin + n }) s)

/-- The most recently used contexts are cached, 1,024 of them (R337). -/
def useContext (id : Nat) (s : State) : State := s.onSw fun w => { w with cached := (id :: w.cached.filter (· != id)).take 1024 }

/-- Steering of an authenticated VDT packet (R338): PLACE and RESP are misdirected; the cells of every other type stay counted
against their wire priority until the packet's own command takes them to their sink (R313). -/
def steer (f : Frame) (prio cls : Nat) (s : State) : State :=
  if f.ptype == 3 || f.ptype == 4 then updParser f.port (fun p => { p with misdir := p.misdir + 1 }) s
  else
    let n := cellsOf f.bytes
    let held := s.sw.pausedBy.contains (f.port, prio) || !s.canTake cls n
    let i : InItem := { port := f.port, prio := prio, cls := cls, cells := n, assoc := f.h.assoc, seq := f.h.seq, head := held }
    pauseCheck f.port prio ((updPort f.port cls (fun r => { r with cin := r.cin + n }) s).onSw fun w => { w with inflight := w.inflight ++ [i] })

/-- Metering after stage 4: a red CMD or PUSH is switched in TC0, its wire priority unchanged (R359). -/
def meterFrame (f : Frame) (a : Assoc) (s : State) : Nat × State :=
  let r := meterColour a (s.frameCost f.port f.bytes) s.now
  let cls := permittedClass f.ptype f.h.cls
  (if r.1 == .red && (f.ptype == 1 || f.ptype == 2) then 0 else cls, updAssoc a.id (fun x => { x with meter := r.2 }) s)

/-- Stages 5 and 6 of a VDT packet whose context is at hand. -/
def authenticate (f : Frame) (prio cls : Nat) (s : State) : State :=
  match arrivalCheck f.h f.ptype (useContext f.h.assoc s) with
  | .stop t => t
  | .go _ => steer f prio cls (useContext f.h.assoc s)

/-- Stages 4 to 6 of a VDT packet (R329): association match, meter, context, authentication and steering. A HELLO goes to the
CPU port by its type alone (R336), but one that names an association without RESUME is no HELLO-1, and is discarded (R69;
DEDUCED, log 29). A packet whose context is not cached waits in the miss queue of 64, and when that is full
the pipeline stalls (R337). -/
def vdtFrame (f : Frame) (prio : Nat) (s : State) : State :=
  if f.ptype == 10 then
    if f.h.assoc != 0 && !f.resume then updParser f.port (fun p => { p with helloD := p.helloD + 1 }) s else cellsToCpu f 5 s
  else
    let s1 := if prio == f.h.cls then s else updParser f.port (fun p => { p with mism := p.mism + 1 }) s
    match s1.io.assocs.find? fun a => a.id == f.h.assoc && a.src == f.h.src && !a.tcp with
    | none => match arrivalCheck f.h f.ptype s1 with
      | .stop t => t
      | .go _ => s1
    | some a =>
      let m := meterFrame f a s1
      if s1.sw.cached.contains a.id then authenticate f prio m.1 m.2
      else if (s1.parser f.port).missQ.length < 64 then
        updParser f.port (fun p => { p with misses := p.misses + 1, missQ := p.missQ ++ [f] }) s1
      else
        updParser f.port (fun p => { p with misses := p.misses + 1, stalls := p.stalls + 1, stalled := p.stalled ++ [f] }) s1

/-- Stages 2 to 6 of a frame that the MAC has passed (R329). -/
def parseFrame (f : Frame) (s : State) : State :=
  let prof := s.profile f
  let prio := s.wirePrio f
  let s1 := updParser f.port (fun p => { p with frames := p.frames.modify prof (· + 1) }) s
  if frameMalformed f prof then
    let s2 := updParser f.port (fun p => { p with
      malformed := p.malformed.modify prof (· + 1)
      badSum := p.badSum + (if prof ≤ 1 && f.sum == .bad then 1 else 0) }) s1
    if (s.parser f.port).mal.getD prof 1 == 0 then s2
    else toSlowPath f (some prof) (updParser f.port (fun p => { p with punted := p.punted + 1 }) s2)
  else match prof with
    | 0 => vdtFrame f prio s1
    | 1 => vdtFrame f prio s1
    | 2 => cellsToCpu f (s.parser f.port).tcpCls s1
    | 3 => cellsToCpu f (if f.proto == 17 && f.dport != 319 && f.dport != 320 && f.eth != .ptp then 7 else 6) s1
    | _ => toSlowPath f none s1

/-- Cells that a frame held unparsed takes in its port's headroom. -/
def State.headCells (p : Nat) (s : State) : Nat :=
  ((s.sw.inflight.filter fun i => i.port == p && i.head).map (·.cells)).sum + (((s.parser p).stalled.map fun f => cellsOf f.bytes)).sum

/-- FRAME_RECEIVE (R305, R306, R314, R326, R329 to R345, R359): a frame arrives at a NET or MGMT port whose link is up. What the
packet does once it is at its destination is the packet's own command; a packet that leaves at an earlier stage has none. A
frame after a pause takes the port's headroom, and finds no cell when that is full. While the pipeline stalls or is stopped
for a bank swap, frames are held unparsed (R337, R348). -/
def execFrameReceive (f : Frame) (s : State) : Host.Outcome State Fault Refusal :=
  match parserLink f.port with
  | none => .fault .noSuchPort
  | some k => .next (
    if !s.sw.linkUp.getD k false then s
    else if !f.fcsOk || !f.ownMac then updParser f.port (fun p => { p with macD := p.macD + 1 }) s
    else
      let prio := s.wirePrio f
      let n := cellsOf f.bytes
      if f.port < 8 && s.sw.pausedBy.contains (f.port, prio) && decide (2048 < s.headCells f.port + n) then
        updPort f.port prio (fun r => { r with hdrOver := r.hdrOver + 1 }) s
      else
        let p := s.parser f.port
        if p.swap == 2 || !p.stalled.isEmpty then updParser f.port (fun x => { x with stalled := x.stalled ++ [f] }) s
        else parseFrame f s)

/-- Frames held unparsed are parsed in order, until the pipeline stalls again (R337, R348). -/
def resumeStalled (port : Nat) : Nat → State → State
  | 0, s => s
  | n + 1, s =>
    let p := s.parser port
    match p.stalled with
    | [] => s
    | f :: rest =>
      if p.swap == 2 || 64 ≤ p.missQ.length then s
      else resumeStalled port n (parseFrame f (updParser port (fun x => { x with stalled := rest }) s))

/-- CONTEXT_FETCH_COMPLETE (R337, R349): a context is cached; the frames that wait for it go on, then those behind a stall. -/
def execContextFetchComplete (assoc : Nat) (s : State) : Host.Outcome State Fault Refusal :=
  .next (
    let waiting := s.sw.parsers.flatMap fun p => p.missQ.filter fun f => f.h.assoc == assoc
    if waiting.isEmpty then s
    else
      let s1 := s.onSw fun w => { w with parsers := w.parsers.map fun p => { p with missQ := p.missQ.filter fun f => f.h.assoc != assoc } }
      let s2 := waiting.foldl (fun st f =>
        let m := match st.assoc? assoc with
          | some a => meterFrame f a st
          | none => (permittedClass f.ptype f.h.cls, st)
        authenticate f (st.wirePrio f) m.1 m.2) (useContext assoc s1)
      (s2.sw.parsers.map (·.port)).foldl (fun st p => resumeStalled p (st.parser p).stalled.length st) s2)

/-- SLOW_PATH_FRAME (R343, R344): the management cores take the oldest frame of the slow path: they answer address resolution and
echo requests for a module address, at most 1,000 echoes a second and port, count fragments, capture punted frames and
discard the rest. -/
def execSlowPathFrame (s : State) : Host.Outcome State Fault Refusal :=
  .next (match s.sw.slowQ with
    | [] => s
    | f :: rest =>
      let s1 := s.onSw fun w => { w with slowQ := rest }
      match f.punt with
      | some prof => updParser f.port (fun p => { p with capture := ((prof, f.ident) :: p.capture).take 256 }) s1
      | none =>
        if f.frag then updParser f.port (fun p => { p with frags := p.frags + 1 }) s1
        else match f.kind with
          | .resolve => if s.moduleAddr f.port f.dst then enqueue f.port 6 64 .arpReply s1 else s1
          | .echo =>
            let recent := s.sw.echoRate.filter fun e => decide (s.now < e.2 + sec)
            if s.moduleAddr f.port f.dst && decide ((recent.filter (·.1 == f.port)).length < 1000) then
              enqueue f.port 6 64 (.echoReply f.ident) (s1.onSw fun w => { w with echoRate := (f.port, s.now) :: recent })
            else s1
          | .linkInfo => s1
          | .other => s1)

/-! ### Bank swaps (R346 to R348) -/

/-- BANK_SWAP_PAUSE (R347): a NET port whose standby bank is written, while no port is in a swap, sends a pause for every priority. -/
def execBankSwapPause (port : Nat) (s : State) : Host.Outcome State Fault Refusal :=
  if 8 ≤ port then .fault .noSuchPort
  else .next (
    let p := s.parser port
    if !p.standby || s.sw.parsers.any (fun x => x.swap != 0) then s
    else
      let start := fun (x : Parser) => { x with
        bankNext := some x.nextBank, lanesS := none, dscpS := none, malS := none, tcpClsS := none, swap := 1, swapAt := s.now }
      (List.range 8).foldl (fun st c => updPort port c (fun r => { r with pSent := r.pSent + 1 }) (st.onSw fun w => { w with
        pauseTx := w.pauseTx ++ [(port, c, 65535)]
        pauseRep := (w.pauseRep.filter fun x => !(x.1 == port && x.2.1 == c)) ++ [(port, c, s.now + 20 * us)] })) (updParser port start s))

/-- PARSER_STOP (R347): 4,784 ns after the pause the parser takes no new frame. -/
def execParserStop (port : Nat) (s : State) : Host.Outcome State Fault Refusal :=
  if 8 ≤ port then .fault .noSuchPort
  else .next (
    let p := s.parser port
    if p.swap == 1 then whenDue (some (p.swapAt + 4784)) (updParser port fun x => { x with swap := 2 }) s else s)

/-- BANK_SWAP (R347, R348): 6 us after the pause, with no frame left waiting for a context, the banks swap; the parser takes frames
on the new bank, and a pause of 0 quanta goes out for each priority whose own condition does not hold. -/
def execBankSwap (port : Nat) (s : State) : Host.Outcome State Fault Refusal :=
  if 8 ≤ port then .fault .noSuchPort
  else .next (
    let p := s.parser port
    if p.swap != 2 || !p.missQ.isEmpty then s
    else whenDue (some (p.swapAt + 6 * us)) (fun st =>
      let done := fun (x : Parser) => match x.bankNext with
        | some n => { x with lanes := n.lanes, dscp := n.dscp, txDscp := n.txDscp, mal := n.mal, tcpCls := n.tcpCls, bankNext := none,
                             swap := 0, swaps := x.swaps + 1, swapTime := x.swapTime + (st.now - (x.swapAt + 4784)) }
        | none => { x with swap := 0 }
      let s1 := updParser port done st
      let s2 := (List.range 8).foldl (fun t c =>
        if t.sw.pausedBy.contains (port, c) then t
        else t.onSw fun w => { w with pauseTx := w.pauseTx ++ [(port, c, 0)], pauseRep := w.pauseRep.filter fun x => !(x.1 == port && x.2.1 == c) }) s1
      resumeStalled port (s2.parser port).stalled.length s2) s)

end Sys2Proof.Machine
end

