-- ==== Sys2Proof/Machine/Arb.lean ====
section
/-! DEFINITION. Flow control, class arbitration at ports and bays, departures, ageing, planes, gate lists and queue samples
(chapters 09 and 11). -/

namespace Sys2Proof.Machine

/-! ### Flow control (R313 to R315) -/

/-- PAUSE_REPEAT_TIMER (R313, R347): a pause whose condition lasts is sent again every 20 us. -/
def execPauseRepeatTimer (port prio : Nat) (s : State) : Host.Outcome State Fault Refusal :=
  .next (match s.sw.pauseRep.find? fun x => x.1 == port && x.2.1 == prio with
    | none => s
    | some r => whenDue (some r.2.2) (fun st =>
        updPort port prio (fun c => { c with pSent := c.pSent + 1 }) (st.onSw fun w => { w with
          pauseTx := w.pauseTx ++ [(port, prio, 65535)]
          pauseRep := updWhere (fun x => x.1 == port && x.2.1 == prio) (fun x => (x.1, x.2.1, st.now + 20 * us)) w.pauseRep })) s)

/-- The time of a number of pause quanta at a line rate: 512 bit times each (R313). -/
def quantaTime (quanta rate : Nat) : Nat := quanta * 64 * nano / rate

/-- The pause in force of a class at a port ends: the time it lasted is counted (R326). -/
def closePause (port cls : Nat) (s : State) : State :=
  match s.sw.pauseRx.find? fun x => x.1 == port && x.2.1 == cls with
  | none => s
  | some x => updPort port cls (fun r => { r with pTime := r.pTime + (min s.now x.2.2.1 - x.2.2.2) })
      (s.onSw fun w => { w with pauseRx := w.pauseRx.filter fun y => !(y.1 == port && y.2.1 == cls) })

/-- PAUSE_FRAME (R315, R326): a pause received at a NET port or MGMT sets or replaces the time left for its class. -/
def execPauseFrame (port cls quanta : Nat) (s : State) : Host.Outcome State Fault Refusal :=
  match parserLink port with
  | none => .fault .noSuchPort
  | some k => .next (
    let s1 := closePause port cls s
    if quanta == 0 then s1
    else
      let till := s.now + quantaTime quanta (s.sw.rate.getD k 1)
      updPort port cls (fun r => { r with pRecv := r.pRecv + 1 }) (s1.onSw fun w => { w with pauseRx := w.pauseRx ++ [(port, cls, till, s.now)] }))

/-- PAUSE_EXPIRY (R315): the time left in a received pause has run out. -/
def execPauseExpiry (port cls : Nat) (s : State) : Host.Outcome State Fault Refusal :=
  .next (match s.sw.pauseRx.find? fun x => x.1 == port && x.2.1 == cls with
    | none => s
    | some x => whenDue (some x.2.2.1) (closePause port cls) s)

/-- A class may send at a port: no pause in force holds it (R315). -/
def State.unpaused (port cls : Nat) (s : State) : Bool := !s.sw.pauseRx.any fun x => x.1 == port && x.2.1 == cls && decide (s.now < x.2.2.1)

/-- The credits that a yarn link grants for a class, cells (R315). -/
def yarnGrant (cls : Nat) : Nat := if cls == 7 then 1024 else 4096

/-- Credits spent on a link for a class and not yet returned. -/
def State.credSpent (link cls : Nat) (s : State) : Nat := ((s.sw.credTx.filter fun x => x.1 == link && x.2.1 == cls).map (·.2.2)).sum

/-- A yarn message has been taken: its link carried a valid frame (R274), and its cells are to be returned (R315). -/
def yarnFreed (cls bytes : Nat) (s : State) : State :=
  let l := s.yarnLink
  let n := cellsOf bytes
  (s.onPair fun p => { p with lastRx := p.lastRx.modify l fun _ => s.now }).onSw fun w => match w.credRx.find? fun x => x.1 == l && x.2.1 == cls with
    | some x => { w with credRx := (l, cls, x.2.2.1 + n, x.2.2.2) :: w.credRx.filter fun y => !(y.1 == l && y.2.1 == cls) }
    | none => { w with credRx := (l, cls, n, s.now) :: w.credRx }

/-- CREDIT_RETURN_TIMER (R315): credits go back when 64 cells have been freed or 1 us has passed. The return itself takes no
credit (log 19). -/
def execCreditReturnTimer (link cls : Nat) (s : State) : Host.Outcome State Fault Refusal :=
  .next (match s.sw.credRx.find? fun x => x.1 == link && x.2.1 == cls with
    | none => s
    | some x =>
      if 64 ≤ x.2.2.1 || decide (x.2.2.2 + us ≤ s.now) then
        s.onSw fun w => { w with
          credRx := w.credRx.filter fun y => !(y.1 == link && y.2.1 == cls)
          wire := w.wire ++ [(32 + link, .yarnCredit link cls x.2.2.1)] }
      else s)

/-- YARN_CREDIT (R315): credits returned by the partner release their class on the link. -/
def execYarnCredit (link cls cells : Nat) (s : State) : Host.Outcome State Fault Refusal :=
  .next (
    let left := s.credSpent link cls - cells
    let rest := s.sw.credTx.filter fun x => !(x.1 == link && x.2.1 == cls)
    s.onSw fun w => { w with credTx := if left == 0 then rest else (link, cls, left) :: rest })

/-! ### The arbiter (R354 to R356, R368) -/

/-- The record of a scheduler that is as new (R351). -/
def State.sched (inst : Nat) (s : State) : Sched := (s.sw.scheds.find? (·.inst == inst)).getD { inst := inst }

/-- Store the record of a scheduler. -/
def putSched (x : Sched) (s : State) : State := s.onSw fun w => { w with scheds := x :: w.scheds.filter fun y => y.inst != x.inst }

/-- Update the record of an observed queue (R371). -/
def updQrec (q : Nat) (f : QRec → QRec) (s : State) : State :=
  s.onSw fun w => if w.qrecs.any fun r => r.q == q then { w with qrecs := updWhere (·.q == q) f w.qrecs } else { w with qrecs := w.qrecs ++ [f { q := q }] }

/-- The item at the head of a queue: its number, and its cost in bytes. -/
structure Head where
  id : Nat := 0
  cost : Nat := 0
  deriving DecidableEq, Repr

/-- The answer of the gate to the head of a class: closed, does not fit its window, fits, or goes under the exception (R368). -/
inductive GateSay where
  | closed | wait | fits | exception
  deriving DecidableEq, Repr

/-- The test of a head item against its class's window (R368). -/
def gateTest (g : Option Gate) (c cost rate wfin : Nat) (s : State) : GateSay :=
  match g with
  | none => .fits
  | some l => match gateWindow l c s.time.dev with
    | none => .closed
    | some none => .fits
    | some (some (ago, left)) =>
      let len := cost * nano / rate
      if max wfin s.now + len ≤ s.now + left then .fits
      else if ago + left < len && wfin ≤ s.now - ago then .exception
      else .wait

/-- One turn of the deficit weighted round robin among TC4 to TC0: the class chosen, and the turn, freshness and deficits after it
(R355). -/
def dwrr (ok : Nat → Bool) (cost quantum : Nat → Nat) : Nat → Nat → Bool → List Nat → Option (Nat × List Nat)
  | 0, _, _, _ => none
  | n + 1, turn, fresh, d =>
    let next := if turn == 0 then 4 else turn - 1
    if !ok turn then dwrr ok cost quantum n next true d
    else
      let d1 := if fresh then d.modify turn (· + quantum turn) else d
      if cost turn ≤ d1.getD turn 0 then some (turn, d1.modify turn (· - cost turn))
      else dwrr ok cost quantum n next true d1

/-- The choice of an instance among its heads (R354): the class that goes, and the state with the instance's record and counters
after it. `free` is what the place itself asks of a class: pauses, credits, room. -/
def arbitrate (inst : Nat) (g : Option Gate) (rate : Nat) (bays : Bool) (q0 : Nat) (heads : Nat → Option Head) (free : Nat → Bool)
    (s : State) : Option Nat × State :=
  let x := s.sched inst
  let dt := s.now - x.ceilAt
  let c6 := creditAfter x.ceil6 (rate * s.settingN 0x0685 / 100) dt 65536 (heads 6).isSome
  let c5 := creditAfter x.ceil5 (rate * s.settingN 0x0686 / 100) dt 65536 (heads 5).isSome
  let cost := fun c => ((heads c).map (·.cost)).getD 0
  let say := fun c => gateTest g c (cost c) rate (x.wfin.getD c 0) s
  let gateOk := fun c => say c == .fits || say c == .exception
  let ceilOk := fun c => if c == 6 then decide (0 ≤ c6) else if c == 5 then decide (0 ≤ c5) else true
  let base := fun c => (heads c).isSome && free c && gateOk c
  let ok := fun c => base c && ceilOk c
  let quantum := fun c => s.settingN 0x0684 (c + if bays then 256 else 0) * 16384
  let d0 := x.deficit.mapIdx fun c d => if (heads c).isSome then d else 0
  let most := (List.range 5).foldl (fun m c => max m (cost c)) 0
  let rr := dwrr ok cost quantum (5 * (most / 16384 + 2)) x.turn x.fresh d0
  let pick := if ok 7 then some 7 else if ok 6 then some 6 else if ok 5 then some 5 else rr.map (·.1)
  let waits := (List.range 8).filter fun c => (heads c).isSome && free c && say c == .wait && x.gw.getD c 0 != (heads c).elim 0 fun h => h.id + 1
  let lost := [5, 6].filter fun c => base c && !ceilOk c
  let gw := x.gw.mapIdx fun c v => if waits.contains c then (heads c).elim 0 fun h => h.id + 1 else v
  let y : Sched := { x with deficit := d0, ceil6 := c6, ceil5 := c5, ceilAt := s.now, gw := gw }
  let s1 := waits.foldl (fun st c => updQrec (q0 + c) (fun r => { r with gateWaits := r.gateWaits + 1 }) st) s
  let s2 := lost.foldl (fun st c => updQrec (q0 + c) (fun r => { r with ceilWaits := r.ceilWaits + 1 }) st) s1
  match pick with
  | none => (none, putSched y s2)
  | some c =>
    let fin := max (x.wfin.getD c 0) s.now + cost c * nano / rate
    let z : Sched := { y with
      wfin := y.wfin.modify c fun _ => fin
      ceil6 := if c == 6 then creditSpend c6 (cost c) (-65536) else c6
      ceil5 := if c == 5 then creditSpend c5 (cost c) (-65536) else c5
      turn := if c < 5 then c else y.turn
      fresh := if c < 5 then false else y.fresh
      deficit := if c < 5 then (rr.map (·.2)).getD d0 else d0 }
    let s3 := if say c == .exception then updQrec (q0 + c) (fun r => { r with overruns := r.overruns + 1 }) s2 else s2
    (some c, putSched z s3)

/-- A class whose queue is empty has its deficit set to 0 (R355). -/
def emptied (inst c : Nat) (s : State) : State :=
  putSched (let x := s.sched inst; { x with deficit := x.deficit.modify c fun _ => 0, fresh := true }) s

/-! ### Ageing and departures (R318 to R320, R358) -/

/-- The ports whose queued cells are aged: NET, BAY, YARN and MGMT (R318, R319). -/
def agedPort (p : Nat) : Bool := decide (p < 34) || p == 47

/-- A packet is lost in the switch and recovered as R320 gives: a VDT packet counts as sent and its timer starts; drive data fail
their drive command; a yarn message, ARP reply or witness message is sent again by its own rule. -/
def recoverLost (q : QItem) (s : State) : State :=
  match q.msg with
  | .vdtRef a seq =>
    let start := fun (x : Assoc) (p : TxPkt) => { p with sentAt := some s.now, armed := x.rto, timer := some (s.now + x.rto) }
    updAssoc a (fun x => { x with unacked := updWhere (·.seq == seq) (start x) x.unacked }) s
  | .driveData dc _ => driveEnds dc false 0 false [] s
  | _ => s

/-- A packet older than the ageing limit is discarded whole and counted (R318). -/
def ageItem (s : State) (q : QItem) : State :=
  let n := cellsOf q.bytes
  recoverLost q (updPort q.port q.cls (fun r => { r with pkAged := r.pkAged + 1, ceAged := r.ceAged + n })
    (s.onSw fun w => { w with egress := w.egress.filter fun x => x.id != q.id }))

/-- Queued packets past the ageing limit at ports that satisfy p. -/
def State.aged (p : Nat → Bool) (s : State) : List QItem :=
  s.sw.egress.filter fun q => p q.port && agedPort q.port && decide (q.t + s.settingN 0x0680 * ms < s.now)

/-- The gate holder of a port, none for a port without gates (R351, R367). -/
def gateHolder (p : Nat) : Option Nat :=
  if p < 8 then some p else if p == 32 then some 8 else if p == 33 then some 9 else if p == 47 then some 10 else none

/-- The rate of a bay, bytes per second, by its lanes (R304, R351, R374). -/
def State.bayRate (bay : Nat) (s : State) : Nat :=
  let full := if (s.chan bay).x4 then 30000000000 else 15000000000
  match s.drive? bay with
  | some d => if d.gen5 then full / 2 else full
  | none => full

/-- The rate of a port, bytes per second (R304, R351); in PS2 a NET port runs on one lane (R429). -/
def State.portRate (p : Nat) (s : State) : Nat :=
  if p < 8 then max 1 (if s.md.ps == 2 then min 12500000000 (s.sw.rate.getD p 1) else s.sw.rate.getD p 1)
  else if p == 47 then max 1 (s.sw.rate.getD 8 1)
  else if p < 32 then s.bayRate (p - 8)
  else if p < 34 then 50000000000
  else if p < 42 then 128000000000
  else if p < 46 then 96000000000
  else 64000000000

/-- A port can send: its link is up (R318, R351). -/
def State.portUp (p : Nat) (s : State) : Bool :=
  if p < 8 then s.sw.linkUp.getD p false
  else if p == 47 then s.sw.linkUp.getD 8 false
  else if p < 32 then (s.drive? (p - 8)).any (·.linkUp)
  else if p < 34 then s.pair.links.getD (p - 32) false
  else true

/-- What a VDT packet carries as it leaves: the acknowledgement fields of this moment (R63), its attempt and the key phase (R58,
R65). A KEEPALIVE asks for an ACK at once (R68). -/
def departVdt (a : Assoc) (p : TxPkt) : OutMsg :=
  let now := match p.body with
    | .keepalive r => !r
    | _ => false
  .vdt a.id a.src a.udpPort p.seq p.attempt a.txPhase p.cls now a.rxCum (sackBits a.rxCum a.rxSet) p.body

/-- The transport's side of a departure (R58, R63, R65, R310): timer, key phase, acknowledgement state. -/
def sentVdt (id seq : Nat) (s : State) : State :=
  updAssoc id (fun a =>
    let mark := fun (p : TxPkt) => { p with sentAt := some s.now, armed := a.rto, timer := some (s.now + a.rto), phase := a.txPhase }
    let b := { a with
      unacked := updWhere (·.seq == seq) mark a.unacked
      txPhaseN := a.txPhaseN + 1, lastAct := s.now, rxNew := 0, rxOldest := none }
    if 2 ^ 32 ≤ b.txPhaseN then nextPhase s.now b else b) s

/-- A packet leaves by its port whole (R326, R358). -/
def depart (q : QItem) (s : State) : State :=
  let n := cellsOf q.bytes
  let out := match q.msg with
    | .vdtRef a seq => match s.assoc? a with
      | some x => match x.unacked.find? (·.seq == seq) with
        | some p => departVdt x p
        | none => q.msg
      | none => q.msg
    | m => m
  let s1 := updPort q.port q.cls (fun r => { r with cout := r.cout + n, restored := r.restored + (if q.spilled then n else 0) }) s
  let yarn := q.port == 32 || q.port == 33
  let spent := (q.port - 32, q.cls, s.credSpent (q.port - 32) q.cls + n)
  let cred := spent :: s1.sw.credTx.filter fun x => !(x.1 == q.port - 32 && x.2.1 == q.cls)
  let s2 := s1.onSw fun w => { w with
    egress := w.egress.filter fun x => x.id != q.id
    wire := w.wire ++ [(q.port, out)]
    depRate := (q.port * 8 + q.cls, s.now, q.bytes) :: w.depRate.filter fun d => decide (s.now ≤ d.2.1 + ms)
    credTx := if yarn then cred else w.credTx }
  let s3 := if yarn then s2.onPair fun p => { p with lastTx := p.lastTx.modify (q.port - 32) fun _ => s.now } else s2
  match q.msg with
  | .vdtRef a seq => sentVdt a seq s3
  | _ => s3

/-- The head of a port's queue of a class. -/
def State.headOf (p c : Nat) (s : State) : Option QItem := s.sw.egress.find? fun q => q.port == p && q.cls == c

/-- EGRESS_SELECT (R312, R315, R316, R318, R351 to R358, R368): a free port drops what has aged at the head of its queues, chooses
the next packet among the eligible classes and sends it whole. CMP, PAR and CPU take their cells in class order. -/
def execEgressSelect (port : Nat) (s : State) : Host.Outcome State Fault Refusal :=
  if 48 ≤ port then .fault .noSuchPort
  else .next (
    let s0 := (s.aged (· == port)).foldl ageItem s
    if !s0.portUp port then s0
    else
      let rate := s0.portRate port
      let heads := fun c => (s0.headOf port c).map fun q => ({ id := q.id, cost := s0.frameCost port q.bytes } : Head)
      let credit := fun c => match s0.headOf port c with
        | some q => if port == 32 || port == 33 then decide (s0.credSpent (port - 32) c + cellsOf q.bytes ≤ yarnGrant c) else true
        | none => true
      let free := fun c => s0.unpaused port c && credit c
      let starved := if port == 32 || port == 33 then (List.range 8).filter fun c => (heads c).isSome && !credit c else []
      let s1 := starved.foldl (fun st c => updPort port c (fun r => { r with pSent := r.pSent + 1 }) st) s0
      let r := match gateHolder port with
        | some h => arbitrate port (s1.gateOf h) rate false (port * 8) heads free s1
        | none => (([7, 6, 5, 4, 3, 2, 1, 0].find? fun c => (heads c).isSome), s1)
      match r.1.bind fun c => s0.headOf port c with
      | none => r.2
      | some q =>
        let s2 := depart q r.2
        if (s2.headOf port q.cls).isNone && decide (q.cls < 5) && (gateHolder port).isSome then emptied port q.cls s2 else s2)

/-- AGEING_SWEEP (R318, R320): whole packets past the limit are discarded from every queue that ages. -/
def execAgeingSweep (s : State) : Host.Outcome State Fault Refusal :=
  .next ((s.aged fun _ => true).foldl ageItem s)

/-- PLANE_FAILURE (R324, R478): a plane fails; the packets that lost cells in it, named by their order of entry, are recovered as aged
ones, and the plane is out of service. -/
def execPlaneFailure (plane : Nat) (lost : List Nat) (s : State) : Host.Outcome State Fault Refusal :=
  .next (
    if 4 ≤ plane || !s.sw.planes.getD plane false then s
    else
      let gone := s.sw.egress.filter fun q => lost.contains q.id
      let s1 := s.onSw fun w => { w with
        planes := w.planes.modify plane fun _ => false
        planeDrops := w.planeDrops + (gone.map fun q => cellsOf q.bytes).sum
        egress := w.egress.filter fun q => !lost.contains q.id }
      let s2 := gone.foldl (fun st q => recoverLost q st) s1
      partFails 0x3001 plane s2)

/-! ### Gate lists (R365, R366) -/

/-- The entry of a list that a device time names, and the device time at which it ends. -/
def entryAt : List (Nat × Nat) → Nat → Nat → Nat → Nat × Nat
  | [], k, _, start => (k, start)
  | e :: es, k, pos, start =>
    if pos < 4 * e.1 then (k, start + 4 * e.1) else entryAt es (k + 1) (pos - 4 * e.1) (start + 4 * e.1)

/-- The cycle of a list, ns (R365). -/
def cycleNs (l : List (Nat × Nat)) : Nat := 4 * (l.map (·.1)).sum

/-- A list with a base takes up the entry that device time names (R366). -/
def gateAt (g : Gate) (entries : List (Nat × Nat)) (base dev : Nat) : Gate :=
  let cyc := max 1 (cycleNs entries)
  let pos := ((dev : Int) - base) % cyc
  let e := entryAt entries 0 pos.toNat (dev - pos.toNat)
  { g with entries := entries, base := base, started := true, cur := e.1, curEnd := e.2 }

/-- GATE_INTERVAL_END (R366): the interval of a list's entry ends and the next entry runs; a written list starts at its instant; a
running list changes over at the first boundary of its cycle at or after the change time. -/
def execGateIntervalEnd (list : Nat) (s : State) : Host.Outcome State Fault Refusal :=
  .next (
    let g := s.sw.gates.getD list {}
    let dev := s.time.dev
    let put := fun (x : Gate) => s.onSw fun w => { w with gates := w.gates.modify list fun _ => x }
    if !g.started then
      match g.newE with
      | none => s
      | some e => if g.newBase ≤ dev then put (gateAt { g with newE := none } e g.newBase dev) else s
    else if dev < g.curEnd then s
    else
      let boundary := g.cur + 1 == g.entries.length
      match g.newE with
      | some e =>
        if boundary && decide (g.change ≤ g.curEnd) then put (gateAt { g with newE := none } e g.curEnd dev) else put (gateAt g g.entries g.base dev)
      | none => put (gateAt g g.entries g.base dev))

/-! ### Observation (R370, R371) -/

/-- The observed queues: every port and class, and every bay's submission queue and class (R370). -/
def allQueues : List Nat := List.range 384 ++ (List.range 192).map (· + 2048)

/-- Depth and age of the head of an observed queue: cells and us at a port, commands and us at a bay (R370). -/
def State.queueNow (q : Nat) (s : State) : Nat × Nat :=
  if q < 384 then
    (s.depth (q / 8) (q % 8), (s.headOf (q / 8) (q % 8)).elim 0 fun h => (s.now - h.t) / us)
  else
    let l := s.io.dcs.filter fun d => d.bay == q / 8 - 256 && d.cls == q % 8 && d.subAt.isNone
    (l.length, (l.head?).elim 0 fun d => (s.now - d.queued) / us)

/-- QUEUE_SAMPLE (R370): every observed queue is sampled at once. -/
def execQueueSample (s : State) : Host.Outcome State Fault Refusal :=
  .next (
    let one := fun (q : Nat) =>
      let r := (s.sw.qrecs.find? (·.q == q)).getD { q := q }
      let v := s.queueNow q
      { r with depth := r.depth.modify (histBin v.1) (· + 1), age := r.age.modify (histBin v.2) (· + 1), samples := r.samples + 1 }
    s.onSw fun w => { w with qrecs := allQueues.map one })

/-! ### Drive submission (R309, R311, R357) -/

/-- The queued drive command at the head of a bay's class. -/
def State.bayHead (bay c : Nat) (s : State) : Option DrvCmd := s.io.dcs.find? fun d => d.bay == bay && d.cls == c && d.subAt.isNone

/-- The module may submit drive commands at a bay: the drive is ready on an ON channel, it has submission credit, its array is not
being handed over, and the mode runs drives (R293, R357, R400). -/
def State.bayOpen (bay : Nat) (s : State) : Bool :=
  let ready := match s.drive? bay with
    | some d => d.ready && d.linkUp
    | none => false
  let handed := match s.memberAt bay with
    | some (arr, _) => s.pair.hand.any fun h => h.arr == arr
    | none => false
  ready && (s.chan bay).st == .on && s.inService 0x3007 bay && decide (s.outstanding bay < 1024) && !handed
    && (s.md.mode == .solo || s.md.mode == .paired || s.md.mode == .boot || s.md.mode == .maintenance)

/-- DRIVE_SUBMISSION (R308, R309, R311, R351 to R358, R368): a bay's scheduler submits the next drive command among the eligible
classes. Write data leave WBUF only while the bay's egress queue of the class holds at most 1 MiB. -/
def execDriveSubmission (bay : Nat) (s : State) : Host.Outcome State Fault Refusal :=
  if 24 ≤ bay then .fault .noSuchBay
  else .next (
    if !s.bayOpen bay then s
    else
      let heads := fun c => (s.bayHead bay c).map fun d => ({ id := d.id, cost := s.driveCost d.blocksMoved } : Head)
      let room := fun c => match s.bayHead bay c with
        | some d => d.op != .write || decide (s.depth (8 + bay) c ≤ 4096)
        | none => true
      let held := (List.range 8).filterMap fun c => if room c then none else (s.bayHead bay c).bind fun d => if d.held then none else some (c, d.id)
      let s1 := held.foldl (fun st x => updDc x.2 (fun d => { d with held := true }) (updPort (8 + bay) x.1 (fun r => { r with defer := r.defer + 1 }) st)) s
      let r := arbitrate (256 + bay) (s1.gateOf 11) (s.bayRate bay) true ((256 + bay) * 8) heads room s1
      match r.1.bind fun c => s.bayHead bay c with
      | none => r.2
      | some d =>
        let s2 := updDc d.id (fun x => { x with subAt := some s.now }) r.2
        let s3 := if d.op == .write then enqueue (8 + bay) d.cls (d.cnt * 4160) (.driveData d.id (cellsOf (d.cnt * 4160))) s2 else s2
        if (s3.bayHead bay d.cls).isNone && decide (d.cls < 5) then emptied (256 + bay) d.cls s3 else s3)

end Sys2Proof.Machine
end

