-- ==== Sys2Proof/Machine/Leases.lean ====
section
/-! DEFINITION. The witness and the leases: messages, timers, stop points, promises and claims (R258 to R273, R402). -/

namespace Sys2Proof.Machine

/-- A QUERY for every array (R273, R296, R402). -/
def queryAll (s : State) : State := (sortNat s.arrNos).foldl (fun st n => sendWitness n 0 0 st) s

/-- A witness message addressed to this unit is taken when its MAC and shelf ID are right and its counter is new; an older or equal
counter is discarded (R264). -/
def State.takesWitness (m : WMsg) (s : State) : Bool := m.valid && m.shelfOk && m.unit == s.md.slot && decide (s.pair.wlast < m.ctr)

/-- The witness has answered: its counter is remembered, and the record it reports of the array (R264, R402). -/
def noteWitness (m : WMsg) (holder : Nat) (s : State) : State :=
  updLease m.arr (fun l => { l with partEpoch := m.epoch, witHolder := holder })
    (s.onPair fun p => { p with wlast := m.ctr, witOk := true, queryAt := none })

/-- The request that an answer names in Echo (R262). -/
def State.request? (echo : Nat) (s : State) : Option WReq := s.pair.wreqs.find? (·.ctr == echo)

/-- Requests of an array up to a counter no longer wait for an answer. -/
def answered (arr echo : Nat) (s : State) : State :=
  s.onPair fun p => { p with wreqs := p.wreqs.filter fun r => !(r.arr == arr && decide (r.ctr ≤ echo)) }

/-- The preferred survivor acts without renewal and the witness answers again: it claims or renews each such array (R272). -/
def renewTies (s : State) : State :=
  (s.arrNos.filter fun n => (s.lease n).tie && !(s.pair.wreqs.any fun r => r.arr == n)).foldl
    (fun st n => sendWitness n 1 (st.lease n).epoch st) s

/-- An answer carried for the partner goes back to it over the yarn (R271). -/
def carryBack (m : WMsg) (s : State) : State :=
  if m.unit != s.md.slot && s.pair.relayed.any fun r => r.1 == m.echo && r.2 == m.arr then
    sendYarn 7 96 (.relay true m.arr m.echo [m.epoch, m.dur, m.holder, m.reason])
      (s.onPair fun p => { p with relayed := p.relayed.filter fun r => r.1 != m.echo })
  else s

/-- The unit may hold leases in its mode (R400): SOLO, PAIRED, and BOOT in a joint start (R406). -/
def State.mayLease (s : State) : Bool :=
  match s.md.mode with
  | .solo => true
  | .paired => true
  | .boot => s.pair.joint
  | _ => false

/-- A GRANT for this unit (R267 to R269, R293): it counts from the first sending of the request it answers, and one that arrives
after its stop point renews nothing, so the unit asks again. A GRANT to the successor of a handover answers no request of this
unit: it counts from its arrival and is renewed at once, and the successor acts when LEASE has been replayed, or at once when the
yarn is lost (R293, R300; log 20). -/
def granted (m : WMsg) (s : State) : State :=
  let dur := m.dur * us
  let l := s.lease m.arr
  match s.request? m.echo with
  | some r =>
    let s1 := answered m.arr m.echo (putEpoch m.arr m.epoch s)
    if m.holder != s.md.slot then (if r.kind == 3 then handDone m.arr m.epoch s1 else s1)
    else if !s.mayLease then s1
    else if r.t + actFor dur ≤ s.now then sendWitness m.arr 1 m.epoch s1
    else gainLease m.arr m.epoch (l.acting && l.shadowed) r.t dur s1
  | none =>
    if m.holder != s.md.slot || l.acting || !s.mayLease then s
    else
      let s1 := updLease m.arr (fun x => { x with held := true, ts := s.now, dur := dur, epoch := m.epoch }) s
      let s2 := sendWitness m.arr 1 m.epoch s1
      if l.claimed || !s.yarnUp then gainLease m.arr m.epoch (l.marion && s.inStep) s.now dur s2 else s2

/-- GRANT (R262 to R264, R267 to R269, R271, R272, R293). -/
def execGrant (m : WMsg) (s : State) : Host.Outcome State Fault Refusal :=
  .next (if s.takesWitness m then renewTies (granted m (noteWitness m m.holder s)) else carryBack m s)

/-- The witness's record of an array at a unit that does not hold it (R273, R402, R406): a SOLO unit that acts without leases claims
at once; at start-up the unit claims what it held at the stored epoch, casts on for what the partner holds, and otherwise waits
the claim wait. -/
def settleRecord (arr holder epoch : Nat) (s : State) : State :=
  let l := s.lease arr
  if l.acting || l.claimed then s
  else if l.stored == 3 && holder == 2 && (s.md.mode == .solo || s.paired) then claim arr epoch false s
  else match s.md.mode with
    | .solo =>
      if s.pair.soloNoLease && !l.leased then claim arr epoch false s
      else if l.noClaim then s
      else if holder == 1 - s.md.slot then (if s.yarnUp then s.onPair fun p => { p with castRetry := some (p.castRetry.getD s.now) } else s)
      else if epoch == l.epoch && l.stored == 1 then claim arr epoch false s
      else if l.waitAt.isSome then s
      else updLease arr (fun x => { x with waitAt := some (s.now + s.settingN 0x0784 * sec) }) s
    | .paired =>
      if s.yarnUp then
        (if holder == 1 - s.md.slot && !l.marion then s.onPair fun p => { p with castRetry := some (p.castRetry.getD s.now) } else s)
      else if !l.noClaim && holder != 1 - s.md.slot then claim arr epoch false s else s
    | .boot => if s.pair.joint && !l.noClaim && holder != 1 - s.md.slot && epoch == l.epoch && l.stored == 1 then claim arr epoch false s else s
    | _ => s

/-- REFUSE (R264, R267, R293): a refused claim ends, and the record that the message gives is treated as that of a STATE; a refused
hand-over leaves the unit holder; a refused renewal renews nothing. -/
def execRefuse (m : WMsg) (s : State) : Host.Outcome State Fault Refusal :=
  .next (
    if !s.takesWitness m then carryBack m s
    else
      let s1 := noteWitness m m.holder s
      match s.request? m.echo with
      | none => s1
      | some r =>
        let s2 := answered m.arr m.echo s1
        if r.kind == 3 then handFailed m.arr false s2
        else if r.kind == 2 then
          let s3 := updLease m.arr (fun l => { l with claimed := false }) s2
          if m.reason == 2 then settleRecord m.arr m.holder m.epoch s3 else s3
        else s2)

/-- STATE (R264, R267, R273, R402): the record of an array. -/
def execState (m : WMsg) (s : State) : Host.Outcome State Fault Refusal :=
  .next (
    if !s.takesWitness m then carryBack m s
    else
      let s1 := answered m.arr m.echo (noteWitness m m.holder s)
      match s.request? m.echo with
      | none => s1
      | some r => renewTies (if r.kind == 4 then s1 else settleRecord m.arr m.holder m.epoch s1))

/-- LEASE_RENEWAL_TIMER (R266, R269, R271, R272): d/4, d/2 and 3d/4 after t_s the holder renews, until a GRANT answers. A unit that
acts without renewal goes on asking. -/
def execLeaseRenewalTimer (arr : Nat) (s : State) : Host.Outcome State Fault Refusal :=
  .next (
    let l := s.lease arr
    if !l.acting then s
    else whenDue l.renewAt (fun st =>
      let open_ := (st.pair.wreqs.filter fun r => r.arr == arr && r.kind == 1).length
      let q := l.dur / 4
      let at_ := l.renewAt.getD st.now + q
      let next := if l.tie then some (st.now + q) else if at_ < l.ts + l.dur then some at_ else none
      renew arr (updLease arr (fun x => { x with missed := open_, renewAt := next }) st)) s)

/-- WITNESS_POLL (R265): the poll of this unit lets it start one message frame on the witness bus. -/
def execWitnessPoll (s : State) : Host.Outcome State Fault Refusal :=
  .next (match s.pair.busQ with
    | [] => s
    | m :: rest => (s.onPair fun p => { p with busQ := rest }).onSw fun w => { w with wire := w.wire ++ [(48, m)] })

/-- The unit that is not the preferred survivor has stopped acting on every array: no-claim marks are written, and it is ISOLATED
(R272, R403). -/
def isolate (s : State) : State :=
  let s1 := (endProof 2 0x010A s).onPair fun p => { p with
    leases := p.leases.mapIdx fun n l => if s.arrNos.contains n then { l with noClaim := true } else l
    hand := [], handQ := [], after := [], tieLoser := false }
  s1.onMd fun m => { m with mode := .isolated }

/-- STOP_POINT (R268, R270, R272): the stop point passes without a renewal, and the unit stops acting on the array; the preferred
survivor of a tiebreak goes on. -/
def execStopPoint (arr : Nat) (s : State) : Host.Outcome State Fault Refusal :=
  .next (
    let l := s.lease arr
    if !l.acting || l.tie || s.now < s.stopPoint arr then s
    else
      let s1 := stopActing arr (s.onPair fun p => { p with hand := p.hand.filter (·.arr != arr) })
      if s1.pair.tieLoser && !(s1.arrNos.any fun n => (s1.lease n).acting) then isolate s1 else s1)

/-- RELAY (R271): a renewal relayed by the partner goes on to the witness, or is answered with a PROMISE when this unit cannot reach
it either; a relayed answer counts as the witness's own. -/
def execRelay (isAnswer : Bool) (m : WMsg) (reachable : Bool) (s : State) : Host.Outcome State Fault Refusal :=
  .next (
    if isAnswer then
      if !s.takesWitness m then s
      else if m.reason == 0 then renewTies (granted m (noteWitness m m.holder s))
      else answered m.arr m.echo (noteWitness m m.holder s)
    else if !s.yarnUp then s
    else if reachable then
      putWitness (fun path => .witness path 1 m.arr m.ctr m.epoch m.dur m.shadowed)
        (s.onPair fun p => { p with relayed := (m.ctr, m.arr) :: p.relayed })
    else
      let d := m.dur * us
      let s1 := updLease m.arr (fun l => { l with promised := some (s.now + d + 500 * us + d / 5000), claimed := false }) s
      sendYarn 7 64 (.promise m.arr (s.time.dev + d)) s1)

/-- PROMISE (R271): the holder counts it as a GRANT of its last renewal. -/
def execPromise (arr expiry : Nat) (s : State) : Host.Outcome State Fault Refusal :=
  .next (match (s.pair.wreqs.filter fun r => r.arr == arr && r.kind == 1).getLast? with
    | none => s
    | some r =>
      let l := s.lease arr
      if !l.acting || decide (expiry < s.time.dev) || decide (r.t + actFor l.dur ≤ s.now) then s
      else updLease arr (fun x => { x with byPromise := true })
        (gainLease arr l.epoch l.shadowed r.t l.dur (answered arr r.ctr s)))

/-- PROMISE_EXPIRY (R272): with the yarn lost and no witness, the preferred survivor acts on the array of its partner once the last
PROMISE it gave for it has expired with its margin. -/
def execPromiseExpiry (arr : Nat) (s : State) : Host.Outcome State Fault Refusal :=
  .next (
    let l := s.lease arr
    if s.yarnUp || !s.pair.tieWinner || l.acting then s
    else whenDue l.promised (fun st =>
      let s1 := updLease arr (fun x => { x with
        acting := true, tie := true, shadowed := false, marion := false, promised := none, ts := st.now, dur := st.leaseDur
        renewAt := some (st.now + st.leaseDur / 4) }) st
      checkSolo (takeOver arr l.marion s1)) s)

/-- CLAIM_WAIT_EXPIRY (R273): the claim wait has passed without the partner: a recovery claim with the witness's current epoch. -/
def execClaimWaitExpiry (arr : Nat) (s : State) : Host.Outcome State Fault Refusal :=
  .next (
    let l := s.lease arr
    if l.acting || l.claimed || l.noClaim || s.md.mode != .solo then s
    else whenDue l.waitAt (fun st => claim arr l.partEpoch true st) s)

/-- WITNESS_QUERY_REPEAT (R402): a SOLO unit that acts without leases and has a witness repeats its QUERY every 1 s until the
witness answers. -/
def execWitnessQueryRepeat (s : State) : Host.Outcome State Fault Refusal :=
  .next (
    if s.md.mode != .solo || !s.pair.soloNoLease then s
    else whenDue s.pair.queryAt (fun st => queryAll (st.onPair fun p => { p with queryAt := some (st.now + sec) })) s)

end Sys2Proof.Machine
end

