-- ==== Sys2Proof/Machine/Yarn.lean ====
section
/-! DEFINITION. The yarn: links, heartbeats, loss and return, acknowledgement of stitches, confirmations, forwarded commands,
single-sided operation and digests (R274 to R276, R284 to R292, R298, R299, R405, R406). -/

namespace Sys2Proof.Machine

/-! ### Modes that the yarn decides (R403, R405, R406) -/

/-- This unit is the preferred survivor (R259). -/
def State.preferred (s : State) : Bool := s.settingN 0x0782 == s.md.slot

/-- A unit that enters SOLO, CAST-ON or PAIRED from BOOT or MAINTENANCE without a granted zone takes the landing-zone pool that is set
(R90, R454). -/
def takePool (s : State) : State :=
  if s.io.assocs.any fun a => a.zone.isSome then s else s.onCfg fun c => { c with poolUse := s.settingN 0x0288 }

/-- The unit enters SOLO and acts on each array under R273, or on every array without leases where it has no witness (R401). -/
def enterSolo (s : State) : State :=
  let none_ := s.cfg.witAddr == 0 || s.cfg.witKey.isNone
  let s1 := (s.onMd fun m => { m with mode := .solo }).onPair fun p => { p with soloNoLease := none_, joint := false }
  orderAll (fun _ => true) (if none_ then s1 else queryAll s1)

/-- The next mode at the end of BOOT, or when MAINTENANCE is resumed: the first row of R405 that applies. -/
def bootEnd (fromBoot : Bool) (s : State) : State :=
  let mark := (List.range 8).any fun n => (s.lease n).noClaim
  let theirs := (List.range 8).any fun n => (s.lease n).witHolder == 1 - s.md.slot
  if fromBoot && s.settingN 0x0180 == 1 then s.onMd fun m => { m with mode := .maintenance, boot := 0 }
  else if s.yarnUp && (s.pair.pMode == some .solo || s.pair.pMode == some .paired) then
    enterCastOn (takePool s)
  else if s.yarnUp && s.pair.pEndBoot then queryAll (s.onPair fun p => { p with joint := true })
  else if !s.yarnUp && (mark || theirs || (!s.pair.witOk && s.md.pSlot)) then s.onMd fun m => { m with mode := .isolated, boot := 0 }
  else enterSolo ((takePool s).onMd fun m => { m with boot := 0 })

/-- Step 3 of a joint start: the unit that is not the preferred survivor, or one with a no-claim mark (R417), has no claim open and has drained its dump; it releases its
arrays, tells its partner, and casts on (R406). -/
def jointYield (s : State) : State :=
  let busy := !s.pair.wreqs.isEmpty || (s.pair.leases.any (·.claimed)) || s.io.wb.any (·.dirty)
  let mark := s.pair.leases.any (·.noClaim)
  if s.md.mode != .boot || !s.pair.joint || (s.preferred && !mark) || busy then s
  else
    let held := s.arrNos.filter fun n => (s.lease n).acting
    let s1 := sendYarn 7 64 (.yielded held) (releaseLeases s)
    enterCastOn (takePool s1)

/-- JOINT_START_YIELD (R406): the preferred survivor claims every array that it does not hold, with the witness's current epoch and
without claim wait, and enters SOLO. After a yarn loss that left both units serving, the unit that stays PAIRED claims likewise (log 27). -/
def execJointStartYield (_arrs : List Nat) (s : State) : Host.Outcome State Fault Refusal :=
  .next (
    let free := s.arrNos.filter fun n => !(s.lease n).acting
    if s.paired && s.pair.apart then free.foldl (fun st n => if (st.lease n).noClaim then st else claim n (st.lease n).partEpoch false st) s
    else if s.md.mode != .boot || !s.pair.joint || s.pair.leases.any (·.noClaim) then s
    else
      let s1 := enterSolo ((takePool s).onMd fun m => { m with boot := 0 })
      free.foldl (fun st n => if (st.lease n).noClaim then st else claim n (st.lease n).partEpoch false st) s1)

/-! ### Links (R274) -/

/-- A stitch is sent again on a link (R276). -/
def resendStitch (link : Nat) (s : State) (x : Stitch) : State :=
  enqueue (32 + link) 7 (stitchBytes x.kind x.data.length) (.stitch x.num link x.kind x.arr x.assoc x.time x.data)
    (s.onPair fun p => { p with stitches := updWhere (·.num == x.num) (fun y => { y with t := s.now, link := link }) p.stitches })

/-- The mean rate adjustment of the last 60 s, frozen on entry to holdover (R428). -/
def holdover (s : State) : State :=
  s.onTime fun t =>
    let l := (t.rates.filter fun r => decide (t.now < r.1 + 60 * sec)).map (·.2)
    { t with st := 4, good := 0, adj := if l.isEmpty then t.adj else l.sum / l.length, utcPtp := false }

/-- The yarn is lost (R269, R272, R299, R300): shadows are lost, running handovers not yet requested end, proposals end
with 010Dh (R454), a follower of the partner's time is in holdover (R428), arrays of the partner are claimed; where neither unit reaches the witness the tiebreak of R272 applies. -/
def yarnLost (s : State) : State :=
  let s0 := endProposals ((s.onPair fun p => { p with apart := s.paired }).onSw fun w => { w with credTx := [], credRx := [] })
  let s1 := if s0.time.st == 5 then holdover s0 else s0
  match s.md.mode with
  | .paired =>
    let tie := s1.arrNos.any fun n => ((s1.lease n).acting && (s1.lease n).byPromise) || (s1.lease n).promised.any fun t => decide (s1.now < t)
    let open_ := (s1.pair.hand.filter fun h => !h.sent).map (·.arr)
    let s2 := open_.foldl (fun st n => handFailed n true st) (loseShadow (adoptAdmin s1))
    let s3 := if s2.md.mode != .paired then s2
      else if tie then
        (if s2.preferred then s2.onPair fun p => { p with
            tieWinner := true, leases := p.leases.map fun l => if l.acting then { l with tie := true } else l }
         else
           let t := s2.onPair fun p => { p with tieLoser := true }
           if t.arrNos.any fun n => (t.lease n).acting then t else isolate t)
      else (s2.arrNos.filter fun n => !(s2.lease n).acting && !(s2.lease n).noClaim).foldl
        (fun st n => claim n (st.lease n).epoch s.pair.warm st) s2
    let s4 := s3.onPair fun p => { p with castOn := none, castRetry := none }
    let s5 := checkSolo s4
    (s5.io.cmds.filter fun c => !c.ordered).foldl (fun st c =>
      forwardCmd c.assoc c.row (updCmd c.assoc c.row (fun k => { k with dispatched := if k.isWrite then k.dispatched else false }) st)) s5
  | .castOn => enterSolo (s1.onPair fun p => { p with castOn := none, castRetry := none })
  | .boot => if s1.pair.joint then bootEnd false (s1.onPair fun p => { p with joint := false }) else s1
  | _ => s1.onPair fun p => { p with castOn := none }

/-- The yarn has returned (R273, R403): the unit asks the witness for every array; an ISOLATED unit casts on. -/
def yarnReturned (s : State) : State :=
  let s1 := queryAll (s.onPair fun p => { p with tieWinner := false })
  if s.md.mode == .isolated then enterCastOn s1 else s1

/-- YARN_LINK_DOWN (R274, R276): 200 us without a valid frame; all traffic goes by the other link, or the yarn is lost. -/
def execYarnLinkDown (link : Nat) (s : State) : Host.Outcome State Fault Refusal :=
  .next (
    if 2 ≤ link || !s.pair.links.getD link false then s
    else whenDue (some (s.pair.lastRx.getD link 0 + 200 * us)) (fun st =>
      let s1 := st.onPair fun p => { p with links := p.links.set link false }
      if s1.yarnUp then (s1.pair.stitches.filter (·.link == link)).foldl (resendStitch (1 - link)) s1
      else yarnLost s1) s)

/-- YARN_LINK_UP (R274): 1 ms of unbroken heartbeats since the link retrained. -/
def execYarnLinkUp (link : Nat) (s : State) : Host.Outcome State Fault Refusal :=
  .next (
    let last := s.pair.lastRx.getD link 0
    let since := s.pair.hbSince.getD link 0
    if 2 ≤ link || s.pair.links.getD link false || !s.inService 0x3008 link || since == 0 || decide (last + 200 * us ≤ s.now) || s.now < since + ms then s
    else
      let s1 := s.onPair fun p => { p with links := p.links.set link true }
      if s.yarnUp then s1 else yarnReturned s1)

/-- HEARTBEAT_TIMER (R274, R275): a link that has carried nothing for 10 us carries a heartbeat. It takes no credit. -/
def execHeartbeatTimer (link : Nat) (s : State) : Host.Outcome State Fault Refusal :=
  .next (
    if 2 ≤ link || !s.md.fw || s.md.held != 0 || !s.md.powered then s
    else whenDue (some (s.pair.lastTx.getD link 0 + 10 * us)) (fun st =>
      let m := OutMsg.heartbeat link st.md.mode st.md.mains (st.pair.txStitch - 1) st.img.dialect (st.md.shelf.getD 0) st.cfg.poolUse st.md.slot
        (st.md.mode == .boot && st.md.assembled) (st.time.st == 3)
      jointYield ((st.onPair fun p => { p with lastTx := p.lastTx.set link st.now }).onSw fun w => { w with wire := w.wire ++ [(32 + link, m)] })) s)

/-- The partner of a PAIRED unit reports another mode (R292, R299, R408): it counts as absent; the arrays of this unit lose their shadow, and it
claims the others. -/
def partnerLeft (s : State) : State :=
  let s1 := loseShadow (adoptAdmin (endProposals (s.onPair fun p => { p with apart := true })))
  let s2 := if s1.time.st == 5 then holdover s1 else s1
  orderAll (fun _ => true) ((s2.arrNos.filter fun n => !(s2.lease n).acting && !(s2.lease n).claimed && !(s2.lease n).noClaim).foldl
    (fun st n => claim n (st.lease n).epoch s.pair.warm st) s2)

/-- HEARTBEAT (R274, R275, R524): two modules that read one slot count each other absent. The partner's mode and flags; a link that is down counts its unbroken heartbeats. -/
def execHeartbeat (link : Nat) (mode : Mode) (mains : Bool) (high dialect shelf pool slot : Nat) (endBoot ptpLocked : Bool) (s : State) :
    Host.Outcome State Fault Refusal :=
  .next (
    if 2 ≤ link || !s.md.fw then s
    else
      let broken := decide (s.pair.lastRx.getD link 0 + 200 * us ≤ s.now) || s.pair.hbSince.getD link 0 == 0
      let up := s.pair.links.getD link false
      let clash := slot == s.md.slot
      let s1 := if clash && s.pair.pSlot != slot then fwEvent 0x15 0 unitObj s else s
      let s2 := s1.onPair fun p => { p with
        lastRx := p.lastRx.set link s.now
        hbSince := if up || broken then p.hbSince.set link s.now else p.hbSince
        pMode := if clash then none else some mode, pMains := mains, pHigh := high, pDialect := some dialect, pShelf := shelf, pPool := pool, pSlot := slot
        pEndBoot := endBoot && !clash, pTimeLocked := ptpLocked
        castOn := if mode == .paired && s.paired && (p.castOn.any fun k => !k.joiner) then none else p.castOn }
      jointYield (if (s2.inStep || s2.inWarm) && s2.pair.castOn.isNone && mode != .paired && !clash then partnerLeft s2 else s2))

/-! ### Acknowledgement of stitches (R276, R286) -/

/-- STITCH_RETRANSMIT_TIMER (R276): 20 us without an acknowledgement; the stitch goes on the other link. -/
def execStitchRetransmitTimer (num : Nat) (s : State) : Host.Outcome State Fault Refusal :=
  .next (match s.pair.stitches.find? (·.num == num) with
    | none => s
    | some x => whenDue (some (x.t + 20 * us)) (fun st =>
        if !st.yarnUp then st
        else resendStitch (if st.pair.links.getD (1 - x.link) false then 1 - x.link else x.link) st x) s)

/-- Response entries of a block, in the order of the stitches that released them (R291). -/
def insDig (x : Nat × Resp) : List (Nat × Resp) → List (Nat × Resp)
  | [] => [x]
  | y :: l => if x.1 < y.1 || (x.1 == y.1 && decide (x.2.row < y.2.row)) then x :: y :: l else y :: insDig x l

/-- The response digest of block k (R291). -/
def digestOf (k : Nat) (l : List (Nat × Resp)) : Nat :=
  let mine := (l.filter fun x => decide (1024 * k < x.1) && decide (x.1 ≤ 1024 * (k + 1))).foldl (fun acc x => insDig x acc) []
  digest8 (mine.flatMap fun x => [x.2.assoc, x.2.row] ++ respDwords x.2)

/-- Some response that a stitch of block k releases is still to be sent. -/
def State.blockOpen (own : Bool) (k : Nat) (s : State) : Bool :=
  let inK := fun (n : Nat) => decide (1024 * k < n) && decide (n ≤ 1024 * (k + 1))
  s.io.cmds.any fun c =>
    if own then (c.waitStitch.any inK) || (c.waitStitch.isNone && c.st == .waitConfirm && c.arrival.any inK)
    else (c.sqe.opcode == 0x01 || c.sqe.opcode == 0x08 || c.sqe.opcode == 0x09) && c.sqe.qid != 0 && c.ordered && c.arrival.isNone && inK c.relStitch

/-- The diagnostic snapshot of a divergence: block, both digests, and the completions of the block (R292). -/
def saveSnapshot (k mine theirs : Nat) (l : List (Nat × Resp)) (s : State) : State :=
  let rows := (l.filter fun x => decide (1024 * k < x.1) && decide (x.1 ≤ 1024 * (k + 1)))
  let bytes := bytesLE 8 k ++ bytesLE 8 mine ++ bytesLE 8 theirs
    ++ rows.flatMap fun x => bytesLE 8 x.1 ++ bytesLE 4 x.2.assoc ++ bytesLE 8 x.2.row ++ (respDwords x.2).flatMap (bytesLE 4)
  let s1 := s.onPair fun p => { p with snapshot := bytes }
  let s2 := rows.foldl (fun st x => fwEvent 9 k unitObj st x.2.row) s1
  if rows.isEmpty then fwEvent 9 k unitObj s2 else s2

/-- The issuer of a stream compares a digest once it has sent every response of the block (R291); a mismatch is a divergence: snapshot,
pair fault, and the shadow is withdrawn (R292). The partner is told by the issuer's own digest. -/
def compareDigest (s : State) (d : Nat × Nat) : State :=
  if s.blockOpen true d.1 then s
  else
    let mine := digestOf d.1 s.pair.digAcc
    let s1 := s.onPair fun p => { p with digWait := p.digWait.filter (· != d) }
    if mine == d.2 then s1.onPair fun p => { p with digAcc := p.digAcc.filter fun x => decide (1024 * (d.1 + 1) < x.1) }
    else loseShadow (sendYarn 7 64 (.digest d.1 mine false) (pairFault (saveSnapshot d.1 mine d.2 s1.pair.digAcc s1)))

/-- Digests that wait are looked at again. -/
def checkDigests (s : State) : State := s.pair.digWait.foldl compareDigest s

/-- The yarn delay is half the smallest round trip of the last 1 s between the last sending of a stitch and its first acknowledgement
(R426). -/
def takeRtt (num : Nat) (s : State) : State :=
  let new := (s.pair.stitches.filter fun x => decide (x.num ≤ num)).map fun x => (s.now, s.now - x.t)
  let l := new ++ s.pair.rttAt.filter fun r => decide (s.now < r.1 + sec)
  match l with
  | [] => s
  | r :: _ => (s.onPair fun p => { p with rttAt := l }).onTime fun t => { t with yarnDelay := (l.foldl (fun m x => min m x.2) r.2) / 2 }

/-- STITCH_ACK (R276, R282, R286): stitches leave, responses that waited for them are sent, KEYS-4 that waited follows, and with
credit at hand commands are ordered. -/
def execStitchAck (num credits : Nat) (s : State) : Host.Outcome State Fault Refusal :=
  .next (
    if s.pair.txStitch ≤ num || !s.stitching then s
    else
      let s0 := yarnFreed 7 32 s
      let s1 := (takeRtt num s0).onPair fun p => { p with stitches := p.stitches.filter fun x => decide (num < x.num), credits := credits }
      let done := s1.io.cmds.filter fun c => c.st == .waitStitch && !c.relayTo && c.waitStitch.any fun n => decide (n ≤ num)
      let s2 := done.foldl (fun st c => finish c.assoc c.row c.sc c.dw0 c.dw1 c.more st) s1
      let keys := (s2.io.assocs.filter fun a => a.awaitStitch.any fun n => decide (n ≤ num)).map (·.id)
      let s3 := checkDigests (keys.foldl (fun st id => sendKeys4 id st) s2)
      if s.pair.credits == 0 then orderAll (fun _ => true) s3 else s3)

/-- DIGEST (R291, R292): the partner's digest of a block of this unit's stream is compared; the issuer's own digest of a block that
diverged withdraws the unit that replayed it. -/
def execDigest (block value : Nat) (ownStream : Bool) (s : State) : Host.Outcome State Fault Refusal :=
  .next (
    if !s.yarnUp || !(s.paired || s.stitching) then s
    else
      let s1 := yarnFreed 7 64 s
      if ownStream then checkDigests (s1.onPair fun p => { p with digWait := p.digWait ++ [(block, value)] })
      else withdraw (pairFault (saveSnapshot block (digestOf block s1.pair.digAccRx) value s1.pair.digAccRx s1)))

/-! ### Copies of host commands (R284 to R288) -/

/-- CONFIRM (R131, R286): the partner's write buffer holds the write; its RESP leaves once it waits for nothing else. -/
def execConfirm (assoc row : Nat) (s : State) : Host.Outcome State Fault Refusal :=
  .next (
    let s1 := updAssoc assoc (fun a => { a with missSince := none, missCount := 0 }) (yarnFreed 7 64 s)
    match s1.cmd? assoc row with
    | none => s1
    | some c =>
      let s2 := updCmd assoc row (fun k => { k with confirmed := true, missed := false }) s1
      if c.st == .waitConfirm then checkDigests (markAcked assoc row (finish assoc row scOk 0 0 false s2)) else s2)

/-- The command of a row with its data goes to the partner (R285). -/
def sendForward (a : Assoc) (c : Cmd) (s : State) : State :=
  let held := (s.io.wb.filter fun b => b.assoc == a.id && b.row == c.row).map (·.blk)
  let blks := if !c.isWrite then [] else if c.dispatched then held else (s.cmdVol c).elim [] (writeBlocks a c)
  sendYarn 3 (128 + 4112 * blks.length) (.forward a.id c.row c.cls c.key c.off c.sqe blks) s

/-- MISSING (R285, R288): the partner lacks the host copy of a command that this unit ordered; it gets it in a FORWARD. -/
def execMissing (assoc row : Nat) (s : State) : Host.Outcome State Fault Refusal :=
  .next (
    let s0 := yarnFreed 7 64 s
    let s1 := updAssoc assoc (fun a => { a with missSince := some (a.missSince.getD s.now), missCount := a.missCount + 1 }) s0
    match s1.assoc? assoc, s1.cmd? assoc row with
    | some a, some c => sendForward a c (updCmd assoc row (fun k => { k with missed := true }) s1)
    | _, _ => s1)

/-- FORWARD (R285, R288): a forwarded copy is used exactly as a host copy; one that this unit has or has completed is a duplicate. -/
def execForward (assoc row : Nat) (cls key off : Nat) (q : Sqe) (blocks : List Blk) (s : State) : Host.Outcome State Fault Refusal :=
  .next (
    let s0 := yarnFreed 3 (128 + 4112 * blocks.length) s
    match s0.assoc? assoc with
    | none => s0
    | some a =>
      let base : Cmd := { assoc := assoc, row := row, sqe := q, cls := cls, key := key, off := off, source := 1, twin := true }
      let c := if base.isWrite then { base with inl := true, blocks := blocks, xlen := 64 + (s0.cmdVol base).elim 0 fun v => transferLen v q }
        else { base with xlen := 64 }
      if decide (row < a.floor) || a.doneRows.contains row then s0
      else match s0.cmd? assoc row with
        | some old =>
          if old.hostCopy then s0
          else
            let full := { old with sqe := q, cls := cls, key := key, off := off, twin := true, inl := c.inl, xlen := c.xlen, blocks := c.blocks
                                   source := 1, hostCopy := true, twinWait := none }
            confirmWrite assoc row (updAssoc assoc (rowArrived row) (updCmd assoc row (fun _ => full) s0))
        | none =>
          let s1 := updAssoc assoc (rowArrived row) s0
          match s1.assoc? assoc with
          | some b => acceptCmd b c s1
          | none => s1)

/-- TWIN_WAIT_EXPIRY (R285): a replayed ARRIVAL still without its host copy asks for it; a host copy that no ARRIVAL has named goes to
the unit that orders it. -/
def execTwinWaitExpiry (assoc row : Nat) (s : State) : Host.Outcome State Fault Refusal :=
  .next (match s.assoc? assoc, s.cmd? assoc row with
    | some a, some c => whenDue c.twinWait (fun st =>
        let s1 := updCmd assoc row (fun k => { k with twinWait := none }) st
        if !st.inStep then s1
        else if !c.hostCopy then sendYarn 7 64 (.missing assoc row) s1
        else if c.ordered || c.dispatched || st.ordersCmd a c then s1
        else if !st.writeComplete a c then s1
        else sendForward a c (updCmd assoc row (fun k => { k with dispatched := true }) s1)) s
    | _, _ => s)

/-- SINGLE_SIDED_ENTRY (R288): the partner is absent, has suspended the association, or lacks every copy of it over 20 ms. -/
def execSingleSidedEntry (assoc : Nat) (s : State) : Host.Outcome State Fault Refusal :=
  .next (match s.assoc? assoc with
    | none => s
    | some a =>
      let gone := !s.inStep
      let missing := decide (2 ≤ a.missCount) && (a.missSince.any fun t => decide (t + 20 * ms ≤ s.now))
      if a.singleSided || a.st == .halfOpen || !(gone || a.partnerSuspended || missing) then s
      else
        let s1 := issueStitch 17 255 assoc 0 [2] (updAssoc assoc (fun x => { x with singleSided := true }) s)
        let held := s1.io.cmds.filter fun c => c.assoc == assoc && c.twinHold.isSome
        held.foldl (fun st c => forwardCmd assoc c.row (tryOrder assoc c.row (updCmd assoc c.row (fun k => { k with twinHold := none }) st))) s1)

/-- TWINLESS_HOLD_EXPIRY (R77, R288): a CMD without TWIN has been held for 200 ms and its association is not single-sided. -/
def execTwinlessHoldExpiry (assoc row : Nat) (s : State) : Host.Outcome State Fault Refusal :=
  .next (match s.assoc? assoc, s.cmd? assoc row with
    | some a, some c => whenDue c.twinHold (fun st =>
        let c1 := { c with twinHold := none, ordered := true }
        let s1 := updCmd assoc row (fun _ => c1) st
        if st.inStep && st.ordersCmd a c then
          let q := c.sqe
          let n := st.pair.txStitch
          let s2 := issueStitch 1 (st.cmdArr c) assoc row [row, q.qid, q.cid, q.opcode, c.lane, 6, c.source, q.nsid, 0, 0, scTwin] s1
          finishAdm { c1 with arrival := some n } scTwin 0 0 (updCmd assoc row (fun k => { k with arrival := some n }) s2)
        else finish assoc row scTwin 0 0 false s1) s
    | _, _ => s)

/-- RELAY_READ (R288): at the reaching unit, read data of the holder are placed in the host; at the holder, the outcome of that
placement completes the read. -/
def execRelayRead (assoc row status : Nat) (blocks : List (Nat × Blk)) (s : State) : Host.Outcome State Fault Refusal :=
  .next (
    let s0 := yarnFreed 2 (64 + 4096 * blocks.length) s
    match s0.cmd? assoc row with
    | none => s0
    | some c =>
      if blocks.isEmpty then
        (if c.relayTo && c.st == .waitStitch then finishVia 14 [row, status] c status 0 0 false (updCmd assoc row (fun k => { k with relayTo := false }) s0)
         else s0)
      else match s0.cmdVol c with
        | none => s0
        | some v =>
          if !c.isRead || c.st != .waiting then s0
          else
            let blks := (lbasOf c).map fun l => ((blocks.find? fun x => x.1 == l).map (·.2)).getD {}
            let c1 := { c with relayTo := true, got := blocks }
            placeData c1 (s0.readClass v.no) (transferLen v c.sqe) (streamOf v c.sqe blks) status (updCmd assoc row (fun _ => c1) s0))

/-- WARM (R298): in warm standby the holder's completion record; this unit sends the same entry and frees its record. -/
def execWarm (assoc row status dw0 dw1 : Nat) (s : State) : Host.Outcome State Fault Refusal :=
  .next (if s.pair.warm then finish assoc row status dw0 dw1 false (yarnFreed 7 64 s) else s)

end Sys2Proof.Machine
end

