-- ==== Sys2Proof/Machine/Bays.lean ====
section
/-! DEFINITION. Bay channels, removal of drives, the drive budget, fans, OSFP cages and links (chapter 12, R351, R510, R512). -/

namespace Sys2Proof.Machine

/-! ### Bay channels (R376 to R381) -/

/-- The state-space address of a bay's record (R464). -/
def bayObj (bay : Nat) : Nat := ssAddr 8 bay 0

/-- A bay's link is down: the member counts its time down; reads outstanding there are reconstructed, other drive commands wait for
the drive (R186, R375, R380). -/
def bayDown (bay : Nat) (power : Bool) (s : State) : State :=
  let s1 := updDrive bay (fun d => { d with linkUp := false, ready := d.ready && !power, downAt := some (d.downAt.getD s.now) }) s
  let s2 := s1.onIo fun i => { i with dcs := updWhere (fun d => d.bay == bay && d.op != .read) (fun d => { d with subAt := none, abortAt := none }) i.dcs }
  endDcs (fun d => d.bay == bay && d.op == .read) s2

/-- Gate off, PERST# asserted, power-good withdrawn (R378, R379). -/
def gateOff (bay : Nat) (s : State) : State :=
  bayDown bay true (updChan bay (fun c => { c with
    pg := false, atRisk := false, perst := true, faultAt := none, qualAt := none, rampAt := none, perstAt := none, readyAt := none, onSince := none
    relink := none, vout := 0, cur := 0, power := 0 }) s)

/-- The gate of a channel begins its ramp; the lane selector is set before PERST# is released (R374, R378). -/
def startRamp (bay : Nat) (s : State) : State :=
  updChan bay (fun c => { c with
    st := .ramp, rampAt := some s.now, pg := false, atRisk := false, perst := true, faultAt := none, qualAt := none, coolAt := none
    switchedOff := false, x4 := !s.md.pSlot, vout := 0 }) s

/-- The channel is powered: RAMP, QUALIFY or ON. -/
def Chan.live (c : Chan) : Bool := c.st == .ramp || c.st == .qualify || c.st == .on

/-- A trip (R378, R380): cause 1 fault timer, 2 model temperature, 3 ramp not complete. Three trips of one drive within 10 min fail it as
a member. -/
def trip (bay cause : Nat) (s : State) : State :=
  let c := s.chan bay
  let serial := (s.drive? bay).elim 0 (·.serial)
  let log := (serial, s.now) :: s.bays.tripLog.filter fun t => decide (s.now < t.2 + 600 * sec)
  let s1 := gateOff bay (updChan bay (fun x => { x with
    st := .coolDown, coolAt := some (s.now + 2 * sec), trips := x.trips + 1, lastTrip := s.time.dev
    temp := if cause == 2 then 1500 else x.temp }) s)
  let s2 := fwEvent 3 (cause + c.budget * 256) (bayObj bay) (s1.onBays fun b => { b with tripLog := log })
  if 3 ≤ (log.filter fun t => t.1 == serial).length && (s.drive? bay).isSome then failBay bay s2 else s2

/-- The unit powers bays: it has power, its service domain is up, MOD_PRES is mated, and it is not in POWER-STANDBY (R400, R512). -/
def State.powersBays (s : State) : Bool := s.md.powered && s.md.modPres && s.md.fw && s.md.mode != .powerStandby

/-! ### The drive budget (R382 to R385) -/

/-- The rail rating, 0.1 W, at a line voltage in 0.1 V; outside the bands of R382 the manual states none. -/
def railRating (v : Nat) : Nat :=
  if v < 850 || 2650 < v then Config.railRating v
  else if v ≤ 1400 then 11000
  else if v < 1800 then 11000 + (v - 1400) * 25 / 2
  else 16000

/-- What the OSFP modules count in the budget, 0.1 W (R383). -/
def State.osfpLoad (s : State) : Nat :=
  (s.bays.osfp.map fun o => if !o.present then 0 else if o.high then o.watts else 15).sum

/-- The unit's own drive budget b, 0.1 W (R383). -/
def State.ownBudget (s : State) : Int := (railRating s.bays.volts : Int) - 4200 - (s.osfpLoad : Int) - 1500

/-- The budget that R383 puts in force: the smaller of the two units' in PAIRED mode. -/
def State.jointBudget (own : Int) (s : State) : Int :=
  match s.pair.pBudget with
  | some p => if s.paired then min own p else own
  | none => own

/-- Powered bays, ascending. -/
def State.poweredBays (s : State) : List Nat := (List.range 24).filter fun n => (s.chan n).live

/-- Power of a drive's lowest-power operational state, mW; 0 while the drive's states are not known. -/
def State.lowState (bay : Nat) (s : State) : Nat :=
  match s.drive? bay with
  | some d => match d.states with
    | [] => 0
    | x :: l => l.foldl (fun m y => min m y.2) x.2
  | none => 0

/-- Sum of the lowest-power operational states of some bays, mW. -/
def State.lowSum (l : List Nat) (s : State) : Nat := (l.map fun n => s.lowState n).sum

/-- The budget in force, 0.1 W, none below 0. -/
def State.watts (s : State) : Nat := s.bays.budget.toNat

/-- The allotment of each powered bay, mW (R384): min(bay budget, b / n); a drive whose lowest state exceeds it receives that state,
and the excess is taken in equal parts from the others. With a total T of min(n × bay budget, b) the others have
(T - what those drives receive) / their number each. -/
def State.allotment (bay : Nat) (s : State) : Nat :=
  let on := s.poweredBays
  let total := min (s.settingN 0x0882 * 1000 * on.length) (s.watts * 100)
  let high := on.filter fun n => decide (total < s.lowState n * on.length)
  if !on.contains bay then 0
  else if high.contains bay then s.lowState bay
  else (total - s.lowSum high) / max 1 (on.length - high.length)

/-- The operational power state for an allotment, mW (R384): the greatest maximum power that fits, the lowest number among equals; the
lowest power where none fits. -/
def pickState (states : List (Nat × Nat)) (allot : Nat) : Option Nat :=
  let fit := states.filter fun x => decide (x.2 ≤ allot)
  let better := fun (up : Bool) (x y : Nat × Nat) =>
    if x.2 == y.2 then decide (x.1 < y.1) else if up then decide (y.2 < x.2) else decide (x.2 < y.2)
  let best := fun (up : Bool) (l : List (Nat × Nat)) => (l.foldl (fun b x => match b with
    | none => some x
    | some y => if better up x y then some x else b) (none : Option (Nat × Nat))).map (·.1)
  if fit.isEmpty then best false states else best true fit

/-- The responsible unit of a bay (R392): the holder of its drive's array, unit A for any other drive, the lone unit. -/
def State.responsible (bay : Nat) (s : State) : Bool :=
  !s.paired || (match s.memberAt bay with
    | some (arr, _) => (s.lease arr).acting
    | none => s.md.slot == 0)

/-- The allotment in force, mW: less what the measurement check has taken away (R384, R385). -/
def State.allotted (bay : Nat) (s : State) : Nat := s.allotment bay - (s.chan bay).lowered * 100

/-- A ready drive is placed in the state of its allotment; `again` sets it even where the module knows the drive to be there (R384).
A refused drive is sent nothing (R164). -/
def placeState (again : Bool) (bay : Nat) (s : State) : State :=
  match s.drive? bay with
  | none => s
  | some d => match pickState d.states (s.allotted bay) with
    | none => s
    | some ps =>
      if d.ready && d.role != .refused && (again || d.pstate != ps) && s.responsible bay
          && !s.io.dcs.any (fun x => x.bay == bay && x.op == .setPower ps) then issueDc bay 6 (.setPower ps) 0 0 .other [] s
      else s

/-- Every powered, ready drive is placed in the state of its allotment (R384, R385); the bay records hold the allotments rounded to
0.1 W (R398; the rounding DEDUCED, log 34). In PS2 the drives keep their non-operational states (R429). -/
def applyStates (s : State) : State :=
  if s.md.ps == 2 || s.md.psIn != 0 then s
  else
    let s1 := s.onBays fun b => { b with ch := b.ch.mapIdx fun n c => { c with allot := (s.allotted n + 50) / 100 } }
    (List.range 24).foldl (fun st n => placeState false n st) s1

/-- BUDGET-OVER is raised or cleared, with its entry (R384, R525). -/
def setBudgetOver (x : Bool) (s : State) : State :=
  if s.bays.budgetOver == x then s
  else alarmEvent 0 x (s.onBays fun b => { b with budgetOver := x, page := if x then 0 else b.page, lightAt := if x then some (s.now + 60 * sec) else b.lightAt })

/-- The serial number is that of a drive in a position of some array: before its label is read, a drive inserted is known by it. -/
def State.serialKnown (serial : Nat) (s : State) : Bool := s.io.arrs.any fun a => a.pos.any fun p => p.serial == serial

/-- A drive that may be switched off for the budget: unassigned or refused (R384). A drive not yet ready whose serial number no
array's position carries counts as unassigned (DEDUCED, log 35). -/
def State.expendable (bay : Nat) (s : State) : Bool :=
  match s.drive? bay with
  | some d => (d.role == .unassigned && (d.ready || !s.serialKnown d.serial)) || d.role == .refused
  | none => false

/-- R384 in full: unassigned and refused drives are switched off in descending bay order while the lowest states do not fit, BUDGET-OVER
where members and spares alone exceed b, and a drive switched off is powered again when it fits; then the states are applied. -/
def rebudget (s : State) : State :=
  let fits := fun (st : State) => decide (st.lowSum st.poweredBays ≤ st.watts * 100)
  let cut := fun (st : State) (n : Nat) =>
    if fits st || !(st.chan n).live || !st.expendable n then st
    else updChan n (fun c => { c with st := .off, switchedOff := true }) (gateOff n st)
  let s1 := (List.range 24).reverse.foldl cut s
  let s2 := setBudgetOver (!fits s1) s1
  let back := (List.range 24).find? fun n => (s2.chan n).switchedOff && (s2.chan n).st == .off && (s2.chan n).present
  let s3 := match back with
    | some n => if fits s2 && decide (s2.lowSum (n :: s2.poweredBays) ≤ s2.watts * 100) && s1.lowSum s1.poweredBays == s.lowSum s.poweredBays
        then startRamp n s2 else s2
    | none => s2
  applyStates s3

/-- A new budget (R385): a fall applies at once and discards a pending rise; a rise applies after it has held for 10 s. -/
def newBudget (b : Int) (s : State) : State :=
  if b < s.bays.budget then rebudget (s.onBays fun x => { x with budget := b, rise := none })
  else if b == s.bays.budget then s.onBays fun x => { x with rise := none }
  else if (s.bays.rise.map (·.1)) == some b then s
  else s.onBays fun x => { x with rise := some (b, s.now + 10 * sec) }

/-- The unit's own budget is computed anew; a change is told to the partner in a SETTING stitch with an internal record of kind 1
(R383, R446). -/
def refreshBudget (s : State) : State :=
  let own := s.ownBudget
  let s1 := s.onBays fun b => { b with drvBudget := own }
  let s2 := if own != s.bays.drvBudget && s.paired then issueStitch 21 255 0 0 [0, 4, 0, 0, 1, own.toNat, s.time.dev] s1 else s1
  newBudget (s2.jointBudget own) s2

/-! ### Rows of the bay channels -/

/-- BAY_INSERT (R163, R164, R378, R381, R384): debounced presence returns; the absence decides where the channel goes. -/
def execBayInsert (bay : Nat) (d : DriveInfo) (s : State) : Host.Outcome State Fault Refusal :=
  if 24 ≤ bay then .fault .noSuchBay
  else .next (
    let c := s.chan bay
    if c.present || !s.md.modPres then s
    else
      let drv : Drive := { serial := d.serial, model := d.model, cap := d.cap, ok := d.ok, gen5 := d.gen5, vwc := d.vwc, states := d.states, nonop := d.nonop
                           capTo := d.capTo, warn := d.warn, role := if d.ok then .unassigned else .refused }
      let s1 := updChan bay (fun x => { x with present := true }) (s.onBays fun b => { b with drives := b.drives.set bay (some drv) })
      let long := match c.removedAt with
        | none => true
        | some t => decide (t + 2 * sec ≤ s.now)
      let cooled := match c.coolAt with
        | none => true
        | some t => decide (t ≤ s.now) && decide (c.temp < 900)
      let fits := (d.ok && s.serialKnown d.serial) || decide (s1.lowSum (bay :: s1.poweredBays) ≤ s1.watts * 100)
      let held := fun (st : State) => updChan bay (fun x => { x with st := .off, switchedOff := true }) st
      let waits := s.md.bayAt.isSome && decide (s.md.bayNext ≤ bay)
      if !s.powersBays || waits then updChan bay (fun x => { x with st := .off, budget := if long then 3 else x.budget }) s1
      else if long then
        let s2 := updChan bay (fun x => { x with budget := 3 }) s1
        rebudget (if !cooled then updChan bay (fun x => { x with st := .coolDown }) s2 else if fits then startRamp bay s2 else held s2)
      else match c.removedIn with
        | .coolDown => updChan bay (fun x => { x with st := .coolDown }) s1
        | .latched => updChan bay (fun x => { x with st := .latched }) s1
        | .off => updChan bay (fun x => { x with st := .off }) s1
        | _ => rebudget (if fits then startRamp bay s1 else held s1))

/-- BAY_REMOVE (R378, R393): debounced presence is lost; the bay's LEDs go dark. -/
def execBayRemove (bay : Nat) (s : State) : Host.Outcome State Fault Refusal :=
  if 24 ≤ bay then .fault .noSuchBay
  else .next (
    let c := s.chan bay
    if !c.present || !s.md.modPres then s
    else
      let s1 := gateOff bay (updChan bay (fun x => { x with
        st := .empty, present := false, switchedOff := false, removedAt := some s.now, removedIn := c.st, prep := none, remStep := 0, locate := false, refusedAt := none }) s)
      rebudget (s1.onBays fun b => { b with drives := b.drives.set bay none }))

/-- OUTPUT_REACHES_THRESHOLD (R378): the output reaches 11.0 V; the qualification count starts. -/
def execOutputReachesThreshold (bay : Nat) (s : State) : Host.Outcome State Fault Refusal :=
  if 24 ≤ bay then .fault .noSuchBay
  else .next (
    let c := s.chan bay
    if c.st != .ramp && c.st != .qualify then s
    else updChan bay (fun x => { x with
      st := .qualify, rampAt := none, vout := 11000, qualAt := if c.faultAt.isSome then none else some (s.now + ms) }) s)

/-- RAMP_TIMEOUT (R378): the output is still below 11.0 V at ramp time + 5 ms. -/
def execRampTimeout (bay : Nat) (s : State) : Host.Outcome State Fault Refusal :=
  if 24 ≤ bay then .fault .noSuchBay
  else .next (if (s.chan bay).st == .ramp then
      whenDue ((s.chan bay).rampAt.map fun t => t + (s.settingN 0x0880 bay + 5) * ms) (trip bay 3) s else s)

/-- QUALIFICATION_COMPLETE (R378, R384): 1 ms above the threshold with the fault timer idle: ON, power-good, PERST# to be released 100 ms
later. -/
def execQualificationComplete (bay : Nat) (s : State) : Host.Outcome State Fault Refusal :=
  if 24 ≤ bay then .fault .noSuchBay
  else .next (
    let c := s.chan bay
    if c.st != .qualify || c.faultAt.isSome then s
    else whenDue c.qualAt (fun st => rebudget (updChan bay (fun x => { x with
      st := .on, pg := true, atRisk := false, qualAt := none, onSince := some st.now, perstAt := some (st.now + 100 * ms), vout := 12000 }) st)) s)

/-- FAULT_TIMER_START (R378, R397): qualification is held, or PG-AT-RISK is set. -/
def execFaultTimerStart (bay : Nat) (s : State) : Host.Outcome State Fault Refusal :=
  if 24 ≤ bay then .fault .noSuchBay
  else .next (
    let c := s.chan bay
    if !c.live || c.faultAt.isSome then s
    else updChan bay (fun x => { x with faultAt := some s.now, qualAt := none, atRisk := c.st == .on, cur := 4500 }) s)

/-- FAULT_TIMER_CLEAR (R378). -/
def execFaultTimerClear (bay : Nat) (s : State) : Host.Outcome State Fault Refusal :=
  if 24 ≤ bay then .fault .noSuchBay
  else .next (
    let c := s.chan bay
    if !c.live || c.faultAt.isNone then s
    else updChan bay (fun x => { x with faultAt := none, atRisk := false, qualAt := if c.st == .qualify then some (s.now + ms) else none }) s)

/-- FAULT_TIMER_EXPIRY (R376, R378): a trip. -/
def execFaultTimerExpiry (bay : Nat) (s : State) : Host.Outcome State Fault Refusal :=
  if 24 ≤ bay then .fault .noSuchBay
  else .next (if (s.chan bay).live then
      whenDue ((s.chan bay).faultAt.map fun t => t + s.settingN 0x0881 bay * ms) (trip bay 1) s else s)

/-- MODEL_OVER_TEMPERATURE (R377, R378): the model reaches 150 degrees: a trip. -/
def execModelOverTemperature (bay : Nat) (s : State) : Host.Outcome State Fault Refusal :=
  if 24 ≤ bay then .fault .noSuchBay
  else .next (if (s.chan bay).live then trip bay 2 s else s)

/-- POWER_GOOD_LOSS (R378 to R380): below 10.5 V for 50 us with the fault timer idle. -/
def execPowerGoodLoss (bay : Nat) (s : State) : Host.Outcome State Fault Refusal :=
  if 24 ≤ bay then .fault .noSuchBay
  else .next (
    let c := s.chan bay
    if c.st != .on || c.faultAt.isSome then s
    else bayDown bay true (updChan bay (fun x => { x with
      st := .qualify, pg := false, perst := true, perstAt := none, readyAt := none, onSince := none, qualAt := none, relink := none, vout := 10500 }) s))

/-- PERST_RELEASE (R376, R379, R407): PERST# is released 100 ms after power-good, or at the end of a relink; the drive must report ready in
time. -/
def execPerstRelease (bay : Nat) (s : State) : Host.Outcome State Fault Refusal :=
  if 24 ≤ bay then .fault .noSuchBay
  else .next (
    let c := s.chan bay
    if c.st != .on || !c.pg || !c.perst then s
    else whenDue c.perstAt (fun st => updChan bay (fun x => { x with
      perst := false, perstAt := none, relink := none
      readyAt := some (st.now + (st.drive? bay).elim 0 fun d => min d.capTo (30 * sec)) }) st) s)

/-- COOL_DOWN_END (R378): 2 s have passed and the model is below 90 degrees: a retry, or LATCHED. -/
def execCoolDownEnd (bay : Nat) (temp : Int) (s : State) : Host.Outcome State Fault Refusal :=
  if 24 ≤ bay then .fault .noSuchBay
  else .next (
    let c := s.chan bay
    if c.st != .coolDown || 90 ≤ temp then s
    else whenDue c.coolAt (fun st =>
      let s1 := updChan bay (fun x => { x with temp := temp * 10, coolAt := none }) st
      if 1 ≤ c.budget then startRamp bay (updChan bay (fun x => { x with budget := x.budget - 1 }) s1)
      else updChan bay (fun x => { x with st := .latched }) s1) s)

/-- RETRY_BUDGET_RESTORE (R378): 60 s in ON with no trip. -/
def execRetryBudgetRestore (bay : Nat) (s : State) : Host.Outcome State Fault Refusal :=
  if 24 ≤ bay then .fault .noSuchBay
  else .next (if (s.chan bay).st == .on then
      whenDue ((s.chan bay).onSince.map fun t => t + 60 * sec) (updChan bay fun x => { x with budget := 3 }) s else s)

/-- BAY_RELINK (R374, R375, R514): a bay takes new lanes with a PERST# cycle, one bay at a time: x2 from step 4 of a cast-on on, x4 once
the partner slot has been empty for 60 s. -/
def execBayRelink (bay : Nat) (s : State) : Host.Outcome State Fault Refusal :=
  if 24 ≤ bay then .fault .noSuchBay
  else .next (
    let c := s.chan bay
    let want := !s.md.pSlot
    let other := (List.range 24).any fun n => (s.chan n).relink.isSome
    let ok := if want then s.md.pEmptyAt.isNone || due s.md.pEmptyAt s else s.pair.castOn.any fun k => decide (4 ≤ k.step)
    if c.st != .on || c.perst || c.x4 == want || other || !ok then s
    else bayDown bay true (updChan bay (fun x => { x with
      perst := true, x4 := want, relink := some (s.now + 250 * ms), perstAt := some (s.now + 100 * ms) }) s))

/-- BAY_LINK_STATE_CHANGE (R186, R380): the PCIe link of a bay goes down or trains again. -/
def execBayLinkStateChange (bay : Nat) (up : Bool) (s : State) : Host.Outcome State Fault Refusal :=
  if 24 ≤ bay then .fault .noSuchBay
  else .next (
    if (s.drive? bay).isNone then s
    else if !up then bayDown bay false s
    else if (s.chan bay).st != .on || (s.chan bay).perst || (s.part 0x3007 bay).st == 3 then s
    else updDrive bay (fun d => { d with linkUp := true, downAt := none }) s)

/-- DRIVE_READY_WAIT_EXPIRY (R407): a drive is not ready in time after its PERST# release; it is left out and counts as absent. -/
def execDriveReadyWaitExpiry (bay : Nat) (s : State) : Host.Outcome State Fault Refusal :=
  if 24 ≤ bay then .fault .noSuchBay
  else .next (whenDue (s.chan bay).readyAt (fun st =>
    let s1 := updChan bay (fun c => { c with readyAt := none }) st
    match s1.memberAt bay with
    | some (arr, p) => if s1.acts arr then endDcs (fun d => d.bay == bay) (absentMember arr p s1) else s1
    | none => s1) s)

/-! ### Removal by request (R392, R393) -/

/-- The drive's removal leaves its array in service (R170, R393). -/
def State.removable (bay : Nat) (s : State) : Bool :=
  match s.memberAt bay with
  | none => true
  | some (arr, p) => match s.arr? arr with
    | none => true
    | some a => !Arr.offline { a with pos := a.pos.modify p fun x => { x with st := .absent } }

/-- A removal is prepared, blue 4 Hz for 5 s, or refused, amber 4 Hz for 2 s (R393). -/
def removalPrepare (bay : Nat) (s : State) : State :=
  if s.removable bay then updChan bay (fun c => { c with prep := some (s.now + 5 * sec), refusedAt := none }) s
  else updChan bay (fun c => { c with refusedAt := some (s.now + 2 * sec) }) s

/-- A prepared removal is confirmed (R393): the member is ABSENT, drive commands not yet submitted there end, and the Flush is
issued once the others have ended. A bay that is
already off is safe to remove at once (R397). -/
def removalConfirm (bay : Nat) (s : State) : State :=
  let off := !(s.chan bay).live
  let s1 := updChan bay (fun c => { c with prep := none, remStep := if off then 3 else 1, remAt := s.now, flushDone := !s.responsible bay }) s
  let s2 := match s1.memberAt bay with
    | some (arr, p) => if s1.acts arr then absentMember arr p s1 else s1
    | none => s1
  let s3 := endDcs (fun d => d.bay == bay && d.subAt.isNone) s2
  if off || !s.responsible bay then s3 else removalFlush bay s3

/-- A removal is cancelled (R393): a preparation ends, or the channel is powered again with its retry budget at 3. -/
def removalCancel (bay : Nat) (s : State) : State :=
  let c := s.chan bay
  let s1 := updChan bay (fun x => { x with prep := none, remStep := 0 }) s
  if c.remStep == 3 && (c.st == .off || c.st == .latched) then startRamp bay (updChan bay (fun x => { x with budget := 3 }) s1) else s1

/-- REMOVAL_PREPARATION_LAPSE (R393): no second press within 5 s. -/
def execRemovalPreparationLapse (bay : Nat) (s : State) : Host.Outcome State Fault Refusal :=
  if 24 ≤ bay then .fault .noSuchBay
  else .next (whenDue (s.chan bay).prep (updChan bay fun c => { c with prep := none }) s)

/-- REMOVAL_FLUSH_DEADLINE (R151, R393): the removal Flush has completed, or is abandoned at t1 + 1 s; the drive is told to shut down. -/
def execRemovalFlushDeadline (bay : Nat) (s : State) : Host.Outcome State Fault Refusal :=
  if 24 ≤ bay then .fault .noSuchBay
  else .next (
    let c := s.chan bay
    if c.remStep != 1 || !(c.flushDone || decide (c.remAt + sec ≤ s.now)) then s
    else
      let s1 := endDcs (fun d => d.bay == bay && d.why != .removal) s
      let s2 := s1.onIo fun i => { i with dcs := i.dcs.filter fun d => d.bay != bay }
      let s3 := if c.flushDone then s2 else fwEvent 0x13 0 (bayObj bay) s2
      issueDc bay 6 .shutdown 0 0 .other [] (updChan bay (fun x => { x with remStep := 2 }) s3))

/-- REMOVAL_SHUTDOWN_DEADLINE (R378, R393): the shutdown is complete, or 5 s have passed: PERST#, channel OFF, blue steady. -/
def execRemovalShutdownDeadline (bay : Nat) (done : Bool) (s : State) : Host.Outcome State Fault Refusal :=
  if 24 ≤ bay then .fault .noSuchBay
  else .next (
    let c := s.chan bay
    if c.remStep != 2 || !(done || decide (c.remAt + 6 * sec ≤ s.now)) then s
    else
      let s1 := gateOff bay (updChan bay (fun x => { x with st := .off, remStep := 3 }) s)
      rebudget (s1.onIo fun i => { i with dcs := i.dcs.filter fun d => d.bay != bay }))

/-! ### LEDs (R392) -/

/-- Patterns of an LED: 0 off, 1 steady, 2 4 Hz, 3 1 Hz, 4 0.5 Hz; green shows its pulses with I/O. -/
def State.greenLed (bay : Nat) (s : State) : Nat := if (s.chan bay).st == .on && (s.drive? bay).any (·.linkUp) then 1 else 0

/-- The amber LED of a bay (R392). -/
def State.amberLed (bay : Nat) (s : State) : Nat :=
  let c := s.chan bay
  let mst := match s.memberAt bay with
    | some (arr, p) => (s.arr? arr).map fun a => (a.pos.getD p {}).st
    | none => none
  let failed := match s.drive? bay with
    | some d => s.io.arrs.any fun a => a.pos.any fun x => x.st == .failed && x.serial == d.serial
    | none => false
  if c.st == .latched || failed then 1
  else if c.refusedAt.any fun t => decide (s.now < t) then 2
  else if (s.drive? bay).any (fun d => d.role == .refused) || c.st == .coolDown then 3
  else if mst == some .rebuilding || mst == some .resyncing then 4
  else 0

/-- The blue LED of a bay (R392, R394). -/
def State.blueLed (bay : Nat) (s : State) : Nat :=
  let c := s.chan bay
  let mine := match s.memberAt bay with
    | some (arr, _) => s.acts arr
    | none => false
  if c.remStep == 3 then 1 else if c.prep.isSome then 2 else if c.locate || (s.bays.modLocate && mine) then 3 else 0

/-! ### Budget rows -/

/-- LINE_VOLTAGE_CHANGE (R382 to R385): volts in 0.1 V, averaged over 200 ms. -/
def execLineVoltageChange (volts : Nat) (s : State) : Host.Outcome State Fault Refusal :=
  .next (refreshBudget (s.onBays fun b => { b with volts := volts }))

/-- BUDGET_RISE_HOLD (R385): the higher budget has held for 10 s. -/
def execBudgetRiseHold (s : State) : Host.Outcome State Fault Refusal :=
  .next (match s.bays.rise with
    | none => s
    | some (b, t) => whenDue (some t) (fun st => rebudget (st.onBays fun x => { x with budget := b, rise := none })) s)

/-- POWER_MEASUREMENT_CHECK (R385): the bays' measured power, 0.1 W averaged over 1 s, against b. -/
def execPowerMeasurementCheck (powers : List Nat) (s : State) : Host.Outcome State Fault Refusal :=
  .next (
    let s1 := s.onBays fun b => { b with ch := b.ch.mapIdx fun n c =>
      let p := powers.getD n 0
      { c with power := p, cur := p * 25 / 3, energy := c.energy + p / 10 } }
    let sum := (powers.take 24).sum
    let low := fun (f : Nat → Nat) (st : State) => applyStates (st.onBays fun b => { b with ch := b.ch.map fun c => if c.live then { c with lowered := f c.lowered } else c })
    if s.watts < sum then low (· + 10) (s1.onBays fun b => { b with overSince := none })
    else match s.bays.overSince with
      | none => s1.onBays fun b => { b with overSince := some s.now }
      | some t => if t + 10 * sec ≤ s.now then low (· - 10) s1 else s1)

/-- The role that a drive takes from its label as it becomes ready (R163, R164). -/
def roleOf (d : Drive) (label : Option DriveLabel) (s : State) : DriveRole :=
  if !d.ok then .refused
  else match label with
    | none => .unassigned
    | some l =>
      if some l.shelf != s.md.shelf then .unassigned
      else if l.spare then .spare
      else if s.io.arrs.any fun a => a.no == l.arr && a.id == l.arrayId then .member
      else .unassigned

/-- DRIVE_READY (R164, R188, R384, R407, R476): the drive in a bay reports ready; its label gives its role,
and its power state is set (R407). A member of an absent
position waits for its return (R188); commands of a drive that was reset are issued again. -/
def execDriveReady (bay : Nat) (label : Option DriveLabel) (s : State) : Host.Outcome State Fault Refusal :=
  if 24 ≤ bay then .fault .noSuchBay
  else .next (match s.drive? bay with
    | none => s
    | some d =>
      if (s.chan bay).st != .on || (s.chan bay).perst then s
      else
        let keep := d.resetting.isSome
        let r := if keep then d.role else roleOf d label s
        let s1 := updDrive bay (fun x => { x with
          ready := true, linkUp := true, downAt := none, resetting := none, notified := false, role := r
          label := if keep then x.label else label
          pstate := 0, foreign := !keep && (label.any fun l => some l.shelf != s.md.shelf) }) (updChan bay (fun c => { c with readyAt := none }) s)
        let s2 := placeState true bay s1
        -- a spare that becomes ready serves a position that found none (R188, R189)
        if r == .spare then
          (s2.io.arrs.filter fun a => s2.acts a.no && a.sparesShort).foldl (fun st a =>
            match (st.arr? a.no).bind fun x => x.pos.findIdx? fun p => p.st == .failed with
            | some p => seekSpare a.no p 255 st
            | none => st) s2
        else s2)

/-! ### Fans and OSFP cages (R390, R391) -/

/-- The hottest of the sensors. -/
def hottest (l : List Int) : Int := match l with
  | [] => 0
  | x :: r => r.foldl (fun m y => max m y) x

/-- FAN_LOOP (R127, R146, R390): the 1 s loop. The law that turns temperatures into a duty is not stated: any duty from 30 to 100 %; a failed
fan puts the others at 100 %, as do SAFE and a thermal reset. A crossed threshold of feature 04h raises its event. The drives read for
their temperatures report their health too: `failing` are the bays with controller fatal status or a critical warning of spare or
reliability, whose members fail (R186; where the module learns it is a DESIGN CHOICE, log 36). -/
def execFanLoop (sensors : List Int) (drives tachs failing : List Nat) (s : State) : Host.Outcome State Fault Refusal :=
  .next (
    let full := s.md.mode == .safe || s.md.held == 3 || s.bays.fans.any (·.failed)
    let duty := if full then 100 else 30 + Config.fanDuty s.free % 71
    let was := hottest s.bays.sensors
    let is_ := hottest sensors
    let s1 := s.drawn.onBays fun b => { b with
      sensors := sensors
      fans := b.fans.mapIdx fun n f => { f with duty := duty, rpm := tachs.getD n f.rpm }
      drives := b.drives.mapIdx fun n d => d.map fun x => { x with health := drives.getD n x.health } }
    let cross := fun (a : Assoc) =>
      (decide ((a.tempOver : Int) < is_) && decide (was ≤ (a.tempOver : Int))) || (decide (is_ < a.tempUnder) && decide (a.tempUnder ≤ was))
    failing.foldl (fun st bay =>
      if (st.memberAt bay).any fun m => st.acts m.1 then failBay bay st else st) (raiseAll cross 1 1 2 s1))

/-- FAN_FAILURE (R390): a tachometer reads below half the speed its duty commands for 5 s. -/
def execFanFailure (fan : Nat) (s : State) : Host.Outcome State Fault Refusal :=
  .next (
    if 6 ≤ fan || (s.bays.fans.getD fan {}).failed then s
    else
      let s1 := s.onBays fun b => { b with
        fans := b.fans.mapIdx fun n f => if n == fan then { f with failed := true } else { f with duty := 100 }
        fanAlarm := true, page := 0, lightAt := some (s.now + 60 * sec) }
      if s.bays.fanAlarm then s1 else alarmEvent 1 true s1)

/-- The link of a port is down (R351): its received pauses end. -/
def portDown (port : Nat) (s : State) : State :=
  let k := if port == 47 then 8 else port
  s.onSw fun w => { w with linkUp := w.linkUp.set k false, pauseRx := w.pauseRx.filter (·.1 != port), pausedBy := w.pausedBy.filter (·.1 != port)
                           pauseRep := w.pauseRep.filter (·.1 != port) }

/-- OSFP_PRESENCE (R383, R391): a module is plugged or pulled, debounced. `watts` is its advertised maximum, 0.1 W. -/
def execOsfpPresence (cage : Nat) (present : Bool) (watts : Nat) (s : State) : Host.Outcome State Fault Refusal :=
  if 8 ≤ cage then .fault .noSuchPort
  else .next (
    let put := fun (o : Osfp) (st : State) => st.onBays fun b => { b with osfp := b.osfp.set cage o }
    if !present then refreshBudget (portDown cage (put {} s))
    else
      let high := put { present := true, watts := watts, high := true } s
      let need : Int := ((s.poweredBays.map fun n => s.allotted n).sum : Nat)
      let ok := decide (watts ≤ 180) && !s.bays.budgetOver && decide (need ≤ high.jointBudget high.ownBudget * 100)
      if ok then refreshBudget high
      else refreshBudget (fwEvent 0x12 cage (ssAddr 0x3006 cage 0) (portDown cage (put { present := true, watts := watts } s))))

/-- OSFP_MONITOR (R391): a module that reports a high-temperature alarm has its port shut down. -/
def execOsfpMonitor (cage : Nat) (_temp : Int) (highAlarm : Bool) (s : State) : Host.Outcome State Fault Refusal :=
  if 8 ≤ cage then .fault .noSuchPort
  else .next (
    if !(s.bays.osfp.getD cage {}).present || !highAlarm then s
    else portDown cage (s.onBays fun b => { b with osfp := b.osfp.modify cage fun o => { o with shut := true } }))

/-- PORT_LINK_STATE_CHANGE (R351, R391): the Ethernet link of a NET port or of MGMT changes. A port whose module is in low-power mode or shut
down stays down, and so do the NET ports in POWER-STANDBY, SAFE and BOOT's first part (R400). -/
def execPortLinkStateChange (port : Nat) (up : Bool) (rate : Nat) (s : State) : Host.Outcome State Fault Refusal :=
  if 8 ≤ port && port != 47 then .fault .noSuchPort
  else .next (
    let k := if port == 47 then 8 else port
    let o := s.bays.osfp.getD port {}
    let shut := port != 47 && (!(o.present && o.high) || o.shut || !(s.inService 0x3006 port) || s.md.mode == .powerStandby || s.md.mode == .safe)
    if !up then portDown port s
    else if shut || !s.md.powered then s
    else s.onSw fun w => { w with linkUp := w.linkUp.set k true, rate := w.rate.set k rate })

end Sys2Proof.Machine
end

