-- ==== Sys2Proof/Machine/Power.lean ====
section
/-! DEFINITION. Mains loss and hold-up, device time, power states (R385 to R389, R418 to R434). -/

namespace Sys2Proof.Machine

/-! ### Hold-up (R386 to R389) -/

/-- A dirty block joins the run that it continues, or begins one (R387, R410). -/
def addRun (s : State) (l : List DumpRun) (b : WbBlk) : List DumpRun :=
  match l.getLast? with
  | some r =>
    if r.vol == b.vol && r.assoc == b.assoc && r.row == b.row && r.lba + r.blks.length == b.lba then l.dropLast ++ [{ r with blks := r.blks ++ [b.blk] }]
    else l ++ [{ arr := s.arrOf b.vol, vol := b.vol, lba := b.lba, blks := [b.blk], assoc := b.assoc, row := b.row }]
  | none => [{ arr := s.arrOf b.vol, vol := b.vol, lba := b.lba, blks := [b.blk], assoc := b.assoc, row := b.row }]

/-- The dirty data of the arrays that p names, as runs in the order in which they became dirty. -/
def State.dirtyRuns (p : Nat → Bool) (s : State) : List DumpRun :=
  (s.io.wb.filter fun b => b.dirty && p (s.arrOf b.vol)).foldl (addRun s) []

/-- Service goes on after a hold-up (R389): allotments as R384 gives them, held commands are ordered, writes that may start, start. -/
def resumeService (s : State) : State :=
  let s1 := rebudget (s.onBays fun b => { b with hold := none, dumpDir := [] })
  let reads := s1.io.cmds.filter fun c => c.isRead && c.ordered && c.st == .waiting && c.wait == .drives && s1.acts (s1.cmdArr c)
  startHeld (orderAll (fun _ => true) (reads.foldl (fun st c => startRead c st) s1))

/-- MAINS_LOSS (R299, R386, R397, R417): no half-cycle for 12 ms. With a shadowing partner on mains every array is handed over;
otherwise the hold-up begins. Every halted core resumes (R503). -/
def execMainsLoss (s : State) : Host.Outcome State Fault Refusal :=
  .next (
    if !s.md.mains || !s.md.powered then s
    else
      let s1 := ((cancelTests (fun _ => true) (resumeCores (·.halted) s)).onMd fun m => { m with mains := false }).onTime fun t => { t with saved := t.dev }
      let s2 := s1.onBays fun b => { b with rise := none, ch := b.ch.map fun c => { c with prep := none } }
      match s.bays.hold with
      | some _ => s2.onBays fun b => { b with hold := b.hold.map fun h => { h with back := false } }
      | none =>
        if s.paired && s.pair.pMains && s.canHandAll && s.arrNos.any (fun n => (s.lease n).acting) then
          handAll .holdUp (s2.onBays fun b => { b with hold := some { t0 := s.now, handing := true, phase := 0, back := false, runs := [] } })
        else
          s2.onBays fun b => { b with
            hold := some { t0 := s.now, handing := false, phase := 0, back := false, runs := [] }
            ch := b.ch.map fun c => if c.live then { c with allot := s.settingN 0x0882 * 10, lowered := 0 } else c })

/-- HOLD_UP_DRIVE_DEADLINE (R151, R386): 2 ms after the declaration drive commands in flight are complete or orphaned, the OSFP cages are
without power, and the dump begins. -/
def execHoldUpDriveDeadline (s : State) : Host.Outcome State Fault Refusal :=
  .next (match s.bays.hold with
    | none => s
    | some h =>
      if h.handing || h.phase != 0 then s
      else whenDue (some (h.t0 + 2 * ms)) (fun st =>
        let gone := st.io.dcs.filter fun d => d.subAt.isSome
        let s1 := st.onAudit fun a => { a with orphaned := a.orphaned + gone.length }
        let s2 := gone.foldl (fun t d => updDrive d.bay (fun x => { x with orphans := min 64 (x.orphans + 1) }) t) s1
        let s3 := s2.onIo fun i => { i with
          dcs := []
          arrs := i.arrs.map fun a => { a.noWrites with
            resync := (a.resync ++ a.drains.flatMap fun d => if d.issued then a.rowRegions d.row else []).eraseDups }
          vols := i.vols.map fun v => { v with asm := [], asmFrog := [], rows := [] }
          cmds := i.cmds.map fun c => if c.st == .reading then { c with st := .waiting, wait := .drives, drive := [], got := [], strips := [] } else { c with drive := [] } }
        let s4 := (List.range 8).foldl (fun t p => portDown p t) s3
        s4.onBays fun b => { b with hold := some { h with phase := 1, runs := s4.dirtyRuns s4.acts } }) s)

/-- HOLD_UP_DUMP_END (R387, R389): the dump has ended; the runs whose writes completed are recorded, and the directory and the metadata are
in the vault. Where mains has returned, the unit reloads the dump and resumes. -/
def execHoldUpDumpEnd (doneRuns : List Nat) (s : State) : Host.Outcome State Fault Refusal :=
  .next (match s.bays.hold with
    | none => s
    | some h =>
      if h.handing || h.phase != 1 then s
      else
        let runs := h.runs.mapIdx fun n r => { r with done := doneRuns.contains n }
        let s1 := (s.onTime fun t => { t with saved := t.dev }).onBays fun b => { b with hold := some { h with phase := 2, runs := runs }, dumpDir := runs }
        let s2 := if h.back then resumeService s1 else s1
        if h.back && s2.md.resetAfter then moduleReset s2 else s2)

/-- The module loses power (R386, R403): every ready drive is sent its shutdown notification; what is not in the vault, on media or in
the dump is gone. -/
def powerOff (s : State) : State :=
  let told := fun (n : Nat) => (s.drive? n).any (·.ready) && (s.chan n).st == .on
  let s1 := moduleReset (s.onMd fun m => { m with safe := 0 })
  let s2 := s1.onIo fun i => { i with wb := [], gradeDump := false }
  let s3 := s2.onBays fun b => { ({} : Bays) with
    dumpDir := b.dumpDir, drives := b.drives.mapIdx fun n x => x.map (fun d => { d with notified := told n, ready := false, linkUp := false, pstate := 0, resetting := none })
    ch := b.ch.map fun c => { present := c.present, st := if c.present then .off else .empty, removedAt := c.removedAt } }
  let s4 := s3.onTime fun t => { ({} : Time) with now := t.now, dev := t.saved, saved := t.saved, saveAt := t.now + 60 * sec }
  let s5 := (s4.onDbg fun d => { cores := d.cores.map fun _ => {}, present := d.present }).onParts fun l => l.map fun p => { p with recalls := 0, corr := 0, uncorr := 0, recallAt := [] }
  (s5.onMbx fun m => { results := m.results }).onMd fun m => { m with mode := .powerStandby, boot := 0, powered := false, mains := false, svcReady := false, safe := 0 }

/-- HOLD_UP_END (R386, R389): shutdown notifications are sent, the channels turn off and the module loses power; with mains back the unit
resumes. -/
def execHoldUpEnd (s : State) : Host.Outcome State Fault Refusal :=
  .next (match s.bays.hold with
    | none => s
    | some h =>
      if h.back && (h.handing || h.phase == 2) then resumeService s
      else if h.handing || h.phase == 2 then powerOff s
      else s)

/-- MAINS_RETURN (R389, R417): before the dump has begun the unit resumes at once; once it has begun the dump runs to its end. -/
def execMainsReturn (s : State) : Host.Outcome State Fault Refusal :=
  .next (
    let s1 := s.onMd fun m => { m with mains := m.powered }
    match s.bays.hold with
    | none => s1
    | some h =>
      if h.handing || h.phase == 0 then (if s.now < h.t0 + 2 * ms || h.handing then resumeService s1 else s1.onBays fun b => { b with hold := some { h with back := true } })
      else if h.phase == 2 then
        (let t := resumeService s1
         if t.md.resetAfter then moduleReset t else t)
      else s1.onBays fun b => { b with hold := some { h with back := true } })

/-- DUMP_RATE_MEASUREMENT (R388): the measured full-row write rate of an array, bytes per second. -/
def execDumpRateMeasurement (arr rate : Nat) (s : State) : Host.Outcome State Fault Refusal :=
  .next (if s.acts arr then startHeld (updArr arr (fun a => { a with dumpRate := rate }) s) else s)

/-- T_h is measured; below 20 ms every array runs write-through (R388). -/
def putHoldUpTime (ns : Nat) (s : State) : State :=
  startHeld ((s.onBays fun b => { b with th := ns }).onIo fun i => { i with gradeDump := decide (ns < 20 * ms) })

/-- HOLD_UP_TIME_MEASUREMENT (R388). -/
def execHoldUpTimeMeasurement (ns : Nat) (s : State) : Host.Outcome State Fault Refusal := .next (putHoldUpTime ns s)

/-! ### Device time (R422 to R428) -/

/-- The timebase record's object (R464). -/
def timeObj : Nat := ssAddr 1 0 2

/-- A step of device time (R425): every deadline is kept in elapsed time and keeps its distance; a running gate entry completes its interval
(R366). -/
def stepTime (amount : Int) (s : State) : State :=
  let s1 := s.onTime fun t => { t with dev := ((t.dev : Int) + amount).toNat, steps := t.steps + 1, lastStep := amount }
  s1.onSw fun w => { w with gates := w.gates.map fun g => if g.started then { g with curEnd := ((g.curEnd : Int) + amount).toNat } else g }

/-- The UTC offset changes by PTP or a leap second, with its entry (R423). -/
def setUtc (new : Int) (s : State) : State :=
  let old := s.setting 0x0E80 0
  if new == old then s else fwEvent 0x0C ((new - old) % 65536).toNat unitObj (putSetting 0x0E80 0 new s)

/-- This unit is the time leader of a pair (R426): the one whose PTP is locked, unit A when both are or neither is. -/
def State.timeLeader (s : State) : Bool :=
  let mine := s.time.st == 3
  if mine == s.pair.pTimeLocked then s.md.slot == 0 else mine

/-- A PTP step: a firmware-internal mailbox of group 0Exxh, origin code 7 (R425); at the leader of a pair a SETTING stitch carries it
(R426). -/
def ptpStep (amount : Int) (s : State) : State :=
  let old := digest8 [s.time.dev, s.time.steps, s.time.lastStep.natAbs]
  let s1 := if s.paired && s.timeLeader then issueStitch 21 255 0 0 [0, 2, 7, 0, 0x0E10, ((s.time.dev : Int) + amount).toNat] s else s
  let s2 := stepTime amount s1
  auditPush { kind := 1, origin := 7, opcode := 0x0E10, obj := timeObj, old := old, new := digest8 [s2.time.dev, s2.time.steps, amount.natAbs] } s2

/-- PTP_MESSAGE (R422 to R424, R426, R428): an Announce of the selected master, or a Sync with its measured offset. An offset up to the step
threshold is slewed away at a rate the manual leaves open within 50 ppm; a larger one is stepped, but never in a hold-up. -/
def execPtpMessage (m : PtpMsg) (s : State) : Host.Outcome State Fault Refusal :=
  .next (
    if !s.md.fw || !s.sw.linkUp.getD 8 false then s
    else match m with
      | .announce gm utc leap interval =>
        let acq := s.time.st == 0 || s.time.st == 1 || s.time.st == 4
        let s1 := s.onTime fun t => { t with
          st := if acq then 2 else t.st, good := if acq then 0 else t.good, gm := gm, leap := leap
          annAt := some (t.now + interval * s.settingN 0x0E84), utcPtp := utc.isSome && t.st == 3 }
        (match utc with
         | some u => if s.time.st == 3 then setUtc u s1 else s1
         | none => s1)
      | .sync off =>
        if s.time.st != 2 && s.time.st != 3 then s
        else
          let lim : Int := s.settingN 0x0E85 * 1000
          let good := if off.natAbs < 1000 then min 16 (s.time.good + 1) else 0
          let lock := s.time.st == 3 || good == 16
          let s1 := s.onTime fun t => { t with lastOff := off, good := good, st := if lock then 3 else 2, unsync := t.unsync && !lock }
          if (off.natAbs : Int) ≤ lim then
            let mag : Int := Config.slew s.free % 201
            let adj := if 0 < off then mag else if off < 0 then -mag else 0
            s1.drawn.onTime fun t => { t with adj := adj, rates := (t.now, adj) :: t.rates.filter fun r => decide (t.now < r.1 + 60 * sec) }
          else if s.bays.hold.isSome then s1 else ptpStep off s1)

/-- ANNOUNCE_RECEIPT_TIMEOUT (R424, R428): a locked unit goes into holdover. -/
def execAnnounceReceiptTimeout (s : State) : Host.Outcome State Fault Refusal :=
  .next (whenDue s.time.annAt (fun st =>
    let s1 := st.onTime fun t => { t with annAt := none, gm := 0 }
    if st.time.st == 3 then holdover s1 else s1) s)

/-- DEVICE_TIME_SAVE (R428): device time goes to the vault every 60 s. -/
def execDeviceTimeSave (s : State) : Host.Outcome State Fault Refusal :=
  .next (if !s.md.powered then s
    else whenDue (some s.time.saveAt) (fun st => st.onTime fun t => { t with saved := t.dev, saveAt := t.now + 60 * sec }) s)

/-- LEAP_SECOND (R423): the announced UTC day ends; the offset changes and device time is not stepped. -/
def execLeapSecond (s : State) : Host.Outcome State Fault Refusal :=
  .next (match s.time.leap with
    | none => s
    | some (t, ch) => if t ≤ s.time.dev then setUtc (s.setting 0x0E80 0 + ch) (s.onTime fun x => { x with leap := none }) else s)

/-! ### Power states (R429 to R433) -/

/-- The conditions of R431 hold for PS2. -/
def State.ps2Free (s : State) : Bool :=
  !s.io.wb.any (·.dirty) && s.io.dcs.isEmpty && s.io.copies.isEmpty && s.io.st.isNone && s.pair.castOn.isNone
    && s.io.arrs.all (fun a => a.rebuildRow.isNone && a.resync.isEmpty && !a.importing)
    && s.io.vols.all (fun v => v.frog.isNone || !s.frogUrgent v)

/-- A host command other than Keep Alive and Asynchronous Event Request waits. -/
def State.hostWork (s : State) : Bool :=
  s.io.cmds.any fun c => !(c.sqe.qid == 0 && (c.sqe.opcode == 0x18 || c.sqe.opcode == 0x0C))

/-- A power-state change of a pair is issued as a SETTING stitch with an internal record of kind 2 (R433). -/
def stitchPs (ps : Nat) (s : State) : State := if s.paired then issueStitch 21 255 0 0 [0, 4, 0, 0, 2, ps, s.time.dev] s else s

/-- The mailbox that asked for a power state is answered once entry or exit is complete (0813h). -/
def answerPs (code : Nat) (s : State) : State :=
  match s.md.psReq with
  | some (_, _, some (p, k)) => answerSlot p k code [] (s.onMd fun m => { m with psReq := none })
  | some _ => s.onMd fun m => { m with psReq := none }
  | none => s

/-- Planes in service when some are gated: those from the first k, less the planes that a test or failure took out. -/
def gatePlanes (k : Nat) (s : State) : State :=
  s.onSw fun w => { w with planes := (List.range 4).map fun n => decide (n < k) && s.inService 0x3001 n }

/-- PS1 is entered (R429, R484). -/
def enterPs1 (idle : List Nat) (s : State) : State :=
  answerPs 0 (gatePlanes 2 ((cancelTests (fun _ => true) s).onMd fun m => { m with ps := 1, psGated := idle }))

/-- PS2 entry begins: three planes leave service (R432, R484). -/
def beginPs2 (s : State) : State := gatePlanes 1 ((cancelTests (fun _ => true) s).onMd fun m => { m with psIn := 1, psT0 := s.now, ps := 0, psGated := [] })

/-- The unit is back in PS0 (R430, R432): planes, engines and ports return, each drive goes to its allotted state, held commands go on. -/
def exitPs (s : State) : State :=
  let s1 := gatePlanes 4 (s.onMd fun m => { m with ps := 0, psIn := 0, psGated := [], psLeft := if m.ps == 1 then s.now else m.psLeft })
  answerPs 0 (startHeld (applyStates s1))

/-- The unit may be in another power state than PS0 (R429). -/
def State.psMode (s : State) : Bool := (s.md.mode == .solo || s.md.mode == .paired) && s.bays.hold.isNone

/-- PS1_ENTRY (R429, R430, R433): in auto mode the load, bytes per second over 100 ms, is below the PS1 entry load; `idle` are the compression
clusters with no work. -/
def execPs1Entry (load : Nat) (idle : List Nat) (s : State) : Host.Outcome State Fault Refusal :=
  .next (
    let wait := s.md.psLeft != 0 && decide (s.now < s.md.psLeft + 100 * ms)
    if !s.psMode || s.settingN 0x0884 != 0 || s.md.ps != 0 || s.md.psIn != 0 || wait || decide (s.settingN 0x0885 * 7680000000 ≤ load) then s
    else enterPs1 idle (stitchPs 1 s))

/-- A request for PS2 is carried out when R431 allows it, and otherwise waits for at most 10 s (R431). -/
def requestPs2 (mb : Option (Nat × Nat)) (s : State) : State :=
  let s1 := s.onMd fun m => { m with psReq := some (2, s.now + 10 * sec, mb) }
  if s.ps2Free then beginPs2 (stitchPs 2 s1) else s1

/-- PS2_IDLE_EXPIRY (R430, R431): in auto mode no host command has come for the idle time; also, a waiting request is looked at again. -/
def execPs2IdleExpiry (s : State) : Host.Outcome State Fault Refusal :=
  .next (
    let idle := s.settingN 0x0886
    match s.md.psReq with
    | some (2, _, _) => if s.md.psIn == 0 && s.md.ps != 2 && s.ps2Free then beginPs2 (stitchPs 2 s) else s
    | _ =>
      if !s.psMode || s.settingN 0x0884 != 0 || idle == 0 || s.md.ps == 2 || s.md.psIn != 0 || s.hostWork then s
      else whenDue (some (s.md.idleAt + idle * sec)) (requestPs2 none) s)

/-- PS2_SAFE_POINT (R432): a step of the entry ends: planes, drives, ports. With a host command waiting, exit follows at once. -/
def execPs2SafePoint (s : State) : Host.Outcome State Fault Refusal :=
  .next (
    if s.md.psIn == 0 then s
    else if s.hostWork then exitPs (stitchPs 0 s)
    else if s.md.psIn == 1 then
      let sleep := fun (st : State) (n : Nat) => match (st.drive? n).bind (·.nonop) with
        | some x => if (st.chan n).st == .on && st.responsible n && (st.drive? n).any (·.ready) then issueDc n 6 (.setPower x.1) 0 0 .other [] st else st
        | none => st
      (List.range 24).foldl sleep (s.onMd fun m => { m with psIn := 2 })
    else if s.md.psIn == 2 then s.onMd fun m => { m with psIn := 3 }
    else answerPs 0 (s.onMd fun m => { m with ps := 2, psIn := 0 }))

/-- POWER_STATE_EXIT (R430, R433): why 0 more than 384 GB/s in 10 us, 1 work for a gated cluster, 2 a host command, 3 drive work, 4 a
mailbox. PS1 is left for 0, 1 and 4, PS2 for 2, 3 and 4; during entry the exit follows at the next safe point. -/
def execPowerStateExit (why : Nat) (s : State) : Host.Outcome State Fault Refusal :=
  .next (
    if s.md.ps == 1 && (why == 0 || why == 1 || why == 4) then exitPs (stitchPs 0 s)
    else if s.md.ps == 2 && (why == 2 || why == 3 || why == 4) then exitPs (stitchPs 0 s)
    else s)

/-- PS2_REQUEST_TIMEOUT (R431): what forbids PS2 has persisted for 10 s; the request is refused. -/
def execPs2RequestTimeout (s : State) : Host.Outcome State Fault Refusal :=
  .next (match s.md.psReq with
    | some (2, t, _) => if s.md.psIn == 0 && s.md.ps != 2 then whenDue (some t) (answerPs 0x010A) s else s
    | _ => s)

end Sys2Proof.Machine
end

