-- ==== Sys2Proof/Machine/Modes.lean ====
section
/-! DEFINITION. Start-up, changes of mode, resets by the unit's protection, presence of the partner and of the midplane (R403 to R417,
R508 to R512). -/

namespace Sys2Proof.Machine

/-! ### Start-up (R407) -/

/-- BOOT begins, from mains (1) or after a module reset (2). -/
def beginBoot (kind : Nat) (s : State) : State :=
  s.onMd fun m => { m with
    mode := .boot, boot := kind, fw := false, rootLock := false, assembled := false, bayNext := 0, bayAt := none, standbyAt := none, drain := none }

/-- MAINS_APPLIED (R403, R407): an unpowered module gets mains, or is inserted with mains present: t0 of the start-up. -/
def execMainsApplied (s : State) : Host.Outcome State Fault Refusal :=
  .next (
    if s.md.powered then s
    else
      let s1 := s.onMd fun m => { m with
        powered := true, mains := true, modPres := true, mode := .powerStandby, svcReady := false, t0 := s.now, held := 0, pEmptyAt := none }
      s1.onBays fun b => { b with fans := b.fans.map fun f => { f with duty := 30 } })

/-- Neither copy of the configuration record verifies: every value takes its default, the alarm is raised and the loss is audited (R414).
The settings of group 0Fxxh are not part of the record. -/
def configLost (s : State) : State :=
  fwEvent 5 0 unitObj ((s.onCfg fun c => { ({} : Cfg) with unlockKeys := c.unlockKeys, dbgPolicy := c.dbgPolicy, alarm := true }).onBays fun b => { b with
    page := 0, lightAt := some (s.now + 60 * sec) })

/-- SERVICE_DOMAIN_READY (R403, R407, R408, R414, R510): swatch and configuration record are read from the vault, the slot from its contact; with
start mode auto BOOT begins. -/
def execServiceDomainReady (slotOpen swatchOk configOk : Bool) (s : State) : Host.Outcome State Fault Refusal :=
  .next (
    if !s.md.powered || s.md.svcReady then s
    else
      let slot := if slotOpen then 1 else 0
      let s1 := (s.onMd fun m => { m with svcReady := true, slot := slot, slotIn := slot }).onAudit fun a => { a with swOk := swatchOk }
      let s2 := if configOk then s1 else configLost s1
      if s2.settingN 0x0180 == 2 then s2 else beginBoot 1 s2)

/-- ROOT_LOCK (R407, R420, R421): the root synthesizer has locked and CLK_SVC is handed over to it. -/
def execRootLock (s : State) : Host.Outcome State Fault Refusal :=
  .next (
    if s.md.mode != .boot || s.md.held != 0 || !s.md.svcReady then s
    else (s.onMd fun m => { m with rootLock := true }).onTime fun t => { t with clkRoot := true })

/-- The condition of R408 that BOOT finds when its firmware begins to run: no image, the swatch, or three resets by watchdog. -/
def State.bootCondition (imageOk : Bool) (s : State) : Option Nat :=
  if !imageOk then some 1
  else if !s.audit.swOk then some 2
  else if 3 ≤ (s.md.wdResets.filter fun t => decide (s.time.dev < t + 600 * sec)).length then some 3
  else none

/-- MANAGEMENT_FIRMWARE_RUNNING (R273, R383, R407, R408): a firmware slot has verified, the line voltage is measured, the drive budget
computed and the witness asked; after mains the bays begin to ramp. -/
def execManagementFirmwareRunning (imageOk : Bool) (volts : Nat) (s : State) : Host.Outcome State Fault Refusal :=
  .next (
    if s.md.mode != .boot || !s.md.rootLock || s.md.fw then s
    else
      let s1 := (s.onMd fun m => { m with fw := true }).onImg fun i => { i with slotsOk := imageOk }
      match s1.bootCondition imageOk with
      | some c => enterSafe c s1
      | none =>
        let s2 := s1.onBays fun b => { b with volts := volts }
        let own := s2.ownBudget
        let s3 := s2.onBays fun b => { b with drvBudget := own, budget := own, rise := none }
        queryAll (if s.md.boot == 1 then s3.onMd fun m => { m with bayNext := 0, bayAt := some s.now } else s3))

/-- BAY_GROUP_TIMER (R378, R407): the next four bays with a drive present begin their ramp, 250 ms after the group before; empty bays take
no slot. -/
def execBayGroupTimer (s : State) : Host.Outcome State Fault Refusal :=
  .next (if !s.powersBays then s else whenDue s.md.bayAt (fun st =>
    let todo := (List.range 24).filter fun n => decide (st.md.bayNext ≤ n) && (st.chan n).present && (st.chan n).st == .off
    let s1 := (todo.take 4).foldl (fun t n => startRamp n t) st
    rebudget (s1.onMd fun m => match (todo.drop 4).head? with
      | some n => { m with bayNext := n, bayAt := some (s.now + 250 * ms) }
      | none => { m with bayNext := 24, bayAt := none })) s)

/-! ### Assembly (R183, R245, R250, R389, R405, R407, R410) -/

/-- Every bay has been powered and every drive is ready or has been waited for. -/
def State.baysSettled (s : State) : Bool :=
  s.md.bayAt.isNone && (List.range 24).all fun n =>
    let c := s.chan n
    !(c.st == .ramp || c.st == .qualify) && !(c.st == .on && (c.perst || c.readyAt.isSome))

/-- Dirty runs that fail their CRC after a module reset are discarded and raise cause 6 (R410). -/
def dropBadRuns (bad : List Nat) (s : State) : State :=
  let runs := s.dirtyRuns fun _ => true
  let lost := (runs.zip (List.range runs.length)).filter fun x => bad.contains x.2
  let hit := fun (b : WbBlk) => b.dirty && lost.any fun x =>
    x.1.vol == b.vol && x.1.assoc == b.assoc && x.1.row == b.row && decide (x.1.lba ≤ b.lba) && decide (b.lba < x.1.lba + x.1.blks.length)
  let s1 := s.onIo fun i => { i with wb := i.wb.filter fun b => !hit b }
  lost.foldl (fun st x => recordDwe x.1.vol x.1.lba x.1.blks.length x.1.assoc x.1.row 6 none false st) s1

/-- The blocks of a dumped run enter the write buffer again as dirty data. -/
def reloadRun (s : State) (r : DumpRun) : State :=
  let at_ := s.io.order
  let new := (r.blks.zip (List.range r.blks.length)).map fun x =>
    ({ vol := r.vol, lba := r.lba + x.2, blk := x.1, order := at_ + x.2, assoc := r.assoc, row := r.row, acked := true } : WbBlk)
  s.onIo fun i => { i with
    wb := (i.wb.filter fun b => !(b.vol == r.vol && decide (r.lba ≤ b.lba) && decide (b.lba < r.lba + r.blks.length))) ++ new
    order := i.order + r.blks.length }

/-- The dump is read back: runs recorded as complete and readable are dirty data again, the others raise cause 4, and the dump extents are
free (R389). -/
def reloadDump (bad : List Nat) (s : State) : State :=
  let runs := s.bays.dumpDir.zip (List.range s.bays.dumpDir.length)
  let one := fun (st : State) (x : DumpRun × Nat) =>
    if x.1.done && !bad.contains x.2 then reloadRun st x.1
    else recordDwe x.1.vol x.1.lba x.1.blks.length x.1.assoc x.1.row 4 none false st
  (runs.foldl one s).onBays fun b => { b with dumpDir := [] }

/-- The union of the bitmap copies that are readable, with what the vault holds, is to be resynchronised (R183). -/
def unionBitmaps (bitmaps : List (Nat × List Nat)) (s : State) : State :=
  s.onIo fun i => { i with arrs := i.arrs.map fun a =>
    let u := ((bitmaps.filter fun x => x.1 == a.no).flatMap (·.2) ++ a.bitsVault ++ a.bitsLed).eraseDups
    { a with bits := (a.bits ++ u).eraseDups, resync := (a.resync ++ u).eraseDups } }

/-- The bay at which the labels find a position: a ready drive of this shelf labelled with the array and the position, whose serial number is
the one in the superblock (R240, R242, R245). -/
def State.labelBay (a : Arr) (p : Nat) (s : State) : Option Nat :=
  (List.range 24).find? fun n => (s.drive? n).any fun d =>
    d.ready && d.serial == (a.pos.getD p {}).serial && d.label.any fun l => l.arrayId == a.id && !l.spare && l.pos == p && l.shelf == s.md.shelf.getD 0

/-- Positions take the bays that the labels of the ready drives give (R245). -/
def placeMembers (s : State) : State :=
  s.onIo fun i => { i with arrs := i.arrs.map fun a => { a with
    pos := a.pos.mapIdx fun p x => match s.labelBay a p with
      | some n => if memberGone x.st then x else { x with bay := n }
      | none => if memberGone x.st then x else { x with bay := 255 } } }

/-- Positions whose drive is not ready count as absent (R186, R407), at the unit that acts on the array. They left together, at the
generation that their labels still carry (DEDUCED, log 37). -/
def dropMissing (s : State) : State :=
  let gone := s.io.arrs.flatMap fun a => (List.range a.n).filterMap fun p =>
    if (a.pos.getD p {}).bay == 255 && !memberGone (a.pos.getD p {}).st then some (a.no, p) else none
  let s1 := gone.foldl (fun st x => if st.acts x.1 then absentMember x.1 x.2 st else st) s
  gone.foldl (fun st x => if st.acts x.1 then updArr x.1 (fun a => { a with
    pos := a.pos.modify x.2 fun q => if q.st == .absent then { q with depGen := ((s.arr? x.1).elim 0 (·.gen)) } else q }) st else st) s1

/-- Before an array serves, a superblock write that was cut short is made again, with the labels, and the indexes and trailers that closed skeins
lack are written (R255, R256). -/
def remakeMedia (s : State) : State :=
  (s.io.arrs.filter fun a => s.acts a.no).foldl (fun st a =>
    let s1 := if a.sbAgain || a.sbLabel then relabel a.no (superblockNow a.no st) else st
    let open_ := (List.range a.ext.length).filter fun x => let e := a.ext.getD x {}; e.role == 3 && e.skein == .closed && !e.trailer
    open_.foldl (fun t x => finishClose (a.ext.getD x {}).owner x t) s1) s

/-- ARRAYS_ASSEMBLED (R183, R389, R405, R407, R410): labels, superblocks, ledgers and journals have been read. `bitmaps` are the readable bitmap
copies, `badRuns` the runs that fail (their CRC after a module reset, their dump extents after mains), `ms` the measured hold-up time. -/
def execArraysAssembled (bitmaps : List (Nat × List Nat)) (badRuns : List Nat) (ms : Nat) (s : State) : Host.Outcome State Fault Refusal :=
  .next (
    if s.md.mode != .boot || !s.md.fw || s.md.assembled || !s.baysSettled then s
    else
      let s1 := s.onMd fun m => { m with assembled := true }
      let s2 := if s.md.boot == 2 then dropBadRuns badRuns s1 else reloadDump badRuns s1
      let s3 := placeMembers (unionBitmaps bitmaps s2)
      remakeMedia (dropMissing (bootEnd true (putHoldUpTime (ms * 1000000) s3))))

/-! ### Leaving service (R403, R404) -/

/-- MODE_DRAIN_COMPLETE (R403, R404, R421): no dirty data is left: MAINTENANCE, or the shutdown of every drive that the partner does not also
feed. -/
def execModeDrainComplete (s : State) : Host.Outcome State Fault Refusal :=
  .next (match s.md.drain with
    | none => s
    | some (req, op) =>
      if s.io.wb.any (·.dirty) || !s.pair.hand.isEmpty || !s.pair.handQ.isEmpty || s.pair.after.contains .standby || s.pair.after.contains .maintenance
          || s.md.standbyAt.isSome then s
      else
        let s1 := if s.paired then dropHosts s
          else (s.io.assocs.map (·.id)).foldl (fun st id => releaseAssoc id st) s
        let s2 := dropHosts (releaseLeases s1)
        if req == 2 then
          endOper op 1 0 (s2.onMd fun m => { m with mode := .maintenance, drain := none })
        else
          let alone := !s.md.pSlot || s.pair.pMode.isNone || s.pair.pMode == some .powerStandby
          let down := fun (st : State) (n : Nat) => if (st.chan n).st == .on && (st.drive? n).any (·.ready) then issueDc n 6 .shutdown 0 0 .other [] st else st
          let s3 := s2.onIo fun i => { i with dcs := i.dcs.filter fun d => d.op == .write }
          (if alone then s3.poweredBays.foldl down s3 else s3).onMd fun m => { m with standbyAt := some (s.now + 5 * sec) })

/-- The package is off and every channel with it; the service domain keeps the vault, device time and its mailboxes (R403, R416, R421, R438). -/
def enterStandby (s : State) : State :=
  let s1 := powerOff s
  let s2 := { s1 with time := { s.time with clkRoot := false }, mbx := s.mbx }
  s2.onMd fun m => { m with
    powered := true, mains := s.md.mains, svcReady := true, slot := s.md.slot, slotIn := s.md.slotIn, modPres := s.md.modPres, pSlot := s.md.pSlot
    pEmptyAt := s.md.pEmptyAt }

/-- STANDBY_SHUTDOWN_DEADLINE (R403): every drive has completed its shutdown, or 5 s have passed: channels off, package off. -/
def execStandbyShutdownDeadline (s : State) : Host.Outcome State Fault Refusal :=
  .next (match s.md.standbyAt, s.md.drain with
    | some t, some (_, op) =>
      if t ≤ s.now || s.io.dcs.isEmpty then endOper op 1 0 (enterStandby s) else s
    | _, _ => s)

/-! ### Resets by the unit's protection (R270, R408 to R410, R417, R420, R508) -/

/-- A module reset that counts as one by watchdog (R408), with its entry (R525): 1 watchdog, 2 root lock, 3 temperature. While a hold-up
dump runs it waits for the end of the dump window (R417). -/
def protectReset (why : Nat) (s : State) : State :=
  let s1 := fwEvent 0x11 why unitObj (s.onMd fun m => { m with wdResets := s.time.dev :: m.wdResets.filter fun t => decide (s.time.dev < t + 600 * sec) })
  if s.holdUp then s1.onMd fun m => { m with resetAfter := true } else moduleReset s1

/-- A hold-up dump that can go no further stops: its runs are not recorded as complete (R417, R524). -/
def stopDump (s : State) : State :=
  match s.bays.hold with
  | some h => if h.handing || h.phase != 1 then s
      else s.onBays fun b => { b with hold := some { h with phase := 2 }, dumpDir := h.runs.map fun r => { r with done := false } }
  | none => s

/-- The package runs: powered, not in POWER-STANDBY, root locked, not held in reset. -/
def State.packageOn (s : State) : Bool := s.md.powered && s.md.mode != .powerStandby && s.md.held == 0 && s.md.rootLock

/-- WATCHDOG_LAPSE (R270, R409, R410, R417): 2 ms without a refresh by the management cores. It is suspended while one is halted in
MAINTENANCE or SAFE (R500). -/
def execWatchdogLapse (s : State) : Host.Outcome State Fault Refusal :=
  .next (
    let halted := (s.md.mode == .maintenance || s.md.mode == .safe) && (s.dbg.cores.take 4).any (·.halted)
    if s.packageOn && s.md.fw && !halted then protectReset 1 s else s)

/-- ROOT_LOCK_LOSS (R420): detected within 1 us; the package is held in reset, then reset. -/
def execRootLockLoss (s : State) : Host.Outcome State Fault Refusal :=
  .next (if s.packageOn then
      let t := protectReset 2 s
      if s.holdUp then t else t.onTime fun x => { x with clkRoot := false }
    else s)

/-- THERMAL_LIMIT (R508): a sensor has held at its limit for 1 s: the package is held in reset, the fans run at 100 %. -/
def execThermalLimit (s : State) : Host.Outcome State Fault Refusal :=
  .next (
    if !s.md.powered || s.md.mode == .powerStandby || s.md.held == 3 then s
    else
      ((moduleReset (stopDump s)).onMd fun m => { m with held := 3 }).onBays fun b => { b with fans := b.fans.map fun f => { f with duty := 100 } })

/-- THERMAL_RECOVERY (R508): every sensor is below 85 degrees: a module reset that counts as one by watchdog. -/
def execThermalRecovery (s : State) : Host.Outcome State Fault Refusal :=
  .next (if s.md.held == 3 then protectReset 3 s else s)

/-! ### Presence (R375, R403, R510, R512) -/

/-- PARTNER_PRESENCE_CHANGE (R403, R510): the partner slot becomes empty or occupied. -/
def execPartnerPresenceChange (present : Bool) (s : State) : Host.Outcome State Fault Refusal :=
  .next (
    if s.md.pSlot == present then s
    else s.onMd fun m => { m with pSlot := present, pEmptyAt := if present then none else some (s.now + 60 * sec) })

/-- PARTNER_SLOT_EMPTY_TIMEOUT (R403): the partner slot has been empty for 60 s: a PAIRED unit is SOLO and claims every array it does not
hold. -/
def execPartnerSlotEmptyTimeout (s : State) : Host.Outcome State Fault Refusal :=
  .next (if s.md.pSlot then s else whenDue s.md.pEmptyAt (fun st =>
    let s1 := st.onMd fun m => { m with pEmptyAt := none }
    if !st.paired then s1
    else
      let s2 := loseShadow (s1.onPair fun p => { p with castOn := none, castRetry := none })
      let s3 := (s2.arrNos.filter fun n => !(s2.lease n).acting && !(s2.lease n).claimed && !(s2.lease n).noClaim).foldl
        (fun t n => claim n (t.lease n).epoch false t) s2
      orderAll (fun _ => true) ((s3.onMd fun m => { m with mode := .solo }).onIo fun i => { i with
        cmds := i.cmds.map fun c => { c with twinHold := none, twinWait := none } })) s)

/-- MOD_PRES_BREAK (R512, R524): the module leaves the midplane: every bay channel's gate turns off, and no change of a bay is recorded. A hold-up
dump stops. -/
def execModPresBreak (s : State) : Host.Outcome State Fault Refusal :=
  .next (
    if !s.md.modPres then s
    else
      let off := fun (st : State) (n : Nat) => if (st.chan n).live then updChan n (fun c => { c with st := .off }) (gateOff n st) else st
      stopDump ((List.range 24).foldl off (s.onMd fun m => { m with modPres := false })))

end Sys2Proof.Machine
end

