-- ==== Sys2Proof/Machine/Parts.lean ====
section
/-! DEFINITION. Parts out of service, online tests, engine recalls and the recovery ladder (R472 to R484). -/

namespace Sys2Proof.Machine

/-! ### Taking a part out (R477 to R482) -/

/-- Parts of a kind that are out: draining or out for test. -/
def State.outParts (cls inst : Nat) (s : State) : List Nat :=
  (kindInsts cls inst).filter fun n => (s.part cls n).st == 1 || (s.part cls n).st == 2

/-- The spare of a stack is free (R478). -/
def State.spareFree (pcp : Nat) (s : State) : Bool :=
  s.inService 0x2001 (32 + stackOf pcp) && (kindInsts 0x2001 pcp).all fun n => (s.part 0x2001 n).spare == 255

/-- Some command processor of a lane other than n is in service. -/
def State.laneServed (lane n : Nat) (s : State) : Bool :=
  [2 * lane, 2 * lane + 1].any fun k => k != n && s.inService 0x3005 k

/-- A class and instance name a part that group 0Dxxh knows (R464). -/
def partExists (cls inst : Nat) : Bool :=
  match cls with
  | 0x2001 => decide (inst < 34)
  | 0x2002 => decide (inst < 168)
  | 0x3004 => decide (inst < 4)
  | _ => (fewest cls).isSome && (kindInsts cls inst).contains inst || (cls == 0x3007 && decide (inst < 24)) || (decide (0x3009 ≤ cls) && decide (cls ≤ 0x300D) && inst == 0)

/-- A part may be taken out now: the limits of R478; parts outside its table only in MAINTENANCE. -/
def State.mayTakeOut (cls inst : Nat) (s : State) : Bool :=
  let out := s.outParts cls inst
  let rest := match fewest cls with
    | some n => decide (n < s.servingParts cls inst)
    | none => true
  s.inService cls inst && rest && match cls with
    | 0x3002 => out.isEmpty
    | 0x3003 => out.isEmpty
    | 0x3005 => decide (out.length < 2) && (s.laneServed (inst / 2) inst || (List.range 16).any fun l => l != inst / 2 && s.laneServed l inst)
    | 0x3001 => out.isEmpty
    | 0x3006 => out.isEmpty
    | 0x3008 => s.paired && out.isEmpty && s.pair.links.getD (1 - inst) false
    | 0x3007 => match s.memberAt inst with
      | none => true
      | some (arr, p) => match s.arr? arr with
        | none => true
        | some a => (out.all fun n => (s.memberAt n).map (·.1) != some arr) && (List.range a.n).all fun q => q == p || (a.pos.getD q {}).st == .inSync
    | 0x2001 => decide (inst < 32) && s.spareFree inst
    | _ => s.md.mode == .maintenance

/-- The next lane in service after a lane, ascending with wrap (R341). -/
def State.nextLane (lane n : Nat) (s : State) : Nat :=
  (((List.range 16).map fun k => (lane + k + 1) % 16).find? fun l => s.laneServed l n).getD lane

/-- Entries that name the lane of the last command processor in service are rewritten, by bank swaps (R341, R347). -/
def rewriteLane (n : Nat) (s : State) : State :=
  let lane := n / 2
  if s.laneServed lane n then s
  else
    let dest := s.nextLane lane n
    (List.range 8).foldl (fun st p => updParser p (fun x =>
      let cur := x.nextBank.lanes
      if cur.contains lane then { x with lanesS := some (cur.map fun l => if l == lane then dest else l) } else x) st) s

/-- A part begins dest drain, for an operation and a test code, 0 without a test (R477 dest R482). -/
def takeOut (cls inst op code : Nat) (s : State) : State :=
  let s1 := updPart cls inst (fun p => { p with
    st := 1, op := some op, code := code, back := code != 0, change := s.time.dev
    drainAt := if cls == 0x3006 then some (s.now + 100 * ms) else none }) s
  match cls with
  | 0x3001 => s1.onSw fun w => { w with planes := w.planes.set inst false }
  | 0x3005 => rewriteLane inst s1
  | 0x3008 =>
    let s2 := s1.onPair fun p => { p with links := p.links.set inst false }
    (s2.pair.stitches.filter (·.link == inst)).foldl (resendStitch (1 - inst)) s2
  | _ => s1

/-- A draining part is out of service: the operation of Take Out of Service is done; a test begins (R477). -/
def partOut (cls inst : Nat) (s : State) : State :=
  let p := s.part cls inst
  let s1 := updPart cls inst (fun x => { x with st := 2, drainAt := none, change := s.time.dev, op := if x.code == 0 then none else x.op }) s
  match p.op with
  | some op => if p.code == 0 then endOper op 1 0 s1 else s1
  | none => s1

/-- What a draining part still does: rows in a parity engine, drive commands at a bay, commands on a processor without a second one
in service (R478, R479). -/
def State.partBusy (cls inst : Nat) (s : State) : Bool :=
  match cls with
  | 0x3003 => s.io.arrs.any fun a => a.drains.any fun d => d.par == inst && !d.issued
  | 0x3007 => s.io.dcs.any fun d => d.bay == inst && d.subAt.isSome
  | 0x3005 => !s.laneServed (inst / 2) inst && s.io.cmds.any fun c => c.cp == inst
  | _ => false

/-- PART_DRAIN_COMPLETE (R478, R479, R482): the commands of a command processor have moved to the other one of its lane. A NET port and a
pseudo-channel pair end their drain on rows of their own. -/
def execPartDrainComplete (cls inst : Nat) (s : State) : Host.Outcome State Fault Refusal :=
  .next (
    if (s.part cls inst).st != 1 || cls == 0x3006 || cls == 0x2001 || s.partBusy cls inst then s
    else
      let sib := if inst % 2 == 0 then inst + 1 else inst - 1
      let s1 := if cls == 0x3005 && s.laneServed (inst / 2) inst then
          s.onIo fun i => { i with cmds := updWhere (fun c => c.cp == inst) (fun c => { c with cp := sib }) i.cmds }
        else s
      partOut cls inst s1)

/-- NET_PORT_DRAIN_END (R480): 100 ms after the drain began the port's link goes down. -/
def execNetPortDrainEnd (port : Nat) (s : State) : Host.Outcome State Fault Refusal :=
  if 8 ≤ port then .fault .noSuchPort
  else .next (if (s.part 0x3006 port).st == 1 then
      whenDue (s.part 0x3006 port).drainAt (fun st => partOut 0x3006 port (portDown port st)) s
    else s)

/-- HBM_COPY_COMPLETE (R477, R481): the copy of a pair has ended: its spare serves, or the pair serves again. -/
def execHbmCopyComplete (pcp : Nat) (s : State) : Host.Outcome State Fault Refusal :=
  .next (
    let p := s.part 0x2001 pcp
    if 32 ≤ pcp then s
    else if p.st == 1 && p.spare == 255 then
      partOut 0x2001 pcp (updPart 0x2001 pcp (fun x => { x with spare := 32 + stackOf pcp }) s)
    else if p.st == 1 then
      let s1 := partReturns 0x2001 pcp s
      match p.op with
      | some op => endOper op 1 0 s1
      | none => s1
    else if p.st == 3 && p.spare == 255 && s.spareFree pcp then
      fwEvent 0x0E 4 (ssAddr 0x2001 pcp 0) (updPart 0x2001 pcp (fun x => { x with st := 4, spare := 32 + stackOf pcp, change := s.time.dev }) s)
    else s)

/-- A part goes back to service, at once or by the reverse copy of a pseudo-channel pair (R477, R481). -/
def putBack (cls inst : Nat) (op : Option Nat) (s : State) : State :=
  if cls == 0x2001 && (s.part cls inst).spare != 255 then
    updPart cls inst (fun p => { p with st := 1, code := 0, op := op, back := true, change := s.time.dev }) s
  else
    let s1 := partReturns cls inst s
    match op with
    | some o => endOper o 1 0 s1
    | none => s1

/-- A part may return: from state 2, or from state 3 after a passing test made since the failure (R477). -/
def State.mayReturn (cls inst : Nat) (s : State) : Bool :=
  let p := s.part cls inst
  p.code == 0 && (p.st == 2 || (p.st == 3 && p.passed))

/-! ### Online tests (R477, R483) -/

/-- The test codes and the class they fit (R483). -/
def testFits (code cls : Nat) : Bool :=
  match code with
  | 1 => cls == 0x3002 || cls == 0x3003
  | 2 => cls == 0x3005
  | 3 => cls == 0x3001
  | 4 => cls == 0x3006 || cls == 0x3008
  | 5 => cls == 0x3007
  | 6 => cls == 0x2001
  | _ => false

/-- ONLINE_TEST_END (R477, R483): the result is audited; a part that passes returns where the test took it out, one that fails goes to
state 3, or to 4 behind its spare. -/
def execOnlineTestEnd (cls inst : Nat) (pass : Bool) (s : State) : Host.Outcome State Fault Refusal :=
  .next (
    let p := s.part cls inst
    if p.code == 0 || !(p.st == 2 || p.st == 3) then s
    else
      let s1 := fwEvent 0x0F ((if pass then 0 else 1) + p.code * 256) (ssAddr cls inst 0) s
      let s2 := updPart cls inst (fun x => { x with code := 0, op := none, passed := pass }) s1
      if pass then
        (if p.back then putBack cls inst p.op s2
         else match p.op with
           | some op => endOper op 1 0 s2
           | none => s2)
      else
        let s3 := match p.op with
          | some op => endOper op 2 0x010E s2
          | none => s2
        if p.spare != 255 then
          fwEvent 0x0E 4 (ssAddr cls inst 0) (updPart cls inst (fun x => { x with st := 4, back := false, change := s.time.dev }) s3)
        else
          let s4 := partFails cls inst (updPart cls inst (fun x => { x with back := false }) s3)
          if cls == 0x3007 then bayDown inst false s4 else s4)

/-! ### Recalls (R473) -/

/-- A tile that a recall may name: level 3, management cores excepted (R473). -/
def recallable (cls inst : Nat) : Bool :=
  (cls == 0x3001 || cls == 0x3002 || cls == 0x3003 || cls == 0x3005 || cls == 0x3006 || cls == 0x3007 || cls == 0x3008)
    && (kindInsts cls inst).contains inst

/-- What a recall does to the work of a tile (R473, R415): a command processor's commands end with Aborted by Reset and its debug state is
cleared; a parity engine's rows go to another; a plane fails; links retrain; drive commands of a bay are orphaned. A compression engine's
chunk begins again elsewhere. -/
def recallWork (cls inst : Nat) (s : State) : State :=
  match cls with
  | 0x3005 =>
    let mine := s.io.cmds.filter fun c => c.cp == inst && c.tag
    let s1 := mine.foldl (fun st c => reachMatch c.assoc c.row c.abortRow true false st) (updCore (4 + inst) (fun _ => {}) s)
    s1.onIo fun i => { i with cmds := updWhere (fun c => c.cp == 64 + inst / 2) (fun c => { c with cp := inst }) i.cmds }
  | 0x3003 => s.onIo fun i => { i with arrs := i.arrs.map fun a => { a with
      drains := updWhere (fun d => d.par == inst && !d.issued) (fun d => { d with par := s.pickParity a }) a.drains } }
  | 0x3001 => s.onSw fun w => { w with planes := w.planes.set inst false }
  | 0x3006 => portDown inst s
  | 0x3008 =>
    let was := s.yarnUp
    let s1 := s.onPair fun p => { p with links := p.links.set inst false, hbSince := p.hbSince.set inst 0 }
    if s1.yarnUp then (s1.pair.stitches.filter (·.link == inst)).foldl (resendStitch (1 - inst)) s1
    else if was then yarnLost s1 else s1
  | 0x3007 =>
    let s1 := (s.io.dcs.filter fun d => d.bay == inst && d.subAt.isSome).foldl (fun st d => if (st.dc? d.id).isSome then orphanDc d st else st) s
    updDrive inst (fun d => { d with linkUp := false, downAt := some (d.downAt.getD s.now) }) s1
  | _ => s

/-- An engine recall (R473, R484): work ends as its kind gives; a tile that drained for a test is out and its test is not run; the third
recall within 10 min fails the tile. A recalled plane stays out as a failing one. -/
def engineRecall (cls inst : Nat) (s : State) : State :=
  let p := s.part cls inst
  let s1 := updPart cls inst (fun x => { x with
    recalls := x.recalls + 1, recallAt := s.now :: x.recallAt.filter fun t => decide (s.now < t + 600 * sec) }) s
  let s2 := recallWork cls inst s1
  let s3 := if p.st != 1 then s2
    else
      let t := updPart cls inst (fun x => { x with st := 2, op := none, code := 0, back := false, drainAt := none, change := s.time.dev }) s2
      match p.op with
      | some op => endOper op 2 0x010A t
      | none => t
  let many := 3 ≤ (s3.part cls inst).recallAt.length
  if (many || cls == 0x3001) && (s3.part cls inst).st != 3 then partFails cls inst s3 else s3

/-- TILE_WATCHDOG (R319, R473): cause 1 heartbeat missed, 2 a cell held too long, 3 a job runs too long, 4 an uncorrected error. -/
def execTileWatchdog (cls inst cause : Nat) (s : State) : Host.Outcome State Fault Refusal :=
  .next (
    let halted := cls == 0x3005 && s.md.mode == .solo && (s.dbg.cores.getD (4 + inst) {}).halted
    if !recallable cls inst || 2 ≤ (s.part cls inst).st || !s.packageOn || halted then s
    else
      let s1 := if cause == 4 then updPart cls inst (fun p => { p with uncorr := p.uncorr + 1 }) s else s
      engineRecall cls inst s1)

/-- The bounds of the ladder do not apply to a command of a processor that the debug port halts in SOLO (R148). -/
def State.ladderHolds (c : Cmd) (s : State) : Bool := !s.suspended c

/-- RECOVERY_RUNG_OVERRUN (R148, R472): rung 1 tag abort, `obj` the command processor; 2 association reset, `obj` the association; 3 engine
recall; 4 controller reset. The case goes to the next rung. -/
def execRecoveryRungOverrun (rung obj : Nat) (s : State) : Host.Outcome State Fault Refusal :=
  .next (
    let late := fun (bound : Nat) (c : Cmd) => c.tag && s.ladderHolds c && due (c.matchAt.map (· + bound)) s
    if rung == 1 then
      (if s.io.cmds.any fun c => c.cp == obj && late (2 * ms) c then engineRecall 0x3005 obj s else s)
    else if rung == 2 then
      (((s.io.cmds.filter fun c => c.assoc == obj && late (10 * ms) c).map (·.cp)).eraseDups).foldl (fun st n => engineRecall 0x3005 n st) s
    else if rung == 3 then (if s.packageOn && s.md.fw then controllerReset s else s)
    else if rung == 4 && due s.md.ctrlReset s then protectReset 1 s
    else s)

/-! ### HBM (R481) -/

/-- A dirty block that can be read no more: its writer meets cause 6, and the block is lost with reason 3 (R481, R527). -/
def loseDirty (s : State) (x : Nat × Nat) : State :=
  match s.io.wb.find? (fun b => b.vol == x.1 && b.lba == x.2), s.vol? x.1 with
  | some b, some v =>
    let s1 := s.onIo fun i => { i with wb := i.wb.filter fun y => !(y.vol == x.1 && y.lba == x.2) }
    if !b.dirty then s1
    else
      let s2 := strike 6 [b] s1
      match (s2.arr? v.arr).bind fun a => (a.blockAt v x.2).map fun k => (a, k) with
      | some (a, r, i, dl, _) =>
        if v.packed then s2 else loseBlocks v.arr r 3 (((a.stripPos r i).take 1).map fun p => (p, (dl - driveLba a.strip r 0))) s2
      | none => s2
  | _, _ => s

/-- HBM_UNCORRECTED_ERROR (R408, R481): a pair is replaced by its stack's spare, or the unit enters SAFE without one. Of an array that is not
shadowed the named dirty blocks are lost; a shadowed array's are fetched again from the partner. -/
def execHbmUncorrectedError (pcp : Nat) (lostBlocks : List (Nat × Nat)) (s : State) : Host.Outcome State Fault Refusal :=
  .next (
    if 34 ≤ pcp || !s.packageOn then s
    else
      let s1 := updPart 0x2001 pcp (fun p => { p with uncorr := p.uncorr + 1 }) s
      let s2 := (lostBlocks.filter fun x => !s.shadowed (s.arrOf x.1)).foldl loseDirty s1
      if (s2.part 0x2001 pcp).st != 0 then s2 else partFails 0x2001 pcp s2)

end Sys2Proof.Machine
end

