-- ==== Sys2Proof/Machine/Proof.lean ====
section
/-! DEFINITION. Handover timers and proof runs (R293 to R295). -/

namespace Sys2Proof.Machine

/-- Drive commands of an array are outstanding at drives. -/
def State.arrOutstanding (arr : Nat) (s : State) : Bool := s.io.dcs.any fun d => d.subAt.isSome && (s.arrBays arr).contains d.bay

/-- The REQUEST to hand an array over goes out, or goes out again under the same counter (R264, R266, R293). -/
def requestHandover (arr : Nat) (s : State) : State :=
  let next := fun (p : Pair) => { p with hand := updWhere (fun h => h.arr == arr) (fun h => { h with sent := true, resendAt := s.now + 200 * us }) p.hand }
  match s.pair.wreqs.find? fun r => r.arr == arr && r.kind == 3 with
  | some r => putWitness (fun path => .witness path 3 arr r.ctr r.epoch (s.leaseDur / us) r.shadowed) (s.onPair next)
  | none => sendWitness arr 3 (s.lease arr).epoch (s.onPair next)

/-- HANDOVER_DRAIN_DEADLINE (R293, R502): at t0 + 800 us drive commands still outstanding abandon the handover; otherwise, once every stitch
of the array is acknowledged, the request is sent. -/
def execHandoverDrainDeadline (arr : Nat) (s : State) : Host.Outcome State Fault Refusal :=
  .next (match s.pair.hand.find? fun h => h.arr == arr with
    | none => s
    | some h =>
      if h.sent then s
      else whenDue (some (h.t0 + 800 * us)) (fun st =>
        if st.arrOutstanding arr then handFailed arr true st
        else if st.pair.stitches.any (·.arr == arr) then st
        else requestHandover arr st) s)

/-- HANDOVER_RESEND_TIMER (R293): 200 us without a GRANT or a REFUSE. -/
def execHandoverResendTimer (arr : Nat) (s : State) : Host.Outcome State Fault Refusal :=
  .next (match s.pair.hand.find? fun h => h.arr == arr with
    | none => s
    | some h => if h.sent then whenDue (some h.resendAt) (requestHandover arr) s else s)

/-- Every array is shadowed, by this unit or by its partner. -/
def State.allShadowed (s : State) : Bool :=
  s.paired && s.arrNos.all fun n => ((s.lease n).acting && (s.lease n).shadowed) || (s.lease n).marion

/-- A proof run begins over every array, in ascending order; each unit hands over those it holds (R294). -/
def startProof (op : Option Nat) (s : State) : State :=
  s.onPair fun p => { p with proof := some { op := op, todo := sortNat s.arrNos, nextAt := s.now, back := false }, proofLast := some s.time.dev }

/-- Minutes after 00:00 UTC (R294, R423). -/
def State.utcMinute (s : State) : Nat := (((s.time.dev : Int) - s.setting 0x0E80 0 * 1000000000) / 60000000000 % 1440).toNat

/-- The proof-run period, ns; 0 is off. -/
def State.proofPeriod (s : State) : Nat := s.settingN 0x0785 * 3600 * sec

/-- PROOF_RUN_START (R294): a quiet time at least the period after the previous run began, with every array shadowed. -/
def execProofRunStart (s : State) : Host.Outcome State Fault Refusal :=
  .next (
    let old := match s.pair.proofLast with
      | some t => decide (t + s.proofPeriod ≤ s.time.dev)
      | none => true
    if s.proofPeriod == 0 || !old || s.utcMinute != s.settingN 0x0786 || !s.allShadowed || s.pair.proof.isSome then s
    else startProof none s)

/-- The arrays that a unit holds beyond four, ascending (R294). -/
def State.surplus (s : State) : List Nat :=
  let held := sortNat (s.arrNos.filter fun n => (s.lease n).acting)
  held.take (held.length - 4)

/-- PROOF_RUN_NEXT (R294, R295): 1 s after the last one the next array crosses, when the successor has read every member's label and run its
engines on known vectors; otherwise the proof fails and the array stays. When all have crossed and balance is on, the arrays beyond four go
back. -/
def execProofRunNext (labelsOk vectorsOk : Bool) (s : State) : Host.Outcome State Fault Refusal :=
  .next (match s.pair.proof with
    | none => s
    | some p => whenDue (some p.nextAt) (fun st =>
        match p.todo with
        | n :: rest =>
          let s1 := st.onPair fun x => { x with proof := some { p with todo := rest, nextAt := st.now + sec } }
          if !labelsOk then pairFault (fwEvent 0x0A 1 (ssAddr 3 n 0) s1)
          else if !vectorsOk then pairFault (fwEvent 0x0A 2 (ssAddr 3 n 0) s1)
          else if (s1.lease n).acting then (startHandover n none s1).1
          else s1
        | [] =>
          if !p.back && st.settingN 0x0787 == 1 && !st.surplus.isEmpty then
            st.onPair fun x => { x with proof := some { p with todo := st.surplus, nextAt := st.now, back := true } }
          else endProof 1 0 st) s)

end Sys2Proof.Machine
end

