-- ==== Sys2Proof/Machine/Records.lean ====
section
/-! DEFINITION. The records of the state space as Read Object returns them (R464 to R467). -/

namespace Sys2Proof.Machine

/-! ### Levels 2 to 7 -/

/-- A part record (R465). -/
def partRecord (p : Part) : List Nat :=
  [p.st, p.spare] ++ zeros 2 ++ bytesLE 4 p.recalls ++ bytesLE 8 p.corr ++ bytesLE 8 p.uncorr ++ bytesLE 8 p.change

/-- A command lane as a record of DIE5 (R464); its layout is not given. -/
def laneRecord (n : Nat) (s : State) : List Nat :=
  Config.encoding 1 ([n, (s.part 0x3005 (2 * n)).st, (s.part 0x3005 (2 * n + 1)).st] ++ (s.io.cmds.filter (·.lane == n)).map (·.row))

/-! ### The unit's records -/

/-- The buffer record (R327). -/
def bufferRecord (s : State) : List Nat :=
  let pool := 524288 - ((List.range 8).map classReserve).sum - s.poolUsed
  let cast := match s.pair.castOn with
    | some c => c.buffered
    | none => 0
  let planes := ((s.sw.planes.zip [1, 2, 4, 8]).map fun x => if x.1 then x.2 else 0).sum
  bytesLE 4 s.sramUsed ++ bytesLE 4 s.sw.sramHigh ++ bytesLE 4 pool ++ bytesLE 4 s.sw.residue.length ++ bytesLE 8 s.spillUsed
    ++ bytesLE 8 s.sw.spillHigh ++ bytesLE 8 s.retained ++ bytesLE 8 cast ++ bytesLE 4 planes ++ zeros 4 ++ bytesLE 8 s.sw.planeDrops

/-- The power record (R399): V, P(V), b, T_h, the caps of R388, fan duties and speeds, the alarms; its layout is not given. -/
def powerRecord (s : State) : List Nat :=
  let caps := s.arrNos.map fun n => ((s.arr? n).elim 0 fun a => a.dumpRate) * s.dumpWindow / 1000000000
  Config.encoding 2 ([s.bays.volts, railRating s.bays.volts, (s.bays.budget % 2 ^ 32).toNat, s.bays.th] ++ caps ++ s.bays.fans.map (·.duty)
    ++ s.bays.fans.map (·.rpm) ++ [if s.bays.budgetOver then 1 else 0, if s.bays.fanAlarm then 1 else 0])

/-- The timebase record (R427). -/
def timeRecord (s : State) : List Nat :=
  let t := s.time
  let leader := s.paired && s.timeLeader
  [t.st, (if leader then 1 else 0) + (if t.utcPtp then 2 else 0) + (if t.leap.isSome then 4 else 0), s.settingN 0x0E81 % 256, 0]
    ++ bytesLEi 4 (s.setting 0x0E80 0) ++ bytesLE 8 t.gm ++ bytesLEi 8 t.lastOff ++ bytesLEi 8 t.adj ++ bytesLE 8 t.steps
    ++ bytesLEi 8 t.lastStep ++ bytesLE 8 t.yarnDelay ++ bytesLE 8 t.diffs

/-- The association table record (R350): occupancy, overflow occupancy, bucket high-water mark; its layout is not given. -/
def tableRecord (s : State) : List Nat :=
  Config.encoding 3 [(s.io.assocs.filter fun a => !a.overflow).length, (s.io.assocs.filter (·.overflow)).length, s.sw.assocHigh]

/-! ### Associations, arrays, volumes -/

/-- The policing record of an association (R364). -/
def policeRecord (a : Assoc) : List Nat :=
  let m := a.meter
  [m.greenPk, m.greenCost, m.yellowPk, m.yellowCost, m.redPk, m.redCost, m.deferrals, m.shWait].flatMap (bytesLE 8)

/-- Progress of a position in per mille: rows done by its rebuild, regions left to its resynchronisation (0414h). -/
def posProgress (a : Arr) (p : Nat) : Nat :=
  let rows := (a.memberSize - extentBytes) / a.strip
  match (a.pos.getD p {}).st with
  | .rebuilding => if a.rebuildPos.contains p then a.rebuildRow.getD 0 * 1000 / max 1 rows else 0
  | .resyncing =>
    let all := ((a.pos.getD p {}).absence.getD []).length
    if all == 0 then 0 else 1000 - 1000 * min all a.resync.length / all
  | _ => 0

/-- Array Status (0414h). -/
def arrayStatus (a : Arr) : List Nat :=
  bytesLE 8 a.gen ++ [arrayHealth a, layoutCode a.layout, a.n] ++ zeros 5 ++ (List.range 24).flatMap fun p =>
    if p < a.n then
      let x := a.pos.getD p {}
      [memberCode x.st, x.bay] ++ bytesLE 2 (posProgress a p) ++ zeros 4
    else [0, 255] ++ zeros 6

/-- Pages of a packed volume's map (R218). -/
def mapPages (size : Nat) : Nat := ceilDiv size 33554432

/-! ### Ports, parsers, queues, bays -/

/-- Port and class counters (R326). -/
def portRecord (p c : Nat) (s : State) : List Nat :=
  let r := (s.sw.ports.find? fun q => q.port == p && q.cls == c).getD { port := p, cls := c }
  ([r.cin, r.cout, r.pkAged, r.ceAged, r.spilled, r.restored, r.pSent, r.pRecv, r.pTime, r.hdrOver, r.defer, r.released].flatMap (bytesLE 8))
    ++ bytesLE 4 (s.depth p c) ++ bytesLE 4 r.high ++ zeros 24

/-- The parser record of a port (R350). -/
def parserRecord (p : Nat) (s : State) : List Nat :=
  let r := s.parser p
  (r.frames.flatMap (bytesLE 8)) ++ (r.malformed.flatMap (bytesLE 8))
    ++ ([r.punted, r.slow, r.slowOver, r.frags, r.noAssoc, r.misses, r.stalls, r.mism, r.misdir, r.swaps, r.swapTime, r.tabRef].flatMap (bytesLE 8)) ++ zeros 16

/-- An observed queue's record (R371). -/
def queueRecord (q : Nat) (s : State) : List Nat :=
  let r := (s.sw.qrecs.find? (·.q == q)).getD { q := q }
  (r.depth ++ r.age ++ [r.samples, r.gateWaits, r.overruns, r.ceilWaits]).flatMap (bytesLE 8)

/-- The code of a channel state (R398). -/
def chanCode : ChanState → Nat
  | .empty => 0
  | .off => 1
  | .ramp => 2
  | .qualify => 3
  | .on => 4
  | .coolDown => 5
  | .latched => 6

/-- A bay's record (R398). -/
def bayRecord (n : Nat) (s : State) : List Nat :=
  let c := s.chan n
  let f := fun (b : Bool) (k : Nat) => if b then k else 0
  [chanCode c.st, f c.pg 1 + f c.atRisk 2 + f c.perst 4 + f c.present 8 + f c.x4 16, c.budget, (s.drive? n).elim 0 (·.pstate)]
    ++ bytesLE 2 c.vout ++ bytesLE 2 c.cur ++ bytesLEi 2 c.temp ++ bytesLE 2 c.allot ++ bytesLE 4 c.trips ++ bytesLE 8 c.lastTrip ++ bytesLE 8 c.energy

/-! ### Audit and swatch -/

/-- The chain of an entry's predecessor, 0 for entry 1 (R457). -/
def State.chainBefore (seq : Nat) (s : State) : Nat := ((s.audit.log.find? (·.seq == seq - 1)).map (·.chain)).getD 0

/-- The oldest sequence present (R461). -/
def State.oldest (s : State) : Nat := (s.audit.log.getLast?.map (·.seq)).getD 0

/-- The audit status record (R461). -/
def auditRecord (s : State) : List Nat :=
  let a := s.audit
  ([s.oldest, a.next - 1, s.chainBefore s.oldest, a.sealed, a.exported, a.leftOut].flatMap (bytesLE 8)) ++ bytesLE 4 s.unsealed ++ [s.auditState]
    ++ zeros 3 ++ bytesLE 8 a.lastSeal

/-- The bytes of an export image (R459). -/
def exportImage (s : State) (i : Nat × Nat × Nat × Nat × List AEntry) : List Nat :=
  let body := ascii "KYAUDEXP" ++ bytesLE 2 1 ++ [s.md.slot] ++ zeros 5 ++ bytesLE 16 s.md.serial ++ bytesLE 8 i.1 ++ bytesLE 8 i.2.1
    ++ bytesLE 8 i.2.2.1 ++ bytesLE 8 i.2.2.2.1 ++ i.2.2.2.2.flatMap (·.bytes)
  body ++ bytesLE 64 (Config.signature body)

/-- The swatch record without its CRC (R462). -/
def swatchBody (s : State) : List Nat :=
  let a := s.audit
  let flags := (List.range 16).map fun b => ((List.range 8).map fun k => if a.swOver.contains (8 * b + k) then 2 ^ k else 0).sum
  ascii "KYSWATCH" ++ bytesLE 2 1 ++ bytesLE 2 114 ++ zeros 4 ++ bytesLE 8 a.swWrites ++ bytesLE 8 a.swLast ++ flags ++ (a.swEntries.flatMap (bytesLEi 8)) ++ zeros 60

/-- The stored CRC of the swatch: right when the swatch verifies, else a value that the manual does not give. -/
def swatchCrc (s : State) : Nat := if s.audit.swOk then crc32c (swatchBody s) else Config.random s.audit.swWrites % 2 ^ 32

/-- The swatch record (R462). -/
def swatchRecord (s : State) : List Nat := swatchBody s ++ bytesLE 4 (swatchCrc s)

/-! ### The state space -/

/-- The record that a class, instance and field name, none where they name no record (R464). -/
def State.recordOf (cls inst fld : Nat) (s : State) : Option (List Nat) :=
  match cls with
  | 1 =>
    if inst != 0 then none
    else match fld with
      | 0 => some (bufferRecord s)
      | 1 => some (powerRecord s)
      | 2 => some (timeRecord s)
      | 3 => some (tableRecord s)
      | 4 => some (Config.encoding 4 s.mbx.bad)
      | _ => none
  | 2 => match s.io.assocs.find? (·.ctx == inst), fld with
    | some a, 0 => some (pageStats a s)
    | some a, 1 => some (policeRecord a)
    | some a, 2 => some (Config.encoding 5 a.stats.violBy)
    | _, _ => none
  | 3 => match s.arr? inst, fld with
    | some a, 0 => some (arrayStatus a)
    | some a, 1 => some (Config.encoding 6 [a.repairs, a.reports])
    | _, _ => none
  | 4 =>
    if 1024 ≤ inst then none
    else if fld == 0 then some (volumeEntry inst s)
    else match s.vol? inst with
      | some v => if v.packed && decide (fld ≤ mapPages v.size) then some (mapPage v (fld - 1)) else none
      | none => none
  | 5 => if inst < 48 && fld < 8 then some (portRecord inst fld s) else none
  | 6 =>
    if 8 ≤ inst && inst != 47 then none
    else if fld == 0 then some (parserRecord inst s)
    else ((s.parser inst).capture[fld - 1]?).map fun f => Config.encoding 7 [f.1, f.2]
  | 7 => if (inst < 48 || (256 ≤ inst && inst < 280)) && fld < 8 then some (queueRecord (inst * 8 + fld) s) else none
  | 8 => if inst < 24 && fld == 0 then some (bayRecord inst s) else none
  | 9 =>
    if inst != 0 then none
    else if fld == 0 then some (auditRecord s)
    else if fld == 1 then s.audit.image.map (exportImage s)
    else none
  | 10 => if inst == 0 && fld == 0 then some (swatchRecord s) else none
  | 0x4001 =>
    if 8 ≤ inst then none
    else if fld == 0 then some (partRecord (s.part 0x4001 inst))
    else if inst == 5 && fld ≤ 16 then some (laneRecord (fld - 1) s) else none
  | 0x5001 => if inst == 0 && fld == 0 then some (partRecord (s.part cls 0)) else none
  | 0x6001 => if inst == 0 && fld == 0 then some (partRecord (s.part cls 0)) else none
  | 0x7001 => if inst == 0 && fld == 0 then some (partRecord (s.part cls 0)) else none
  | c => if partExists c inst && fld == 0 then some (partRecord (s.part c inst)) else none

/-- The parts of a state-space address (R464). -/
def addrClass (a : Nat) : Nat := a / 2 ^ 48
/-- The instance of a state-space address (R464). -/
def addrInst (a : Nat) : Nat := a / 2 ^ 24 % 2 ^ 24
/-- The field of a state-space address (R464). -/
def addrField (a : Nat) : Nat := a % 2 ^ 24

/-- The record at an address (R464). -/
def State.record (addr : Nat) (s : State) : Option (List Nat) := s.recordOf (addrClass addr) (addrInst addr) (addrField addr)

/-! ### Freeze (R466, R467) -/

/-- The addresses that a freeze records: every record but the export image, and of the maps the pages with an entry. -/
def State.recordAddrs (s : State) : List Nat :=
  let one := fun (c n f : Nat) => (List.range n).flatMap fun i => (List.range f).map fun k => ssAddr c i k
  let maps := s.io.vols.flatMap fun v => ((v.map.map fun m => m.1 / 512).eraseDups).map fun p => ssAddr 4 v.no (p + 1)
  one 1 1 5 ++ (s.io.assocs.flatMap fun a => (List.range 3).map fun k => ssAddr 2 a.ctx k) ++ one 3 8 2 ++ one 4 1024 1 ++ maps ++ one 5 48 8
    ++ (s.sw.parsers.flatMap fun p => (List.range (p.capture.length + 1)).map fun k => ssAddr 6 p.port k) ++ one 7 48 8
    ++ ((List.range 24).flatMap fun b => (List.range 8).map fun k => ssAddr 7 (256 + b) k) ++ one 8 24 1 ++ [ssAddr 9 0 0, ssAddr 10 0 0]
    ++ one 0x2001 34 1 ++ one 0x2002 168 1 ++ one 0x3001 4 1 ++ one 0x3002 32 1 ++ one 0x3003 4 1 ++ one 0x3004 4 1 ++ one 0x3005 32 1
    ++ one 0x3006 8 1 ++ one 0x3007 24 1 ++ one 0x3008 2 1 ++ one 0x3009 1 1 ++ one 0x300A 1 1 ++ one 0x300B 1 1 ++ one 0x300C 1 1 ++ one 0x300D 1 1
    ++ one 0x4001 8 1 ++ ((List.range 16).map fun k => ssAddr 0x4001 5 (k + 1)) ++ [ssAddr 0x5001 0 0, ssAddr 0x6001 0 0, ssAddr 0x7001 0 0]

/-- The snapshot of a freeze. -/
def State.snapshot (s : State) : List (Nat × List Nat) := s.recordAddrs.filterMap fun a => (s.record a).map fun r => (a, r)

/-- The record that Read Object returns: the frozen one while a freeze lasts, except of the export image (R466, R467). A frozen map page
without an entry is zero. -/
def State.readRecord (addr : Nat) (s : State) : Option (List Nat) :=
  match s.audit.frozen with
  | none => s.record addr
  | some (_, snap) =>
    if addr == ssAddr 9 0 1 then s.record addr
    else match assocGet addr snap with
      | some r => some r
      | none =>
        if addrClass addr == 4 && addrField addr != 0 then
          match assocGet (ssAddr 4 (addrInst addr) 0) snap with
          | some e => if e.getD 2 0 == 2 && decide (addrField addr ≤ mapPages (ofBytesLE ((e.drop 8).take 8))) then some (zeros 4096) else none
          | none => none
        else none

end Sys2Proof.Machine
end

