-- ==== Sys2Proof/Machine/Catalogue.lean ====
section
/-! DEFINITION. The catalogue of mailboxes: opcodes, roles, scopes, settings, fields and ranges (R448 to R453). -/

namespace Sys2Proof.Machine

/-! ### Opcodes, roles and scopes (R453) -/

/-- The opcode of a mailbox command; xx01h and xx02h belong to group xx (R451, R453). -/
def mbOpcode : MbCmd → Nat
  | .getSetting grp _ _ => grp * 256 + 1
  | .setSetting grp _ _ _ => grp * 256 + 2
  | .unitIdentify => 0x0110
  | .getAlarms => 0x0111
  | .clearConfigurationAlarm => 0x0112
  | .changeMode _ => 0x0113
  | .moduleReset => 0x0114
  | .controllerReset => 0x0115
  | .operationStatus _ => 0x0116
  | .operationCancel _ => 0x0117
  | .setPortAddresses _ _ => 0x0210
  | .writeIndirectionTable _ _ => 0x0211
  | .writeDscpTables _ _ _ => 0x0212
  | .associationReset _ => 0x0213
  | .listAssociations _ => 0x0214
  | .principalCreate _ => 0x0310
  | .principalModify _ => 0x0311
  | .principalRemove _ => 0x0312
  | .principalList _ => 0x0313
  | .generateUnitKey => 0x0314
  | .installUnitCertificate _ _ _ => 0x0315
  | .setOutboundCredential _ _ _ _ => 0x0316
  | .arrayCreate _ _ _ _ _ => 0x0410
  | .arrayDelete _ => 0x0411
  | .assignDrive _ _ => 0x0412
  | .markMemberFailed _ _ => 0x0413
  | .arrayStatus _ => 0x0414
  | .listLostBlocks _ _ => 0x0415
  | .listPatrolReports _ _ => 0x0416
  | .importArray _ => 0x0417
  | .volumeCreate _ _ _ _ _ _ => 0x0510
  | .volumeDelete _ => 0x0511
  | .volumeResize _ _ => 0x0512
  | .copyStart _ _ _ _ _ => 0x0513
  | .copyCutover _ => 0x0514
  | .listMapInconsistencies _ _ => 0x0515
  | .writeGateList _ _ _ _ => 0x0610
  | .readGateList _ => 0x0611
  | .setPolicyRecord _ _ _ => 0x0612
  | .clearQueueRecords _ _ => 0x0613
  | .setWitnessAddress _ => 0x0710
  | .setWitnessKey _ => 0x0711
  | .handover _ => 0x0712
  | .startProofRun => 0x0713
  | .clearNoClaimMarks _ => 0x0714
  | .readDivergenceSnapshot _ _ => 0x0715
  | .pairStatus => 0x0716
  | .bayPower _ _ => 0x0810
  | .removalRequest _ _ => 0x0811
  | .locate _ _ => 0x0812
  | .powerStateRequest _ => 0x0813
  | .powerStatus => 0x0814
  | .exportSwatch => 0x0910
  | .writeSwatchEntry _ _ _ => 0x0911
  | .readAuditEntries _ _ => 0x0A10
  | .exportAuditLog _ _ => 0x0A11
  | .sealAuditLog _ => 0x0A12
  | .readObject _ _ _ => 0x0B10
  | .freeze _ => 0x0B11
  | .releaseFreeze => 0x0B12
  | .stageSegment _ _ _ => 0x0C10
  | .verifyStagedImage _ => 0x0C11
  | .activate => 0x0C12
  | .discardStagedImage => 0x0C13
  | .takeOutOfService _ _ => 0x0D10
  | .returnToService _ _ => 0x0D11
  | .runOnlineTest _ _ _ => 0x0D12
  | .engineRecall _ _ => 0x0D13
  | .setTime _ => 0x0E10
  | .getTime => 0x0E11
  | .installUnlockKey _ _ _ => 0x0F10
  | .removeUnlockKey _ => 0x0F11
  | .debugPortPolicy _ => 0x0F12
  | .revokeUnlock => 0x0F13

/-- The commands that change nothing (R443). -/
def quietOpcodes : List Nat :=
  [0x0110, 0x0111, 0x0116, 0x0214, 0x0313, 0x0414, 0x0415, 0x0416, 0x0515, 0x0611, 0x0715, 0x0716, 0x0814, 0x0910, 0x0A10, 0x0B10, 0x0B11, 0x0B12, 0x0E11]

/-- A command can alter a stored value, an object or a state (R443). -/
def mbChanging (op : Nat) : Bool := op % 256 != 1 && !quietOpcodes.contains op

/-- What a setting's instance names (R452). -/
inductive InstKind where
  | none | assoc | netPort | profile | array | volume | portOver | weight | holder | bay
  deriving DecidableEq, Repr

/-- A row of the settings table (R452). `extra` is a value allowed beside the range. -/
structure SetRow where
  id : Nat
  inst : InstKind := .none
  lo : Int
  hi : Int
  mult : Nat := 1
  extra : Option Int := none
  shelf : Bool := false
  deriving DecidableEq, Repr

/-- The settings of groups 01xxh and 02xxh (R452). -/
def settingRows1 : List SetRow :=
  [{ id := 0x0180, lo := 0, hi := 2 }, { id := 0x0280, lo := 20, hi := 10000 }, { id := 0x0281, lo := 2, hi := 15 }, { id := 0x0282, lo := 1, hi := 64 },
   { id := 0x0283, lo := 5, hi := 500 }, { id := 0x0284, lo := 10, hi := 60000 }, { id := 0x0285, lo := 1, hi := 3600 }, { id := 0x0286, lo := 1, hi := 24 },
   { id := 0x0287, lo := 1024, hi := 8192, mult := 1024 }, { id := 0x0288, lo := 1, hi := 8 }, { id := 0x0289, inst := .assoc, lo := 64, hi := 32768, shelf := true },
   { id := 0x028A, inst := .netPort, lo := 128, hi := 8192 }, { id := 0x028B, inst := .netPort, lo := 64, hi := 8128 },
   { id := 0x028C, inst := .profile, lo := 0, hi := 1 }, { id := 0x028D, lo := 2, hi := 4 }]

/-- The settings of groups 04xxh and 05xxh (R452). -/
def settingRows2 : List SetRow :=
  [{ id := 0x0480, inst := .array, lo := 0, hi := 3600, shelf := true }, { id := 0x0481, inst := .array, lo := 500, hi := 15000, shelf := true },
   { id := 0x0482, inst := .array, lo := 1, hi := 90, shelf := true }, { id := 0x0580, inst := .volume, lo := 0, hi := 1, shelf := true },
   { id := 0x0581, inst := .volume, lo := 0, hi := 1, shelf := true }, { id := 0x0582, inst := .volume, lo := 10, hi := 80, shelf := true },
   { id := 0x0583, inst := .volume, lo := 0, hi := 86400, shelf := true }, { id := 0x0584, inst := .volume, lo := 100, hi := 10000, shelf := true },
   { id := 0x0585, inst := .volume, lo := 1, hi := 64, shelf := true }, { id := 0x0586, inst := .volume, lo := 1, hi := 1000, shelf := true }]

/-- The settings of group 06xxh (R452). -/
def settingRows3 : List SetRow :=
  [{ id := 0x0680, lo := 1, hi := 1000 }, { id := 0x0681, lo := 50, hi := 95 }, { id := 0x0682, inst := .portOver, lo := -32, hi := 127 },
   { id := 0x0683, lo := 0, hi := 65535 }, { id := 0x0684, inst := .weight, lo := 1, hi := 64 }, { id := 0x0685, lo := 1, hi := 100 },
   { id := 0x0686, lo := 1, hi := 100 }, { id := 0x0687, lo := 4, hi := 20 }, { id := 0x0688, inst := .holder, lo := 0, hi := 7, extra := some 255 }]

/-- The settings of groups 07xxh, 08xxh and 0Exxh (R452). -/
def settingRows4 : List SetRow :=
  [{ id := 0x0780, lo := 5, hi := 1000, shelf := true }, { id := 0x0781, lo := 1, hi := 65535, shelf := true }, { id := 0x0782, lo := 0, hi := 1, shelf := true },
   { id := 0x0783, lo := 100, hi := 10000, shelf := true }, { id := 0x0784, lo := 10, hi := 3600, shelf := true }, { id := 0x0785, lo := 0, hi := 168, shelf := true },
   { id := 0x0786, lo := 0, hi := 1439, shelf := true }, { id := 0x0787, lo := 0, hi := 1, shelf := true },
   { id := 0x0880, inst := .bay, lo := 2, hi := 50, shelf := true }, { id := 0x0881, inst := .bay, lo := 1, hi := 20, shelf := true },
   { id := 0x0882, lo := 8, hi := 40, shelf := true }, { id := 0x0883, lo := 1024, hi := 8192, mult := 1024, shelf := true },
   { id := 0x0884, lo := 0, hi := 1, shelf := true }, { id := 0x0885, lo := 5, hi := 45, shelf := true },
   { id := 0x0886, lo := 60, hi := 86400, extra := some 0, shelf := true }, { id := 0x0887, lo := 0, hi := 1 },
   { id := 0x0E80, lo := -2147483648, hi := 2147483647, shelf := true }, { id := 0x0E81, lo := 0, hi := 127 }, { id := 0x0E82, lo := 0, hi := 1 },
   { id := 0x0E83, lo := 0, hi := 2 }, { id := 0x0E84, lo := 2, hi := 10 }, { id := 0x0E85, lo := 10, hi := 1000000 }]

/-- The row of a setting (R452). -/
def settingRow (sid : Nat) : Option SetRow := (settingRows1 ++ settingRows2 ++ settingRows3 ++ settingRows4).find? (·.id == sid)

/-- The instances that a setting has (R452); a setting without instances takes 0. -/
def settingInsts (r : SetRow) (s : State) : List Nat :=
  match r.inst with
  | .none => [0]
  | .assoc => (s.io.assocs.filter fun a => a.st != .halfOpen).map (·.id)
  | .netPort => List.range 8
  | .profile => List.range 5
  | .array => List.range 8
  | .volume => List.range 1024
  | .portOver => List.range 8 ++ [32, 33, 47]
  | .weight => List.range 5 ++ (List.range 5).map (· + 256)
  | .holder => List.range 12 ++ (List.range 1024).map (· + 0x10000) ++ (List.range 1024).map (· + 0x20000)
  | .bay => List.range 24

/-- The instance that stands for every instance in a Set (R451). -/
def allInsts : Nat := 0xFFFFFFFF

/-- The scope of a command is the shelf (R445, R452, R453). -/
def mbShelf (c : MbCmd) : Bool :=
  match c with
  | .setSetting _ sid _ _ => (settingRow sid).any (·.shelf)
  | _ =>
    let op := mbOpcode c
    (op % 256 != 1 && (op / 256 == 4 || op / 256 == 5)) || [0x0213, 0x0310, 0x0311, 0x0312, 0x0313, 0x0316, 0x0612, 0x0710, 0x0712, 0x0713, 0x0810, 0x0811, 0x0812, 0x0813, 0x0E10].contains op

/-- The principals of the table that hold custodian; the firmware's own, index 0, is none of them (R437, R449). -/
def State.custodians (s : State) : List Nat := (s.cfg.principals.filter fun p => p.idx != 0 && bit p.roles 3).map (·.idx)

/-- Roles that may create, modify or remove a principal that holds or would hold these roles (R449): custodian when custodian or service is
among them, else administrator. -/
def principalRoles (r : Nat) : Nat := if bit r 3 || bit r 4 then 8 else 4

/-- The roles that may issue an opcode, as bits O 1, P 2, A 4, C 8, S 16 (R453). -/
def opcodeRoles (op : Nat) : Nat :=
  if op % 256 == 1 then 31
  else if op % 256 == 2 then 4
  else match op with
    | 0x0112 => 8
    | 0x0113 => 4
    | 0x0114 => 20
    | 0x0115 => 20
    | 0x0210 => 4
    | 0x0211 => 4
    | 0x0212 => 4
    | 0x0213 => 4
    | 0x0310 => 12
    | 0x0311 => 12
    | 0x0312 => 12
    | 0x0314 => 8
    | 0x0315 => 8
    | 0x0316 => 4
    | 0x0410 => 4
    | 0x0411 => 4
    | 0x0412 => 4
    | 0x0413 => 4
    | 0x0417 => 4
    | 0x0510 => 6
    | 0x0511 => 4
    | 0x0512 => 6
    | 0x0513 => 6
    | 0x0514 => 6
    | 0x0610 => 4
    | 0x0612 => 4
    | 0x0613 => 4
    | 0x0710 => 4
    | 0x0711 => 8
    | 0x0712 => 6
    | 0x0713 => 4
    | 0x0714 => 8
    | 0x0810 => 6
    | 0x0811 => 2
    | 0x0812 => 2
    | 0x0813 => 6
    | 0x0910 => 24
    | 0x0911 => 8
    | 0x0A10 => 28
    | 0x0A11 => 8
    | 0x0A12 => 8
    | 0x0B11 => 20
    | 0x0B12 => 20
    | 0x0C10 => 4
    | 0x0C11 => 4
    | 0x0C12 => 4
    | 0x0C13 => 4
    | 0x0D10 => 16
    | 0x0D11 => 16
    | 0x0D12 => 16
    | 0x0D13 => 20
    | 0x0E10 => 4
    | 0x0F10 => 8
    | 0x0F11 => 8
    | 0x0F12 => 8
    | 0x0F13 => 28
    | _ => 31

/-- The roles that may issue a command (R449, R453): those of its opcode, of its request, of the principal it names, or of the operation it
cancels. -/
def mbRoles (c : MbCmd) (s : State) : Nat :=
  match c with
  | .changeMode req => if req == 2 || req == 3 then 20 else 4
  | .operationCancel op => match s.mbx.opers.find? (·.id == op) with
    | some o => opcodeRoles o.opcode
    | none => 31
  | .principalCreate r => principalRoles r.roles
  | .principalModify r => principalRoles (r.roles ||| (s.principal? r.idx).elim 0 (·.roles))
  | .principalRemove i => match s.principal? i with
    | some p => principalRoles p.roles
    | none => 12
  | _ => opcodeRoles (mbOpcode c)

/-- The commands that the service controller executes (R438): (opcode, request or setting). -/
def svcCommand (c : MbCmd) : Bool :=
  match c with
  | .unitIdentify => true
  | .getAlarms => true
  | .changeMode req => decide (req ≤ 1)
  | .moduleReset => true
  | .operationStatus _ => true
  | .getSetting _ sid _ => sid == 0x0180
  | .setSetting _ sid _ _ => sid == 0x0180
  | _ => false

/-- Check 4: the path is accepted in the mode; in SAFE, for observer and service roles only (R400, R438; DEDUCED, log 33). -/
def State.pathOk (path principal : Nat) (c : Option MbCmd) (s : State) : Bool :=
  if path == 7 then true
  else if !s.md.fw then (path == 2 || path == 5) && c.all svcCommand
  else match s.md.mode with
    | .powerStandby => path == 2 || path == 5
    | .boot => path == 2 || path == 4 || path == 5
    | .safe => ((path == 1 || path == 2 || path == 4) && (s.principal? principal).elim 0 (·.roles) &&& 17 != 0) || (path == 5 && c == some .moduleReset)
    | _ => true

/-- What the panel principal may issue on path 5 (R436). -/
def panelMay (c : MbCmd) : Bool :=
  match c with
  | .removalRequest _ _ => true
  | .locate _ _ => true
  | .moduleReset => true
  | .changeMode req => req == 0
  | _ => false

/-- Check 5 (R400, R436, R437, R448, R449): in SAFE only observer and service act; without a custodian the service bus takes, of the
changing commands, only the creation of one. -/
def State.roleOk (path principal : Nat) (c : MbCmd) (s : State) : Bool :=
  let op := mbOpcode c
  let held := (s.principal? principal).elim 0 (·.roles)
  let act := if s.md.mode == .safe then held &&& 17 else held
  if path == 7 then true
  else if path == 5 then panelMay c
  else if path == 2 && s.custodians.isEmpty && mbChanging op then
    match c with
    | .principalCreate r => bit r.roles 3
    | _ => false
  else act &&& mbRoles c s != 0

/-! ### Fields and ranges (checks 6 and 7 of R442) -/

/-- The first condition that holds, with its code and payload offset. -/
def firstBad : List (Bool × Nat × Nat) → Option (Nat × Nat)
  | [] => none
  | (b, c, o) :: l => if b then some (c, o) else firstBad l

/-- The result offset when no single byte caused a refusal (R440). -/
def noOff : Nat := 0xFFFFFFFF

/-- A value lies in a setting's range (R10, R452). -/
def SetRow.takes (r : SetRow) (v : Int) : Bool :=
  r.extra == some v || (decide (r.lo ≤ v) && decide (v ≤ r.hi) && (v - r.lo) % r.mult == 0)

/-- The thresholds of a port keep their distance (R313): 028Ah against the XON in force, 028Bh against the XOFF in force. -/
def State.thresholdsOk (sid : Nat) (ports : List Nat) (v : Int) (s : State) : Bool :=
  if sid == 0x028A then ports.all fun p => decide (s.setting 0x028B p + 64 ≤ v)
  else if sid == 0x028B then ports.all fun p => decide (v + 64 ≤ s.setting 0x028A p)
  else true

/-- The instances that a Set reaches; a Set of every profile leaves instance 4 of 028Ch unchanged (R343, R451). -/
def setInsts (r : SetRow) (inst : Nat) (s : State) : List Nat :=
  if inst == allInsts then (settingInsts r s).filter fun n => !(r.id == 0x028C && n == 4) else [inst]

/-- Checks 6 and 7 of a setting command (R451, R452). An association that is not live is left to check 8. -/
def settingBad (grp sid inst : Nat) (val : Option Int) (s : State) : Option (Nat × Nat) :=
  match if sid / 256 == grp then settingRow sid else none with
  | none => some (0x0106, 0)
  | some r =>
    let named := inst == allInsts || r.inst == .assoc || (settingInsts r s).contains inst
    match val with
    | none => firstBad [(inst == allInsts || !named, 0x0106, 4)]
    | some v => firstBad [(!named, 0x0106, 4), (!r.takes v, 0x0105, 8), (!s.thresholdsOk sid (setInsts r inst s) v, 0x0105, 8),
        (sid == 0x028C && inst == 4 && v != 1, 0x0105, 8)]

/-- Checks 6 and 7 of a principal record (R450). -/
def principalBad (r : PrincRec) (create : Bool) : Option (Nat × Nat) :=
  firstBad [(create && r.idx != 0, 0x0106, 0), (decide (32 ≤ r.roles), 0x0106, 2), (r.auth == 0 || decide (4 ≤ r.auth), 0x0106, 3),
    (bit r.auth 0 && r.pskIdLen == 0, 0x0106, 0x28), (decide (256 < r.pskIdLen), 0x0105, 0x28)]

/-- Rates of a policy record lie between bounds and are whole megabytes per second (R363). -/
def rateBad (lo v : Nat) : Bool := decide (v < lo) || decide (100000000000 < v) || v % 1000000 != 0

/-- Check 7 of a policy record that begins at payload offset 8 (R363). -/
def policyBad (p : Policy) : Option (Nat × Nat) :=
  firstBad [(rateBad 1000000 p.cir, 0x0105, 0x10), (rateBad p.cir p.pir, 0x0105, 0x18), (decide (p.cbs < 16384) || decide (67108864 < p.cbs), 0x0105, 0x20),
    (decide (p.pbs < p.cbs) || decide (67108864 < p.pbs), 0x0105, 0x24), (rateBad 1000000 p.shRate, 0x0105, 0x28),
    (decide (p.hi < 16384) || decide (67108864 < p.hi), 0x0105, 0x30), (decide (p.lo < -67108864) || decide (-16384 < p.lo), 0x0105, 0x34),
    (decide (p.tagLimit < 64) || decide (32768 < p.tagLimit), 0x0105, 0x38)]

/-- A member count fits a layout (R169). -/
def membersFit (lay n : Nat) : Bool :=
  decide (n ≤ 24) && match lay with
    | 1 => decide (4 ≤ n) && n % 2 == 0
    | 2 => decide (3 ≤ n) && n % 3 == 0
    | 3 => decide (3 ≤ n)
    | 4 => decide (4 ≤ n)
    | _ => decide (5 ≤ n)

/-- Checks 6 and 7 of Array Create (R169, R171, R240). -/
def arrayBad (arr lay n shift : Nat) (bays : List Nat) : Option (Nat × Nat) :=
  let use := bays.take n
  firstBad [(bays.length != 24 || (bays.drop n).any (· != 255) || use.eraseDups.length != use.length, 0x0106, 8), (decide (8 ≤ arr), 0x0105, 0),
    (lay == 0 || decide (6 ≤ lay), 0x0105, 1), (!membersFit lay n, 0x0105, 2), (decide (shift < 14) || decide (18 < shift), 0x0105, 3),
    (use.any fun b => decide (24 ≤ b), 0x0105, 8)]

/-- One GiB. -/
def gib : Nat := 1073741824

/-- The size of a volume is a whole number of its blocks, of GiB for a packed one, up to 256 TiB (R206). -/
def sizeBad (packed b512 : Bool) (size : Nat) : Bool :=
  size == 0 || (if packed then size % gib != 0 || decide (262144 * gib < size) else size % (if b512 then 512 else 4096) != 0)

/-- Checks 6 and 7 of Volume Create (R175, R206, R243). -/
def volumeBad (vol arr kind flags size allot : Nat) : Option (Nat × Nat) :=
  firstBad [(decide (8 ≤ flags) || (bit flags 0 && bit flags 1) || (kind == 1 && bit flags 2), 0x0106, 4), (kind == 1 && allot != 0, 0x0106, 16),
    (decide (1024 ≤ vol), 0x0105, 0), (decide (8 ≤ arr), 0x0105, 2), (kind != 1 && kind != 2, 0x0105, 3), (sizeBad (kind == 2) (bit flags 0) size, 0x0105, 8),
    (kind == 2 && decide (allot < 4), 0x0105, 16)]

/-- Checks 6 and 7 of a gate list: 1 to 256 entries of at least one tick, a cycle of 10 us to 1 s (R365). -/
def gateBad (list : Nat) (entries : List Nat) : Option (Nat × Nat) :=
  let cycle := (entries.map (· / 256)).sum
  firstBad [(decide (8 ≤ list), 0x0105, 0), (entries.isEmpty || decide (256 < entries.length), 0x0105, 2),
    (entries.any fun e => e / 256 == 0, 0x0105, 24), (decide (cycle < 2500) || decide (250000000 < cycle), 0x0105, noOff)]

/-- The range of a swatch entry (R462). -/
def swatchRange (entry : Nat) : Int × Int :=
  if entry < 24 || entry == 96 then (8388608, 33554432)
  else if entry < 48 then (-200000, 200000)
  else if entry < 72 then (500, 10000)
  else if entry < 96 then (1000, 50000)
  else if entry < 113 then (-10000, 10000)
  else (-2000, 2000)

/-- Check 7 of group 0Dxxh takes no field; the object is looked at in check 8. Checks 6 and 7 of every other command (R442, R453). -/
def mbBad (c : MbCmd) (s : State) : Option (Nat × Nat) :=
  match c with
  | .getSetting grp sid inst => settingBad grp sid inst none s
  | .setSetting grp sid inst v => settingBad grp sid inst (some v) s
  | .changeMode req => firstBad [(decide (4 ≤ req), 0x0105, 0)]
  | .setPortAddresses port addrs => firstBad [(decide (8 ≤ port), 0x0105, 0), (decide (16 < addrs.length), 0x0105, 1)]
  | .writeIndirectionTable mask entries => firstBad [(entries.length != 1024 || entries.any fun e => decide (16 ≤ e), 0x0106, 4), (decide (256 ≤ mask), 0x0106, 1)]
  | .writeDscpTables mask rx tx => firstBad [(rx.length != 64 || tx.length != 8, 0x0106, 4), (decide (256 ≤ mask), 0x0106, 1),
      (rx.any fun e => decide (8 ≤ e), 0x0105, 4), (tx.any fun e => decide (64 ≤ e), 0x0105, 68)]
  | .principalCreate r => principalBad r true
  | .principalModify r => principalBad r false
  | .installUnitCertificate len _ _ => firstBad [(len == 0 || decide (2048 < len), 0x0105, 0)]
  | .setOutboundCredential cred len _ _ => firstBad [(decide (16 ≤ cred), 0x0105, 0), (len == 0 || decide (256 < len), 0x0105, 2)]
  | .arrayCreate arr lay n shift bays => arrayBad arr lay n shift bays
  | .arrayDelete arr => firstBad [(decide (8 ≤ arr), 0x0105, 0)]
  | .assignDrive bay role => firstBad [(decide (24 ≤ bay), 0x0105, 0), (role != 0 && role != 2, 0x0105, 1)]
  | .markMemberFailed arr pos => firstBad [(decide (8 ≤ arr), 0x0105, 0), (decide (24 ≤ pos) || (s.arr? arr).any (fun a => decide (a.n ≤ pos)), 0x0105, 1)]
  | .arrayStatus arr => firstBad [(decide (8 ≤ arr), 0x0105, 0)]
  | .listLostBlocks arr _ => firstBad [(decide (8 ≤ arr), 0x0105, 0)]
  | .listPatrolReports arr _ => firstBad [(decide (8 ≤ arr), 0x0105, 0)]
  | .importArray mask => firstBad [(decide (16777216 ≤ mask), 0x0105, 3)]
  | .volumeCreate vol arr kind flags size allot => volumeBad vol arr kind flags size allot
  | .volumeDelete vol => firstBad [(decide (1024 ≤ vol), 0x0105, 0)]
  | .volumeResize vol size => firstBad [(decide (1024 ≤ vol), 0x0105, 0), ((s.vol? vol).any fun v => sizeBad v.packed v.b512 size, 0x0105, 8)]
  | .copyStart vol dst cred gate _ => firstBad [(decide (1024 ≤ vol), 0x0105, 0), (decide (1024 ≤ dst), 0x0105, 2), (decide (16 ≤ cred), 0x0105, 4),
      (decide (8 ≤ gate) && gate != 255, 0x0105, 5)]
  | .listMapInconsistencies vol _ => firstBad [(decide (1024 ≤ vol), 0x0105, 0)]
  | .writeGateList list _ _ entries => gateBad list entries
  | .readGateList list => firstBad [(decide (8 ≤ list), 0x0105, 0)]
  | .setPolicyRecord target _ p => if 2 ≤ target then some (0x0105, 0) else policyBad p
  | .handover arr => firstBad [(decide (8 ≤ arr), 0x0105, 0)]
  | .clearNoClaimMarks _ => none
  | .readDivergenceSnapshot _ len => firstBad [(len == 0 || decide (4024 < len), 0x0105, 8)]
  | .bayPower bay action => firstBad [(decide (24 ≤ bay), 0x0105, 0), (decide (2 ≤ action), 0x0105, 1)]
  | .removalRequest bay step => firstBad [(decide (24 ≤ bay), 0x0105, 0), (decide (3 ≤ step), 0x0105, 1)]
  | .locate bay on => firstBad [(decide (24 ≤ bay) && bay != 255, 0x0105, 0), (decide (2 ≤ on), 0x0105, 1)]
  | .powerStateRequest ps => firstBad [(decide (3 ≤ ps), 0x0105, 0)]
  | .writeSwatchEntry _ entry v => firstBad [(decide (114 ≤ entry), 0x0105, 4), (decide (v < (swatchRange entry).1) || decide ((swatchRange entry).2 < v), 0x0105, 8)]
  | .readAuditEntries _ n => firstBad [(n == 0 || decide (62 < n), 0x0105, 8)]
  | .readObject addr _ len => firstBad [(decide (2 ^ 63 ≤ addr), 0x0106, 7), (len == 0 || decide (4024 < len), 0x0105, 12)]
  | .freeze t => firstBad [(t == 0 || decide (1000 < t), 0x0105, 0)]
  | .stageSegment off len _ => firstBad [(len == 0 || decide (4024 < len), 0x0105, noOff), (decide (268435456 < off + len), 0x0105, 0)]
  | .verifyStagedImage len => firstBad [(len == 0 || decide (268435456 < len), 0x0105, 0)]
  | .runOnlineTest cls _ code => firstBad [(code == 0 || decide (6 < code), 0x0105, 8), (!testFits code cls, 0x0106, 8)]
  | .installUnlockKey idx _ _ => firstBad [(decide (4 ≤ idx), 0x0105, 0)]
  | .removeUnlockKey idx => firstBad [(decide (4 ≤ idx), 0x0105, 0)]
  | .debugPortPolicy p => firstBad [(decide (2 ≤ p), 0x0105, 0)]
  | _ => none

/-! ### What a command answers -/

/-- What follows the result of a mailbox. -/
inductive MbAfter where
  | none | moduleReset | raiseSeal (last : Nat)
  deriving DecidableEq, Repr

/-- What the execution of a command answers: a code of R447, the payload of a command that is done or the offset of a refusal, or that the
result waits (for an action, for the end of reset commands, for drive writes), the action being the partner's where `goAhead` says so. -/
structure MbRes where
  code : Nat := 0
  payload : List Nat := []
  off : Nat := noOff
  wait : Bool := false
  await : Nat × Nat := (0, 0)
  dcs : List Nat := []
  after : MbAfter := .none
  goAhead : Bool := false
  deriving DecidableEq, Repr

/-- The circumstances of a command: its path, slot, principal, force flag, whether this unit decides it (alone, or as the setting leader),
and the operation ID that the leader gave it. -/
structure MbCtx where
  path : Nat := 1
  slot : Nat := 0
  principal : Nat := 0
  force : Bool := false
  lead : Bool := true
  op : Option Nat := none
  deriving DecidableEq, Repr

/-- A refusal changes nothing (R10). -/
def refuse (code off : Nat) (s : State) : State × MbRes := (s, { code := code, off := off })

/-- A command is done, with its payload. -/
def done (payload : List Nat) (s : State) : State × MbRes := (s, { payload := payload })

/-- An operation starts (R444): its ID rises by 1; the other unit of a pair takes the leader's ID (log 22); a 65th running one is
refused. -/
def startOper (x : MbCtx) (opcode obj : Nat) (f : Nat → State → State) (s : State) : State × MbRes :=
  if 64 ≤ (s.mbx.opers.filter fun o => o.st == 0).length then refuse 0x010B noOff s
  else
    let id := x.op.getD s.mbx.nextOp
    let o : Oper := { id := id, opcode := opcode, started := s.time.dev, obj := obj }
    let s1 := s.onMbx fun m => { m with opers := m.opers ++ [o], nextOp := max m.nextOp (id + 1) }
    (f id s1, { code := 1, payload := bytesLE 8 id })

/-- The unit serves: SOLO or PAIRED. -/
def State.serving (s : State) : Bool := s.md.mode == .solo || s.paired

end Sys2Proof.Machine
end

