-- ==== Sys2Proof/Machine/MbNet.lean ====
section
/-! DEFINITION. What the mailboxes of groups 01xxh to 03xxh do: settings, identity, modes, operations, network, principals (R451 to R453). -/

namespace Sys2Proof.Machine

/-! ### Settings (R451, R452) -/

/-- The value of a setting at an instance; the tag limit is the live association's own (R114, R452). -/
def State.settingAt (r : SetRow) (inst : Nat) (s : State) : Int :=
  if r.inst == .assoc then (s.assoc? inst).elim 0 fun a => a.tagLimit else s.setting r.id inst

/-- The payload of Get and Set Setting (R451). -/
def settingPayload (sid inst : Nat) (v : Int) : List Nat := bytesLE 2 sid ++ zeros 2 ++ bytesLE 4 inst ++ bytesLEi 8 v

/-- An instance of a setting is there: an association must be live or suspended. -/
def State.instThere (r : SetRow) (inst : Nat) (s : State) : Bool := inst == allInsts || r.inst != .assoc || (settingInsts r s).contains inst

/-- Get Setting, xx01h (R451). -/
def mbGetSetting (_x : MbCtx) (sid inst : Nat) (s : State) : State × MbRes :=
  match settingRow sid with
  | none => refuse 0x0106 0 s
  | some r => if s.instThere r inst then done (settingPayload sid inst (s.settingAt r inst)) s else refuse 0x0107 4 s

/-- The NVMe/TCP class or the action of a malformed profile goes to the standby bank of every NET port, and to MGMT at once (R343, R346). -/
def stageBanks (f : Parser → Parser) (g : Parser → Parser) (s : State) : State :=
  updParser 47 g ((List.range 8).foldl (fun st p => updParser p f st) s)

/-- Store one instance of a setting, with what follows from it at once. -/
def putInstance (r : SetRow) (v : Int) (s : State) (n : Nat) : State :=
  match r.id with
  | 0x0289 => updAssoc n (fun a => { a with tagLimit := v.toNat }) s
  | 0x028C => stageBanks (fun p => { p with malS := some (p.nextBank.mal.set n v.toNat) }) (fun p => { p with mal := p.mal.set n v.toNat }) (putSetting r.id n v s)
  | 0x028D => stageBanks (fun p => { p with tcpClsS := some v.toNat }) (fun p => { p with tcpCls := v.toNat }) (putSetting r.id n v s)
  | 0x0882 => rebudget (putSetting r.id n v s)
  | _ => putSetting r.id n v s

/-- The per-array caps of R388 together, bytes. -/
def State.capSum (s : State) : Nat := (s.arrNos.map fun n => ((s.arr? n).elim 0 (·.dumpRate)) * s.dumpWindow / sec).sum

/-- Set Setting, xx02h (R451, R452). The previous value is that of the first instance reached. -/
def mbSetSetting (_x : MbCtx) (sid inst : Nat) (v : Int) (s : State) : State × MbRes :=
  match settingRow sid with
  | none => refuse 0x0106 0 s
  | some r =>
    let l := setInsts r inst s
    if !s.instThere r inst then refuse 0x0107 4 s
    else if sid == 0x0883 && 4096 < v && s.capSum < v.toNat * 1048576 then refuse 0x010A noOff s
    else done (settingPayload sid inst ((l.head?).elim (settingDefault sid 0) fun n => s.settingAt r n)) (l.foldl (putInstance r v) s)

/-! ### Group 01xxh -/

/-- Identify (0110h). The service controller answers it with mode 0 (R438). -/
def mbIdentify (_x : MbCtx) (s : State) : State × MbRes :=
  let name := (ascii "KY-2448-A" ++ zeros 16).take 16
  let mode := if s.md.fw then modeCode s.md.mode else 0
  done (name ++ ascii "B1" ++ ascii "C" ++ [s.md.slot] ++ bytesLE 16 s.md.serial ++ bytesLE 4 s.img.active ++ bytesLE 4 s.img.dialect ++ bytesLE 2 3
    ++ [mode, s.md.ps] ++ zeros 8) s

/-- Get Alarms (0111h). -/
def mbGetAlarms (_x : MbCtx) (s : State) : State × MbRes :=
  let f := fun (b : Bool) (k : Nat) => if b then k else 0
  done (bytesLE 4 (f s.bays.budgetOver 1 + f s.bays.fanAlarm 2 + f s.cfg.alarm 4 + f (s.md.mode == .safe) 8) ++ bytesLE 4 s.md.safe) s

/-- Clear Configuration Alarm (0112h, R414). -/
def mbClearAlarm (_x : MbCtx) (s : State) : State × MbRes := done [] (s.onCfg fun c => { c with alarm := false })

/-- A copy is cancelled: its operation ends as cancelled (R444, R454). -/
def cancelCopy (op : Nat) (s : State) : State := failCopy op 0x010A (endOper op 3 0 s)

/-- An import, an activation or a cast-on runs, or a mode change drains (R454). -/
def State.modeBusy (s : State) : Bool :=
  s.io.arrs.any (·.importing) || s.img.act.isSome || (s.pair.castOn.any fun k => decide (0 < k.step)) || s.md.drain.isSome

/-- Leaving SOLO or PAIRED begins (R404): request 1 standby, 2 maintenance; running copies are cancelled (R454). -/
def leaveService (req op : Nat) (s : State) : State :=
  let s1 := (s.io.copies.map (·.op)).foldl (fun st o => cancelCopy o st) s
  if s1.paired then afterHandover (handAll (if req == 1 then .standby else .maintenance) (s1.onMd fun m => { m with drain := some (req, op) }))
  else beginLeave req op s1

/-- Change Mode (0113h, R403, R404, R438, R454). -/
def mbChangeMode (x : MbCtx) (req : Nat) (s : State) : State × MbRes :=
  let oper := startOper x 0x0113 unitObj
  match s.md.mode with
  | .powerStandby =>
    if req == 0 then oper (fun op st => endOper op 1 0 (beginBoot 1 st)) s
    else if req == 1 then done [] s
    else refuse 0x010A noOff s
  | .safe =>
    if req == 2 || req == 3 then oper (fun op st => endOper op 1 0 (st.onMd fun m => { m with mode := .maintenance, safe := 0 })) s
    else refuse 0x010A noOff s
  | .maintenance =>
    if s.modeBusy then refuse 0x0109 noOff s
    else if req == 3 then oper (fun op st => endOper op 1 0 (bootEnd false st)) s
    else refuse 0x010A noOff s
  | .solo =>
    if s.modeBusy then refuse 0x0109 noOff s
    else if req != 1 && req != 2 then refuse 0x010A noOff s
    else if !x.force then refuse 0x010C noOff s
    else oper (leaveService req) s
  | .paired =>
    if s.modeBusy then refuse 0x0109 noOff s
    else if (req != 1 && req != 2) || !s.canHandAll then refuse 0x010A noOff s
    else oper (leaveService req) s
  | .boot => refuse 0x010A noOff s
  | .castOn => refuse (if s.modeBusy then 0x0109 else 0x010A) noOff s
  | .isolated => refuse 0x010A noOff s

/-- Module Reset (0114h, R394, R396, R438): the reset begins once the result has been sent; the panel lock refuses it on path 5. -/
def mbModuleReset (x : MbCtx) (s : State) : State × MbRes :=
  if x.path == 5 && s.settingN 0x0887 == 1 then refuse 0x010A noOff s
  else if s.md.mode == .powerStandby then done [] s
  else (s, { after := .moduleReset })

/-- Controller Reset (0115h, R412): the result follows the last command that the reset ended. -/
def mbControllerReset (_x : MbCtx) (s : State) : State × MbRes := (controllerReset s, { await := (2, 0) })

/-- Operation Status (0116h). -/
def mbOperationStatus (_x : MbCtx) (op : Nat) (s : State) : State × MbRes :=
  match s.mbx.opers.find? (·.id == op) with
  | none => refuse 0x0107 0 s
  | some o => done ([o.st, 0] ++ bytesLE 2 o.code ++ bytesLE 2 o.prog ++ bytesLE 2 o.opcode ++ bytesLE 8 o.started ++ bytesLE 8 o.ended) s

/-- A SOLO activation is abandoned: held commands go on (R153). -/
def releaseHeld (s : State) : State :=
  startHeld (orderAll (fun _ => true) s)

/-- Operation Cancel (0117h). The manual does not list the operations that can be cancelled: those whose work can stop where it stands
(log 24). -/
def mbOperationCancel (_x : MbCtx) (op : Nat) (s : State) : State × MbRes :=
  match s.mbx.opers.find? (·.id == op) with
  | none => refuse 0x0107 0 s
  | some o =>
    let s1 := endOper op 3 0 s
    let part := s.parts.find? fun p => p.op == some op
    if o.st != 0 then refuse 0x010A noOff s
    else match o.opcode with
      | 0x0513 => match s.copy? op with
        | some c => if s.acts (s.arrOf c.vol) then done [] (cancelCopy op s) else refuse 0x010D noOff s
        | none => refuse 0x010A noOff s
      | 0x0713 => done [] (endProof 3 0 s)
      | 0x0A11 => done [] (s1.onAudit fun a => { a with exporting := none })
      | 0x0C11 => done [] (s1.onImg fun i => { i with verifying := none })
      | 0x0C12 => match s.img.act with
        | some (ph, _, _) => if !s.paired && decide (ph < 2) then done [] (releaseHeld (s1.onImg fun i => { i with act := none })) else refuse 0x010A noOff s
        | none => refuse 0x010A noOff s
      | 0x0D10 => match part with
        | some p => if p.st == 1 then done [] (partReturns p.cls p.inst s1) else refuse 0x010A noOff s
        | none => refuse 0x010A noOff s
      | 0x0D12 => match part with
        | some p => done [] (cancelTest s1 p)
        | none => refuse 0x010A noOff s
      | _ => refuse 0x010A noOff s

/-! ### Group 02xxh -/

/-- Set Port Addresses (0210h, R330). -/
def mbSetPortAddresses (_x : MbCtx) (port : Nat) (addrs : List Nat) (s : State) : State × MbRes :=
  done [] (s.onCfg fun c => { c with addrs := c.addrs.set port addrs })

/-- The ports of a mask. -/
def maskPorts (mask : Nat) : List Nat := (List.range 8).filter fun p => bit mask p

/-- Write Indirection Table (0211h, R340, R341, R346). -/
def mbWriteIndirectionTable (_x : MbCtx) (mask : Nat) (entries : List Nat) (s : State) : State × MbRes :=
  if entries.any fun l => !s.laneServed l 255 then refuse 0x010A noOff s
  else done [] ((maskPorts mask).foldl (fun st p => updParser p (fun r => { r with lanesS := some entries }) st) s)

/-- Write DSCP Tables (0212h, R332, R333, R346). -/
def mbWriteDscpTables (_x : MbCtx) (mask : Nat) (rx tx : List Nat) (s : State) : State × MbRes :=
  done [] ((maskPorts mask).foldl (fun st p => updParser p (fun r => { r with dscpS := some (rx, tx) }) st) s)

/-- Association Reset (0213h, R152): the result follows the last command that the reset ended. -/
def mbAssociationReset (x : MbCtx) (id : Nat) (s : State) : State × MbRes :=
  match s.assoc? id with
  | none => refuse 0x0107 0 s
  | some a =>
    if a.st == .halfOpen then refuse 0x0107 0 s
    else if !x.lead then done [] s
    else (assocReset id (issueStitch 13 255 id 0 [0, 3, 0] s), { await := (1, id) })

/-- The state of an association in an entry of its table (R335). -/
def assocCode : AssocState → Nat
  | .halfOpen => 1
  | .live => 2
  | .suspended => 3

/-- Associations from a context index on, in the order of the index. -/
def State.assocsFrom (first : Nat) (s : State) : List Assoc :=
  (sortNat ((s.io.assocs.map (·.ctx)).filter fun k => decide (first ≤ k))).filterMap fun k => s.io.assocs.find? (·.ctx == k)

/-- List Associations (0214h). -/
def mbListAssociations (_x : MbCtx) (first : Nat) (s : State) : State × MbRes :=
  let l := (s.assocsFrom first).take 167
  done (bytesLE 4 s.io.assocs.length ++ bytesLE 4 l.length ++ l.flatMap fun a =>
    bytesLE 4 a.id ++ bytesBE 16 a.src ++ bytesLE 2 a.principal ++ [assocCode a.st, 0]) s

/-! ### Group 03xxh -/

/-- A principal from its record (R450). -/
def PrincRec.toPrincipal (idx : Nat) (r : PrincRec) : Principal :=
  { idx := idx, roles := r.roles, auth := r.auth, name := r.name, pskIdLen := r.pskIdLen, pskId := r.pskId, psk := r.psk, pub := r.pub }

/-- Principal Create (0310h, R449): the lowest free index. -/
def mbPrincipalCreate (_x : MbCtx) (r : PrincRec) (s : State) : State × MbRes :=
  match (List.range 1021).find? fun k => (s.principal? (k + 3)).isNone with
  | none => refuse 0x010B noOff s
  | some k => done (bytesLE 2 (k + 3) ++ zeros 6) (s.onCfg fun c => { c with principals := c.principals ++ [PrincRec.toPrincipal (k + 3) r] })

/-- Principal Modify (0311h, R437, R449, R450): zero keys keep their value, the policy record stays; the last custodian keeps its role. -/
def mbPrincipalModify (_x : MbCtx) (r : PrincRec) (s : State) : State × MbRes :=
  match s.principal? r.idx with
  | none => refuse 0x0107 0 s
  | some p =>
    if s.custodians == [p.idx] && !bit r.roles 3 then refuse 0x010A 2 s
    else
      let new := { PrincRec.toPrincipal p.idx r with
        psk := if r.psk == 0 then p.psk else r.psk, pub := if r.pub == 0 then p.pub else r.pub, policy := p.policy }
      done [] (s.onCfg fun c => { c with principals := updWhere (·.idx == p.idx) (fun _ => new) c.principals })

/-- Principal Remove (0312h, R100, R437, R449, R454): its associations are released, its sessions close once their slots are free, and the
operation ends with the last release. -/
def mbPrincipalRemove (x : MbCtx) (idx : Nat) (s : State) : State × MbRes :=
  if idx < 3 then refuse 0x010A 0 s
  else if (s.principal? idx).isNone then refuse 0x0107 0 s
  else if s.custodians == [idx] then refuse 0x010A 0 s
  else startOper x 0x0312 0 (fun op st =>
    let mine := (st.io.assocs.filter fun a => a.principal == idx).map (·.id)
    let s1 := st.onCfg fun c => { c with principals := c.principals.filter (·.idx != idx) }
    let s2 := s1.onMbx fun m => { m with
      sessions := (updWhere (·.principal == idx) (fun e => { e with closing := true }) m.sessions).filter fun e =>
        !(e.closing && !m.slots.any fun y => y.path == 1 && y.session == e.id) }
    let s3 := s2.onIo fun i => { i with assocs := updWhere (fun a => mine.contains a.id) (fun a => { a with removing := some op }) i.assocs }
    if mine.isEmpty then endOper op 1 0 s3 else mine.foldl (fun t id => releaseAssoc id t) s3) s

/-- A principal record as it is read: the key is returned as 0 (R450). -/
def principalBytes (p : Principal) : List Nat :=
  bytesLE 2 p.idx ++ [p.roles, p.auth] ++ zeros 4 ++ bytesLE 32 p.name ++ bytesLE 2 p.pskIdLen ++ zeros 6 ++ zeros 32 ++ bytesLE 32 p.pub ++ zeros 16
    ++ bytesLE 256 p.pskId

/-- Principal List (0313h). -/
def mbPrincipalList (_x : MbCtx) (first : Nat) (s : State) : State × MbRes :=
  let idx := (sortNat ((s.cfg.principals.map (·.idx)).filter fun k => decide (first ≤ k))).take 10
  done (bytesLE 4 s.cfg.principals.length ++ bytesLE 4 idx.length ++ (idx.filterMap fun k => s.principal? k).flatMap principalBytes) s

/-- Generate Unit Key (0314h). -/
def mbGenerateUnitKey (_x : MbCtx) (s : State) : State × MbRes :=
  let k := Config.unitKey s.free % 2 ^ 256
  done (bytesLE 32 k) (s.drawn.onCfg fun c => { c with unitKey := some k, cert := none })

/-- Install Unit Certificate (0315h): it must carry the generated key; `key` is the key that it carries. -/
def mbInstallCertificate (_x : MbCtx) (cert key : Nat) (s : State) : State × MbRes :=
  if s.cfg.unitKey == some key then done [] (s.onCfg fun c => { c with cert := some cert }) else refuse 0x010E 8 s

/-- Set Outbound Credential (0316h). -/
def mbSetCredential (_x : MbCtx) (cred psk ident : Nat) (s : State) : State × MbRes :=
  done [] (s.onCfg fun c => { c with creds := (cred, psk, ident) :: c.creds.filter (·.1 != cred) })

end Sys2Proof.Machine
end

