-- ==== Sys2Proof/Machine/MbStore.lean ====
section
/-! DEFINITION. What the mailboxes of groups 04xxh and 05xxh do: arrays, drives, volumes and copies (R164 to R173, R201 to R208, R453). -/

namespace Sys2Proof.Machine

/-! ### Shared operations -/

/-- The unit that decides writes the drives, the other one takes the picture alone. -/
def writtenBy (lead : Bool) (f : State → State) (s : State) : State :=
  let t := f s
  if lead then t else t.onIo fun i => { i with dcs := s.io.dcs, nextDc := s.io.nextDc }

/-- Drive commands issued between two states. -/
def newDcs (before after : State) : List Nat := (List.range (after.io.nextDc - before.io.nextDc)).map (· + before.io.nextDc)

/-- A result that waits for drive writes, at once done when there is none. -/
def afterWrites (before after : State) : State × MbRes := (after, { dcs := newDcs before after })

/-- The layout of a code (R240). -/
def layoutAt : Nat → Layout
  | 1 => .m2
  | 2 => .m3
  | 3 => .p1
  | 4 => .p2
  | _ => .p3

/-- Why a drive cannot become a member or a spare (R163, R164, R453): none there, member of an array, refused, not ready, or a spare where an
unassigned one is needed. -/
def State.driveBad (bay off : Nat) (spareOk : Bool) (s : State) : Option (Nat × Nat) :=
  match s.drive? bay with
  | none => some (0x0107, off)
  | some d =>
    firstBad [(d.role == .member && spareOk, 0x010A, off), (d.role == .member, 0x0109, off), (d.role == .refused || !d.ready, 0x010A, off),
      (d.role == .spare && !spareOk, 0x010A, off)]

/-- The first failure of a list of checks of bays, at payload offset 8 + position. -/
def State.baysBad (bays : List Nat) (s : State) : Option (Nat × Nat) :=
  (bays.zip (List.range bays.length)).findSome? fun x => s.driveBad x.1 (8 + x.2) false

/-- A lease record for a new array: the epoch in the vault stays (log 21). -/
def newLease (arr : Nat) (lead : Bool) (s : State) : State :=
  let s1 := updLease arr (fun l => { epoch := l.epoch, stored := if lead then 3 else 0 }) s
  if lead && !(s.md.mode == .solo && s.pair.soloNoLease) then sendWitness arr 0 0 s1 else s1

/-- A new array's keepers have their ledger copies from the start. -/
def liveKeepers (arr : Nat) (s : State) : State :=
  updArr arr (fun a => { a with keepers := a.keepers.map fun k => { k with live := true } }) (replaceKeepers arr s)

/-- Labels, both superblock copies and the ledgers of an array are written (R240 to R248). -/
def writeArray (arr : Nat) (s : State) : State :=
  let headers := fun (st : State) => match st.arr? arr with
    | none => st
    | some a => writeMeta arr a.liveBays 32768 (byteBlk lostHeader) ([0, 1, 2, 3].foldl (fun t k => writeSlot arr k t) st)
  relabel arr (headers (ledgerNow arr (superblockNow arr (superblockNow arr s))))

/-! ### Group 04xxh -/

/-- Array Create (0410h, R165, R169, R171, R240): the result follows the writes of labels and superblocks. -/
def mbArrayCreate (x : MbCtx) (arr lay n shift : Nat) (bays : List Nat) (s : State) : State × MbRes :=
  let use := bays.take n
  if !s.serving then refuse 0x010A noOff s
  else if (s.arr? arr).isSome then refuse 0x0108 0 s
  else match s.baysBad use with
    | some e => refuse e.1 e.2 s
    | none =>
      let s0 := if s.md.shelf.isSome then s else s.drawn.onMd fun m => { m with shelf := some (s.freeVal % 2 ^ 128) }
      let caps := use.filterMap fun b => (s.drive? b).map (·.cap)
      let size := caps.foldl min (caps.headD 0) / gib * gib
      let strip := 2 ^ shift
      let w := dataStrips (layoutAt lay) n * strip
      let pos := use.map fun b => ({ st := .inSync, bay := b, serial := (s.drive? b).elim 0 (·.serial) } : Pos)
      let a : Arr := { no := arr, id := s0.freeVal % 2 ^ 128, layout := layoutAt lay, strip := strip, memberSize := size, pos := pos, created := s.time.dev
                       ext := List.replicate (extentCount size strip w) {} }
      let s1 := s0.drawn.onIo fun i => { i with arrs := i.arrs ++ [a] }
      let s2 := use.foldl (fun st b => updDrive b (fun d => { d with role := .member, foreign := false }) st) s1
      afterWrites s (newLease arr x.lead (writtenBy x.lead (writeArray arr) (liveKeepers arr s2)))

/-- Array Delete (0411h): the drives become unassigned, their labels blank; the lease is released (R267). -/
def mbArrayDelete (x : MbCtx) (arr : Nat) (s : State) : State × MbRes :=
  match s.arr? arr with
  | none => refuse 0x0107 0 s
  | some a =>
    if !s.serving then refuse 0x010A noOff s
    else if (s.io.vols.any (·.arr == arr)) || a.importing || s.pair.hand.any (·.arr == arr) then refuse 0x0109 0 s
    else
      let bays := a.bays fun _ => true
      let l := s.lease arr
      let s1 := stopActing arr (if l.held then sendWitness arr 4 l.epoch s else s)
      let s2 := bays.foldl (fun st b => updDrive b (fun d => { d with role := .unassigned, label := none }) st) s1
      let s3 := writtenBy x.lead (fun st => bays.foldl (fun t b => issueTagged b 6 .write 0 1 (.metaData arr) [{}] [{}] t) st) s2
      done [] (updLease arr (fun y => { epoch := y.epoch }) (s3.onIo fun i => { i with arrs := i.arrs.filter (·.no != arr) }))

/-- A failed position of an array this unit acts on takes a spare that has become available (R188). -/
def serveFailed (s : State) : State :=
  let todo := (s.io.arrs.filter fun a => s.acts a.no).flatMap fun a =>
    ((List.range a.n).filter fun p => (a.pos.getD p {}).st == .failed).map fun p => (a.no, p)
  todo.foldl (fun st x => match st.arr? x.1 with
    | some a => if (st.pickSpare a 255).isSome then seekSpare x.1 x.2 255 st else st
    | none => st) s

/-- Assign Drive (0412h, R164): a spare is labelled as one, an unassigned drive has a blank label. The force flag takes a drive whose label
names another shelf. -/
def mbAssignDrive (x : MbCtx) (bay role : Nat) (s : State) : State × MbRes :=
  match s.driveBad bay 0 true with
  | some e => refuse e.1 e.2 s
  | none =>
    if !s.serving then refuse 0x010A noOff s
    else if (s.drive? bay).any (·.foreign) && !x.force then refuse 0x010C noOff s
    else
      let spare := role == 2
      let lab : DriveLabel := { shelf := s.md.shelf.getD 0, spare := true, arr := 255, pos := 255 }
      let s1 := updDrive bay (fun d => { d with role := if spare then .spare else .unassigned, label := if spare then some lab else none, foreign := false }) s
      let s2 := writtenBy x.lead (fun st => if spare then
          issueTagged bay 6 .write 0 1 (.metaData 255) [byteBlk (spareLabel bay st)] [{ kind := 7, arr := 255, row := 2 ^ 64 - 1 }] st
        else issueTagged bay 6 .write 0 1 (.metaData 255) [{}] [{}] st) s1
      let ids := newDcs s s2
      (if spare then serveFailed s2 else s2, { dcs := ids })

/-- Mark Member Failed (0413h, R170, R186): the unit that acts on the array carries it out. -/
def mbMarkFailed (_x : MbCtx) (arr pos : Nat) (s : State) : State × MbRes :=
  match s.arr? arr with
  | none => refuse 0x0107 0 s
  | some a =>
    if !s.serving || (a.pos.getD pos {}).st == .failed || Arr.offline { a with pos := a.pos.modify pos fun p => { p with st := .failed } } then
      refuse 0x010A noOff s
    else if !s.acts arr then done [] s
    else
      let bay := a.bayOf pos
      done [] (endDcs (fun d => decide (bay < 24) && d.bay == bay) (failMember arr pos s))

/-- Array Status (0414h). -/
def mbArrayStatus (_x : MbCtx) (arr : Nat) (s : State) : State × MbRes :=
  match s.arr? arr with
  | none => refuse 0x0107 0 s
  | some a => done (arrayStatus a) s

/-- A list result: total, count of at most n, entries from the first on. -/
def listResult {α : Type} (n first : Nat) (f : α → List Nat) (l : List α) : List Nat :=
  let part := (l.drop first).take n
  bytesLE 4 l.length ++ bytesLE 4 part.length ++ part.flatMap f

/-- List Lost Blocks (0415h, R194, R248). -/
def mbListLost (_x : MbCtx) (arr first : Nat) (s : State) : State × MbRes :=
  match s.arr? arr with
  | none => refuse 0x0107 0 s
  | some a => done (listResult 125 first (fun (l : LostBlk) =>
      bytesLE 8 l.row ++ [l.pos, l.reason, 1, 0] ++ bytesLE 4 l.first ++ bytesLE 4 l.cnt ++ zeros 4 ++ bytesLE 8 l.time) a.lost) s

/-- List Patrol Reports (0416h, R199). -/
def mbListPatrol (_x : MbCtx) (arr first : Nat) (s : State) : State × MbRes :=
  match s.arr? arr with
  | none => refuse 0x0107 0 s
  | some a => done (listResult 125 first (fun (l : PatrolRep) =>
      bytesLE 8 l.row ++ bytesLE 4 l.blk ++ bytesLE 4 l.mask ++ [if l.reported then 1 else 0] ++ zeros 7 ++ bytesLE 8 l.time) a.patrolRep) s

/-- An array as the edition-2 labels of its members describe it (R201). -/
def importedArr (l : DriveLabel) (bays : List (Nat × Drive × DriveLabel)) (created : Nat) : Arr :=
  let strip := 2 ^ l.shift
  let w := dataStrips (layoutAt l.layout) l.n * strip
  let pos := (List.range l.n).map fun p => match bays.find? fun b => b.2.2.pos == p with
    | some b => ({ st := .inSync, bay := b.1, serial := b.2.1.serial } : Pos)
    | none => {}
  { no := l.arr, id := l.arrayId, layout := layoutAt l.layout, strip := strip, memberSize := l.size, gen := l.gen, pos := pos, created := created, importing := true
    ext := List.replicate (extentCount l.size strip w) {} }

/-- Import Array (0417h, R201): one array of edition 2, with every member in the mask. Its volumes come with IMPORT_END. -/
def mbImportArray (x : MbCtx) (mask : Nat) (s : State) : State × MbRes :=
  let bays := (List.range 24).filter fun b => bit mask b
  let ds := bays.filterMap fun b => match s.drive? b with
    | some d => d.label.map fun l => (b, d, l)
    | none => none
  match ds with
  | [] => refuse 0x0107 0 s
  | (_, _, l) :: _ =>
    if !s.serving then refuse 0x010A noOff s
    else if ds.length != bays.length then refuse 0x0107 0 s
    else if ds.any fun y => y.2.2.spare || y.2.2.arrayId != l.arrayId || y.2.2.edition != l.edition then refuse 0x0106 0 s
    else if l.edition != 2 || ds.any fun y => y.2.1.role != .unassigned || !y.2.1.ready then refuse 0x010A noOff s
    else if !((List.range l.n).all fun p => ds.any fun y => y.2.2.pos == p) then refuse 0x0107 0 s
    else if (s.arr? l.arr).isSome then refuse 0x0108 0 s
    else startOper x 0x0417 (ssAddr 3 l.arr 0) (fun _ st =>
      let s1 := st.drawn.onIo fun i => { i with arrs := i.arrs ++ [importedArr l ds (st.freeVal % 2 ^ 64)] }
      let s2 := ds.foldl (fun t y => updDrive y.1 (fun d => { d with role := .member, foreign := false }) t) s1
      newLease l.arr x.lead (liveKeepers l.arr s2)) s

/-! ### Group 05xxh -/

/-- Free extents that a volume may take, ascending: all but the two highest of the array (R387). -/
def Arr.freeExtents (a : Arr) : List Nat :=
  (List.range (a.ext.length - 2)).filter fun k => (a.ext.getD k {}).role == 0

/-- Map extents of a packed volume of a size (R218). -/
def mapExtents (size : Nat) : Nat := ceilDiv (size / 8192) extentBytes

/-- Extents given to a volume from the lowest free ones on: (role, first index, count) each; roles without an index take 0 (R244). -/
def giveExtents (vol : Nat) (want : List (Nat × Nat × Nat)) (a : Arr) : Arr :=
  let roles := want.flatMap fun w => (List.range w.2.2).map fun k => (w.1, if w.1 == 4 then 0 else w.2.1 + k)
  (a.freeExtents.zip roles).foldl (fun y z => { y with ext := y.ext.set z.1 { owner := vol, role := z.2.1, index := z.2.2 } }) a

/-- The superblock follows a change of an array, by the unit that acts on it (R245). -/
def noteArray (arr : Nat) (s : State) : State := if s.acts arr then superblockNow arr s else s

/-- Namespace attribute changed (R146). -/
def volumeEvent (s : State) : State := raiseAll (fun _ => true) 2 0 0 s

/-- Volume Create (0510h, R173, R175, R206, R208, R218, R387). -/
def mbVolumeCreate (_x : MbCtx) (vol arr kind flags size allot : Nat) (s : State) : State × MbRes :=
  match s.arr? arr with
  | none => refuse 0x0107 2 s
  | some a =>
    let packed := kind == 2
    let maps := if packed then mapExtents size else 0
    let direct := if packed then 0 else ceilDiv size extentBytes
    if !s.serving || a.offline then refuse 0x010A noOff s
    else if (s.vol? vol).isSome then refuse 0x0108 0 s
    else if a.freeExtents.length < maps + direct + allot then refuse 0x010B noOff s
    else
      let v : Volume := { no := vol, arr := arr, packed := packed, b512 := bit flags 0, prot := bit flags 1, size := size, created := s.time.dev
                          nguid := s.freeVal % 2 ^ 128, allot := allot, mapExt := maps }
      let s1 := updArr arr (giveExtents vol [(1, 0, direct), (2, 0, maps), (4, 0, allot)]) (s.drawn.onIo fun i => { i with vols := i.vols ++ [v] })
      done [] (volumeEvent (noteArray arr (putSetting 0x0581 vol (if bit flags 2 then 1 else 0) s1)))

/-- Volume Delete (0511h): its extents are free, its buffered data and map pages gone. -/
def mbVolumeDelete (_x : MbCtx) (vol : Nat) (s : State) : State × MbRes :=
  match s.vol? vol with
  | none => refuse 0x0107 0 s
  | some v =>
    let open_ := s.io.cmds.any fun c => c.sqe.qid != 0 && nsVol c.sqe.nsid == some vol
    if !s.serving then refuse 0x010A noOff s
    else if open_ || s.io.copies.any (·.vol == vol) then refuse 0x0109 0 s
    else
      let s1 := updArr v.arr (fun a => { a with
        ext := updWhere (·.owner == vol) (fun _ => {}) a.ext, drains := a.drains.filter (·.vol != vol), jobs := a.jobs.filter fun j => a.rowVol j.row != vol
        jRecs := a.jRecs.filter (·.vol != vol) }) s
      let s2 := s1.onIo fun i => { i with
        vols := i.vols.filter (·.no != vol), wb := i.wb.filter (·.vol != vol), pages := i.pages.filter (·.vol != vol) }
      done [] (volumeEvent (noteArray v.arr s2))

/-- Volume Resize (0512h, R173, R206, R387): it grows only. -/
def mbVolumeResize (_x : MbCtx) (vol size : Nat) (s : State) : State × MbRes :=
  match s.vol? vol with
  | none => refuse 0x0107 0 s
  | some v => match s.arr? v.arr with
    | none => refuse 0x0107 0 s
    | some a =>
      let have_ := ceilDiv v.size extentBytes
      let direct := if v.packed then 0 else ceilDiv size extentBytes - have_
      let maps := if v.packed then mapExtents size - v.mapExt else 0
      if !s.serving || a.offline || decide (size < v.size) then refuse 0x010A 8 s
      else if a.freeExtents.length < direct + maps then refuse 0x010B noOff s
      else
        let s1 := updArr v.arr (giveExtents vol [(1, have_, direct), (2, v.mapExt, maps)]) s
        let s2 := updVol vol (fun w => { w with size := size, mapExt := w.mapExt + maps }) s1
        done [] (volumeEvent (noteArray v.arr s2))

/-- Copy Start (0513h, R202): the unit that acts on the source opens the association; the copy's gate list is that of 0688h. -/
def mbCopyStart (x : MbCtx) (vol dstVol cred gate dst : Nat) (s : State) : State × MbRes :=
  match s.vol? vol with
  | none => refuse 0x0107 0 s
  | some v =>
    if !s.serving || (s.arr? v.arr).all Arr.offline then refuse 0x010A noOff s
    else if !(s.cfg.creds.any fun k => k.1 == cred) then refuse 0x0107 4 s
    else if s.io.copies.any (·.vol == vol) then refuse 0x0109 0 s
    else startOper x 0x0513 (ssAddr 4 vol 0) (fun op st =>
      let c : Copy := { op := op, vol := vol, dstVol := dstVol, cred := cred, gate := gate, dst := dst, todo := copyRanges v, assocSt := if st.acts v.arr then 1 else 0 }
      let s1 := putSetting 0x0688 (0x20000 + vol) gate (st.onIo fun i => { i with copies := i.copies ++ [c] })
      if st.acts v.arr then copySend 512 (.copyHello op dst) s1 else s1) s

/-- A cutover is accepted (R203): the last completed pass copied at most 1 GiB, and no final pass runs. -/
def Copy.mayCut (c : Copy) : Bool := c.lastDone && decide (c.lastBytes ≤ gib) && c.final.isNone

/-- The final pass of a copy begins (R203): new writes are held, the ranges changed so far and those left of the pass are copied within
1 s. -/
def startCutover (op : Nat) (mb : Option (Nat × Nat)) (s : State) : State :=
  match s.copy? op with
  | none => s
  | some c =>
    let todo := sortNat (c.todo ++ c.changed).eraseDups
    copyFeed op (updCopy op (fun y => { y with final := some (s.now + sec), cutTag := mb, todo := todo, changed := [] })
      (s.onIo fun i => { i with wtHold := (c.vol :: i.wtHold).eraseDups }))

/-- Copy Cutover (0514h, R203): the result follows the final pass. The partner carries it out where it acts on the volume (log 25). -/
def mbCopyCutover (x : MbCtx) (op : Nat) (s : State) : State × MbRes :=
  match s.copy? op with
  | none => refuse 0x0107 0 s
  | some c =>
    if !x.lead then done [] s
    else if !s.acts (s.arrOf c.vol) then (if s.paired then (s, { wait := true, goAhead := true }) else refuse 0x010A noOff s)
    else if !c.mayCut then refuse 0x010A noOff s
    else (startCutover op (some (x.path, x.slot)) s, { wait := true })

/-- List Map Inconsistencies (0515h, R217). -/
def mbListMap (_x : MbCtx) (vol first : Nat) (s : State) : State × MbRes :=
  match s.vol? vol with
  | none => refuse 0x0107 0 s
  | some v => done (listResult 251 first (fun (e : Nat × Nat) => bytesLE 4 e.1 ++ zeros 4 ++ bytesLE 8 e.2) v.badMap) s

end Sys2Proof.Machine
end

