-- ==== Sys2Proof/Machine/Sessions.lean ====
section
/-! DEFINITION. Ends of management sessions and of debug sessions (R436, R441, R488, R500 to R503). -/

namespace Sys2Proof.Machine

/-- Slots of a session that closes: each command runs to its end, and its result is discarded (R441). -/
def orphanSlots (p : Slot → Bool) (s : State) : State :=
  s.onMbx fun m => { m with slots := (m.slots.filter fun x => !(p x && x.ready.isSome)).map fun x => if p x then { x with orphan := true } else x }

/-- A debug hold ends: one in progress is given up; of one in force the cast-on that it put off proceeds from step 1 (R502). -/
def releaseHold (s : State) : State :=
  let s1 := (dropHold s).onDbg fun d => { d with held := none }
  if s.dbg.held.isSome && s.md.mode == .castOn then s1.onPair fun p => { p with castRetry := some (p.castRetry.getD s.now) } else s1

/-- A debug session ends (R488): the cores it halted run, its breakpoints and watchpoints are gone, a debug hold is released, and an entry is
written. -/
def endSession (s : State) : State :=
  if !s.dbg.session then s
  else
    let s1 := orphanSlots (fun x => x.path == 4) (releaseHold (resumeCores (fun c => c.halted && c.bySession) (sessionEntry s)))
    releaseHeld (s1.onDbg fun d => { d with
      session := false, chal := none, unlocked := none, wrote := [], writes := 0
      cores := d.cores.map fun c => { c with brk := [], wat := [] } })

end Sys2Proof.Machine
end

