-- ==== Sys2Proof/Machine/MbPair.lean ====
section
/-! DEFINITION. What the mailboxes of groups 06xxh to 08xxh do: gates, policy, the pair and its witness, bays and power (R363 to R371, R259,
R293, R294, R378, R393, R402, R430, R453). -/

namespace Sys2Proof.Machine

/-! ### Group 06xxh -/

/-- A gate list has a holder: a port, the drive submission, a frogging volume or a copy (R367). -/
def State.listUsed (list : Nat) (s : State) : Bool := s.cfg.set.any fun e => e.1 == 0x0688 && e.2.2 == (list : Int)

/-- The first instant base + k x cycle that is not in the past (R366). -/
def firstStart (base cycle now : Nat) : Nat := if now ≤ base then base else base + ceilDiv (now - base) cycle * cycle

/-- Write Gate List (0610h, R365, R366): TC7 is always open. A list in use changes over; one that no holder uses starts anew. -/
def mbWriteGateList (_x : MbCtx) (list base change : Nat) (entries : List Nat) (s : State) : State × MbRes :=
  let es := entries.map fun e => (e / 256, e % 128 + 128)
  let cycle := (es.map (·.1)).sum * 4
  let put := fun (g : Gate) =>
    if g.started && s.listUsed list then { g with newE := some es, newBase := base, change := change }
    else { g with started := false, newE := some es, newBase := firstStart base cycle s.time.dev, change := change }
  done [] (s.onSw fun w => { w with gates := w.gates.modify list put })

/-- Read Gate List (0611h): the running list, in the layout of the request. -/
def mbReadGateList (_x : MbCtx) (list : Nat) (s : State) : State × MbRes :=
  let g := s.sw.gates.getD list {}
  done ([list, 0] ++ bytesLE 2 g.entries.length ++ zeros 4 ++ bytesLE 8 g.base ++ bytesLE 8 g.change
    ++ g.entries.flatMap fun e => bytesLE 4 (e.1 * 256 + e.2)) s

/-- Set Policy Record (0612h, R363). -/
def mbSetPolicy (_x : MbCtx) (target idx : Nat) (p : Policy) (s : State) : State × MbRes :=
  if target == 0 then
    (if (s.principal? idx).isNone then refuse 0x0107 4 s
     else done [] (s.onCfg fun c => { c with principals := updWhere (·.idx == idx) (fun x => { x with policy := p }) c.principals }))
  else match s.assoc? idx with
    | none => refuse 0x0107 4 s
    | some a => if a.st == .halfOpen then refuse 0x0107 4 s
        else done [] (updAssoc idx (fun x => { x with policy := p, tagLimit := p.tagLimit }) s)

/-- Clear Queue Records (0613h, R371): class 0007h, one instance or all. -/
def mbClearQueues (_x : MbCtx) (cls inst : Nat) (s : State) : State × MbRes :=
  if cls != 7 then refuse 0x0107 0 s
  else if inst == allInsts then done [] (s.onSw fun w => { w with qrecs := [] })
  else if inst < 48 || (256 ≤ inst && inst < 280) then done [] (s.onSw fun w => { w with qrecs := w.qrecs.filter fun r => r.q / 8 != inst })
  else refuse 0x0107 4 s

/-! ### Group 07xxh -/

/-- The witness becomes known to a SOLO unit that acts without leases (R402). -/
def meetWitness (s : State) : State :=
  if s.md.mode == .solo && s.pair.soloNoLease && s.cfg.witAddr != 0 && s.cfg.witKey.isSome then
    queryAll (s.onPair fun p => { p with queryAt := some (s.now + sec) })
  else s

/-- Set Witness Address (0710h, R402): an address of zero clears it; in SOLO the leases are released and the unit acts without them. -/
def mbSetWitnessAddress (_x : MbCtx) (addr : Nat) (s : State) : State × MbRes :=
  if addr == 0 && s.paired then refuse 0x010A 0 s
  else if addr == 0 && s.md.mode == .solo then
    let free := (List.range 8).filter fun n => (s.lease n).held
    let s1 := free.foldl (fun st n => sendWitness n 4 (st.lease n).epoch st) s
    let s2 := s1.onPair fun p => { p with
      leases := p.leases.map fun l => { epoch := l.epoch, stored := l.stored, noClaim := l.noClaim }, soloNoLease := true, queryAt := none }
    done [] (s2.onCfg fun c => { c with witAddr := 0 })
  else done [] (meetWitness (s.onCfg fun c => { c with witAddr := addr }))

/-- Set Witness Key (0711h, R259, R402). -/
def mbSetWitnessKey (_x : MbCtx) (key : Nat) (s : State) : State × MbRes := done [] (meetWitness (s.onCfg fun c => { c with witKey := some key }))

/-- Handover (0712h, R293): the result follows the handover. The partner carries it out where it holds the array (log 25). -/
def mbHandover (x : MbCtx) (arr : Nat) (s : State) : State × MbRes :=
  if (s.arr? arr).isNone then refuse 0x0107 0 s
  else if !x.lead then done [] s
  else if !s.paired then refuse 0x010A noOff s
  else if !(s.lease arr).acting then (if (s.lease arr).marion then (s, { wait := true, goAhead := true }) else refuse 0x010A noOff s)
  else if !s.shadowed arr then refuse 0x010A noOff s
  else
    let r := startHandover arr (some (x.path, x.slot)) s
    if r.2 then (r.1, { wait := true }) else refuse 0x0109 0 s

/-- Start Proof Run (0713h, R294). -/
def mbStartProof (x : MbCtx) (s : State) : State × MbRes :=
  if !s.allShadowed then refuse 0x010A noOff s
  else if s.pair.proof.isSome then refuse 0x0109 noOff s
  else startOper x 0x0713 0 (fun op st => startProof (some op) st) s

/-- Clear No-Claim Marks (0714h, R273, R403): an ISOLATED unit without a mark and without a partner in its slot is SOLO. -/
def mbClearMarks (_x : MbCtx) (mask : Nat) (s : State) : State × MbRes :=
  let s1 := s.onPair fun p => { p with leases := p.leases.mapIdx fun n l => if bit mask n then { l with noClaim := false } else l }
  done [] (if s1.md.mode == .isolated && !s1.md.pSlot && !(s1.pair.leases.any (·.noClaim)) then enterSolo s1 else s1)

/-- Read Divergence Snapshot (0715h, R292): the bytes present of those asked for. -/
def mbReadDivergence (_x : MbCtx) (off len : Nat) (s : State) : State × MbRes :=
  done (bytesLE 8 s.pair.snapshot.length ++ (s.pair.snapshot.drop off).take len) s

/-- Pair Status (0716h). -/
def mbPairStatus (_x : MbCtx) (s : State) : State × MbRes :=
  let l := fun n => s.pair.links.getD n false
  done ([if s.md.pSlot then 1 else 0, (if l 0 then 1 else 0) + (if l 1 then 2 else 0), if s.pair.pDialect == some s.img.dialect then 1 else 0] ++ zeros 5
    ++ (List.range 8).flatMap fun n => [arrayRole n s] ++ zeros 7 ++ bytesLE 8 (s.lease n).epoch) s

/-! ### Group 08xxh -/

/-- Bay Power (0810h, R378, R384): on from OFF or LATCHED, not while BUDGET-OVER is raised; off for unassigned and refused drives. -/
def mbBayPower (_x : MbCtx) (bay action : Nat) (s : State) : State × MbRes :=
  let c := s.chan bay
  match s.drive? bay with
  | none => refuse 0x0107 0 s
  | some d =>
    if !s.powersBays then refuse 0x010A noOff s
    else if action == 1 then
      (if s.bays.budgetOver then refuse 0x010A noOff s
       else if c.st == .off || c.st == .latched then done [] (rebudget (startRamp bay (updChan bay (fun x => { x with budget := 3, remStep := 0 }) s)))
       else refuse 0x010A 0 s)
    else if d.role != .unassigned && d.role != .refused then refuse 0x010A 0 s
    else if c.live then done [] (rebudget (gateOff bay (updChan bay (fun x => { x with st := .off }) s)))
    else done [] s

/-- Removal Request (0811h, R393, R396, R454): prepare, confirm, cancel. The panel lock refuses the first two on path 5. -/
def mbRemovalRequest (x : MbCtx) (bay step : Nat) (s : State) : State × MbRes :=
  let c := s.chan bay
  if (s.drive? bay).isNone then refuse 0x0107 0 s
  else if x.path == 5 && step != 2 && s.settingN 0x0887 == 1 then refuse 0x010A noOff s
  else if step == 0 then
    (if c.remStep != 0 then refuse 0x010A noOff s
     else if s.removable bay then done [] (removalPrepare bay s)
     else (removalPrepare bay s, { code := 0x010A }))
  else if step == 1 then (if c.prep.any fun t => decide (s.now ≤ t) then done [] (removalConfirm bay s) else refuse 0x010A noOff s)
  else if c.prep.isNone && c.remStep == 0 then refuse 0x010A noOff s
  else done [] (removalCancel bay s)

/-- Locate (0812h, R392, R394). -/
def mbLocate (_x : MbCtx) (bay on : Nat) (s : State) : State × MbRes :=
  if bay == 255 then done [] (s.onBays fun b => { b with modLocate := on == 1 })
  else done [] (updChan bay (fun c => { c with locate := on == 1 }) s)

/-- Power State Request (0813h, R430 to R433): in manual mode only; the leader of a pair tells its partner by an internal record. -/
def mbPowerState (x : MbCtx) (ps : Nat) (s : State) : State × MbRes :=
  if !x.lead then done [] s
  else if s.settingN 0x0884 == 0 || !s.psMode then refuse 0x010A noOff s
  else if s.md.ps == ps && s.md.psIn == 0 then done [] s
  else if s.md.psReq.isSome && ps != 0 then refuse 0x0109 noOff s
  else if ps == 0 then done [] (exitPs (stitchPs 0 s))
  else if ps == 1 then (if s.md.ps == 0 && s.md.psIn == 0 then done [] (enterPs1 [] (stitchPs 1 s)) else refuse 0x010A noOff s)
  else (requestPs2 (some (x.path, x.slot)) s, { wait := true })

/-- Power Status (0814h, R399). -/
def mbPowerStatus (_x : MbCtx) (s : State) : State × MbRes := done (powerRecord s) s

end Sys2Proof.Machine
end

