-- ==== Sys2Proof/Machine/MbAudit.lean ====
section
/-! DEFINITION. What the mailboxes of groups 09xxh to 0Fxxh do: swatch, audit log, read-back, images, parts, time, debug control
(R425, R453 to R467, R477 to R494). -/

namespace Sys2Proof.Machine

/-! ### Groups 09xxh to 0Bxxh -/

/-- Export Swatch (0910h, R462, R463). -/
def mbExportSwatch (_x : MbCtx) (s : State) : State × MbRes :=
  done (swatchRecord s) (s.onAudit fun a => { a with swExport := some (swatchCrc s) })

/-- Write Swatch Entry (0911h, R462, R463): in MAINTENANCE, with the CRC of an export since the last write. -/
def mbWriteSwatch (_x : MbCtx) (check entry : Nat) (v : Int) (s : State) : State × MbRes :=
  if s.md.mode != .maintenance then refuse 0x010A noOff s
  else if s.audit.swExport != some check then refuse 0x010E 0 s
  else done [] (s.onAudit fun a => { a with
    swEntries := a.swEntries.set entry v, swWrites := a.swWrites + 1, swLast := s.time.dev, swOver := (entry :: a.swOver).eraseDups, swExport := none, swOk := true })

/-- Entries of a range of sequences, in order. -/
def State.entries (first last : Nat) (s : State) : List AEntry := (s.audit.log.filter fun e => decide (first ≤ e.seq) && decide (e.seq ≤ last)).reverse

/-- Read Audit Entries (0A10h): those of the range that are present. -/
def mbReadAudit (_x : MbCtx) (first n : Nat) (s : State) : State × MbRes :=
  let l := s.entries first (first + n - 1)
  done (bytesLE 4 l.length ++ zeros 4 ++ l.flatMap (·.bytes)) s

/-- Export Audit Log (0A11h, R459). -/
def mbExportAudit (x : MbCtx) (first last : Nat) (s : State) : State × MbRes :=
  if last < first || first == 0 || first < s.oldest || s.audit.next ≤ last || s.audit.log.isEmpty then refuse 0x0107 0 s
  else if s.cfg.unitKey.isNone then refuse 0x010A noOff s
  else if s.audit.exporting.isSome then refuse 0x0109 noOff s
  else startOper x 0x0A11 (ssAddr 9 0 1) (fun op st => st.onAudit fun a => { a with exporting := some (first, last, op) }) s

/-- The seal value of a last sequence (R460). -/
def sealValue (last : Nat) (s : State) : Nat :=
  Config.sha256 (bytesLE 16 s.md.serial ++ bytesLE 8 last ++ bytesLE 8 (s.chainBefore (last + 1))) % 2 ^ 256

/-- Seal Audit Log (0A12h, R460): the seal entry precedes the mailbox's own; sealed-through rises after both. -/
def mbSealAudit (x : MbCtx) (last : Nat) (s : State) : State × MbRes :=
  if last < s.audit.sealed || s.audit.exported < last then refuse 0x010A 0 s
  else
    let v := sealValue last s
    (auditPush { kind := 4, origin := x.path, principal := x.principal, obj := ssAddr 9 0 0, new := v % 2 ^ 64 } s, { payload := bytesLE 32 v, after := .raiseSeal last })

/-- Read Object (0B10h, R459, R464, R466). -/
def mbReadObject (x : MbCtx) (addr off len : Nat) (s : State) : State × MbRes :=
  if addr == ssAddr 9 0 1 && !((s.principal? x.principal).any fun p => bit p.roles 3) then refuse 0x0104 noOff s
  else match s.readRecord addr with
    | none => refuse 0x0107 0 s
    | some r => if r.length < off + len then refuse 0x0105 8 s else done ((r.drop off).take len) s

/-- Freeze (0B11h, R467). -/
def mbFreeze (_x : MbCtx) (t : Nat) (s : State) : State × MbRes :=
  if s.audit.frozen.isSome then refuse 0x0109 noOff s
  else done [] (s.onAudit fun a => { a with frozen := some (s.now + t * us, s.snapshot) })

/-- Release Freeze (0B12h, R467). -/
def mbReleaseFreeze (_x : MbCtx) (s : State) : State × MbRes :=
  if s.audit.frozen.isNone then refuse 0x010A noOff s else done [] (s.onAudit fun a => { a with frozen := none })

/-! ### Group 0Cxxh -/

/-- Nothing is staged any more. -/
def discardStaged (s : State) : State := s.onImg fun i => { i with staged := [], stagedLen := none }

/-- Stage Segment (0C10h): a segment replaces those it covers; a verified image is verified no more. -/
def mbStageSegment (_x : MbCtx) (off len ident : Nat) (s : State) : State × MbRes :=
  if s.img.verifying.isSome || s.img.act.isSome then refuse 0x0109 noOff s
  else done [] (s.onImg fun i => { i with
    staged := (off, len, ident) :: i.staged.filter fun e => !(decide (off ≤ e.1) && decide (e.1 + e.2.1 ≤ off + len)), stagedLen := none })

/-- Verify Staged Image (0C11h): its bytes must have been staged. -/
def mbVerifyImage (x : MbCtx) (len : Nat) (s : State) : State × MbRes :=
  let segs := s.img.staged.map fun e => (e.1, e.2.1)
  if s.img.verifying.isSome || s.img.act.isSome then refuse 0x0109 noOff s
  else if reachFrom segs (segs.length + 1) 0 < len then refuse 0x010A 0 s
  else startOper x 0x0C11 0 (fun op st => st.onImg fun i => { i with verifying := some (len, op), stagedLen := none }) s

/-- Activate (0C12h, R153, R298): in SOLO the drain begins; a PAIRED unit hands its arrays over first; elsewhere the unit restarts. -/
def mbActivate (x : MbCtx) (s : State) : State × MbRes :=
  if s.img.act.isSome || s.img.verifying.isSome then refuse 0x0109 noOff s
  else if s.img.stagedLen.isNone || (s.paired && !s.canHandAll) then refuse 0x010A noOff s
  else startOper x 0x0C12 unitObj (fun op st =>
    let s1 := raiseAll (fun _ => true) 2 1 3 (abortSelfTest (fun _ => true) 2 st)
    if st.paired then afterHandover (handAll .activation (s1.onImg fun i => { i with act := some (2, st.now, op) }))
    else if st.md.mode == .solo then s1.onImg fun i => { i with act := some (0, st.now + 5 * sec, op) }
    else s1.onImg fun i => { i with act := some (3, st.now + 6 * sec, op) }) s

/-- Discard Staged Image (0C13h). -/
def mbDiscardImage (_x : MbCtx) (s : State) : State × MbRes :=
  if s.img.verifying.isSome || s.img.act.isSome then refuse 0x0109 noOff s else done [] (discardStaged s)

/-! ### Group 0Dxxh -/

/-- Take Out of Service (0D10h, R477, R478). -/
def mbTakeOut (x : MbCtx) (cls inst : Nat) (s : State) : State × MbRes :=
  if !partExists cls inst then refuse 0x0107 0 s
  else if (s.part cls inst).op.isSome then refuse 0x0109 0 s
  else if !s.mayTakeOut cls inst then refuse 0x010A noOff s
  else startOper x 0x0D10 (ssAddr cls inst 0) (fun op st => takeOut cls inst op 0 st) s

/-- Return to Service (0D11h, R477). -/
def mbReturnPart (x : MbCtx) (cls inst : Nat) (s : State) : State × MbRes :=
  if !partExists cls inst then refuse 0x0107 0 s
  else if (s.part cls inst).op.isSome then refuse 0x0109 0 s
  else if !s.mayReturn cls inst then refuse 0x010A noOff s
  else startOper x 0x0D11 (ssAddr cls inst 0) (fun op st => putBack cls inst (some op) st) s

/-- Run Online Test (0D12h, R477, R483): a part in service is taken out first and returned after a pass; a part that is out or failed is tested
where it stands. -/
def mbRunTest (x : MbCtx) (cls inst code : Nat) (s : State) : State × MbRes :=
  let p := s.part cls inst
  if !partExists cls inst then refuse 0x0107 0 s
  else if p.op.isSome || p.code != 0 then refuse 0x0109 0 s
  else if p.st == 0 then
    (if s.mayTakeOut cls inst then startOper x 0x0D12 (ssAddr cls inst 0) (fun op st => takeOut cls inst op code st) s else refuse 0x010A noOff s)
  else if p.st == 2 || p.st == 3 then
    startOper x 0x0D12 (ssAddr cls inst 0) (fun op st => updPart cls inst (fun y => { y with op := some op, code := code, back := false, passed := false }) st) s
  else refuse 0x010A noOff s

/-- Engine Recall (0D13h, R473). -/
def mbEngineRecall (_x : MbCtx) (cls inst : Nat) (s : State) : State × MbRes :=
  if !recallable cls inst then refuse 0x0107 0 s
  else if 2 ≤ (s.part cls inst).st then refuse 0x010A noOff s
  else done [] (engineRecall cls inst s)

/-! ### Groups 0Exxh and 0Fxxh -/

/-- Set Time (0E10h, R425, R426): a step; the timebase is then set by hand. -/
def mbSetTime (_x : MbCtx) (t : Nat) (s : State) : State × MbRes :=
  done (bytesLE 8 s.time.dev) ((stepTime ((t : Int) - s.time.dev) s).onTime fun x => { x with st := 1, unsync := false, good := 0 })

/-- Get Time (0E11h, R427). -/
def mbGetTime (_x : MbCtx) (s : State) : State × MbRes := done (timeRecord s) s

/-- Install Unlock Key (0F10h, R493). -/
def mbInstallKey (_x : MbCtx) (idx principal key : Nat) (s : State) : State × MbRes :=
  if (s.principal? principal).isNone then refuse 0x0107 2 s
  else done [] (s.onCfg fun c => { c with unlockKeys := c.unlockKeys.set idx (some (principal, key)) })

/-- Remove Unlock Key (0F11h). -/
def mbRemoveKey (_x : MbCtx) (idx : Nat) (s : State) : State × MbRes :=
  if (s.cfg.unlockKeys.getD idx none).isNone then refuse 0x0107 0 s
  else done [] (s.onCfg fun c => { c with unlockKeys := c.unlockKeys.set idx none })

/-- Debug Port Policy (0F12h, R494): a disabled port serves no session. -/
def mbDebugPolicy (_x : MbCtx) (p : Nat) (s : State) : State × MbRes :=
  let s1 := s.onCfg fun c => { c with dbgPolicy := p }
  done [] (if p == 0 then endSession s1 else s1)

/-- Revoke Unlock (0F13h, R488): every unlocked session ends. -/
def mbRevokeUnlock (_x : MbCtx) (s : State) : State × MbRes := done [] (if s.dbg.unlocked.isSome then endSession s else s)

end Sys2Proof.Machine
end

