-- ==== Sys2Proof/Machine/Mailbox.lean ====
section
/-! DEFINITION. The mailbox fabric: checks, slots, audit, scope and results, over the handlers of the catalogue (R435 to R446, R454). -/

namespace Sys2Proof.Machine

/-! ### The command's own meaning -/

/-- What each command of the catalogue does (R453). -/
def mbRun (x : MbCtx) (c : MbCmd) (s : State) : State × MbRes :=
  match c with
  | .getSetting _ sid inst => mbGetSetting x sid inst s
  | .setSetting _ sid inst v => mbSetSetting x sid inst v s
  | .unitIdentify => mbIdentify x s
  | .getAlarms => mbGetAlarms x s
  | .clearConfigurationAlarm => mbClearAlarm x s
  | .changeMode req => mbChangeMode x req s
  | .moduleReset => mbModuleReset x s
  | .controllerReset => mbControllerReset x s
  | .operationStatus op => mbOperationStatus x op s
  | .operationCancel op => mbOperationCancel x op s
  | .setPortAddresses port addrs => mbSetPortAddresses x port addrs s
  | .writeIndirectionTable mask entries => mbWriteIndirectionTable x mask entries s
  | .writeDscpTables mask rx tx => mbWriteDscpTables x mask rx tx s
  | .associationReset id => mbAssociationReset x id s
  | .listAssociations first => mbListAssociations x first s
  | .principalCreate r => mbPrincipalCreate x r s
  | .principalModify r => mbPrincipalModify x r s
  | .principalRemove idx => mbPrincipalRemove x idx s
  | .principalList first => mbPrincipalList x first s
  | .generateUnitKey => mbGenerateUnitKey x s
  | .installUnitCertificate _ cert key => mbInstallCertificate x cert key s
  | .setOutboundCredential cred _ psk ident => mbSetCredential x cred psk ident s
  | .arrayCreate arr lay n shift bays => mbArrayCreate x arr lay n shift bays s
  | .arrayDelete arr => mbArrayDelete x arr s
  | .assignDrive bay role => mbAssignDrive x bay role s
  | .markMemberFailed arr pos => mbMarkFailed x arr pos s
  | .arrayStatus arr => mbArrayStatus x arr s
  | .listLostBlocks arr first => mbListLost x arr first s
  | .listPatrolReports arr first => mbListPatrol x arr first s
  | .importArray mask => mbImportArray x mask s
  | .volumeCreate vol arr kind flags size allot => mbVolumeCreate x vol arr kind flags size allot s
  | .volumeDelete vol => mbVolumeDelete x vol s
  | .volumeResize vol size => mbVolumeResize x vol size s
  | .copyStart vol dstVol cred gate dst => mbCopyStart x vol dstVol cred gate dst s
  | .copyCutover op => mbCopyCutover x op s
  | .listMapInconsistencies vol first => mbListMap x vol first s
  | .writeGateList list base change entries => mbWriteGateList x list base change entries s
  | .readGateList list => mbReadGateList x list s
  | .setPolicyRecord target idx p => mbSetPolicy x target idx p s
  | .clearQueueRecords cls inst => mbClearQueues x cls inst s
  | .setWitnessAddress addr => mbSetWitnessAddress x addr s
  | .setWitnessKey key => mbSetWitnessKey x key s
  | .handover arr => mbHandover x arr s
  | .startProofRun => mbStartProof x s
  | .clearNoClaimMarks mask => mbClearMarks x mask s
  | .readDivergenceSnapshot off len => mbReadDivergence x off len s
  | .pairStatus => mbPairStatus x s
  | .bayPower bay action => mbBayPower x bay action s
  | .removalRequest bay step => mbRemovalRequest x bay step s
  | .locate bay on => mbLocate x bay on s
  | .powerStateRequest ps => mbPowerState x ps s
  | .powerStatus => mbPowerStatus x s
  | .exportSwatch => mbExportSwatch x s
  | .writeSwatchEntry check entry v => mbWriteSwatch x check entry v s
  | .readAuditEntries first n => mbReadAudit x first n s
  | .exportAuditLog first last => mbExportAudit x first last s
  | .sealAuditLog last => mbSealAudit x last s
  | .readObject addr off len => mbReadObject x addr off len s
  | .freeze t => mbFreeze x t s
  | .releaseFreeze => mbReleaseFreeze x s
  | .stageSegment off len ident => mbStageSegment x off len ident s
  | .verifyStagedImage len => mbVerifyImage x len s
  | .activate => mbActivate x s
  | .discardStagedImage => mbDiscardImage x s
  | .takeOutOfService cls inst => mbTakeOut x cls inst s
  | .returnToService cls inst => mbReturnPart x cls inst s
  | .runOnlineTest cls inst code => mbRunTest x cls inst code s
  | .engineRecall cls inst => mbEngineRecall x cls inst s
  | .setTime t => mbSetTime x t s
  | .getTime => mbGetTime x s
  | .installUnlockKey idx principal key => mbInstallKey x idx principal key s
  | .removeUnlockKey idx => mbRemoveKey x idx s
  | .debugPortPolicy p => mbDebugPolicy x p s
  | .revokeUnlock => mbRevokeUnlock x s

/-! ### Objects and digests of the audit entry (R456) -/

/-- The state-space class of a setting's instances, if they are objects of the state space (R452, R464). -/
def settingObj (r : SetRow) (inst : Nat) (s : State) : Nat :=
  if inst == allInsts then 0
  else match r.inst with
    | .assoc => (s.assoc? inst).elim 0 fun a => ssAddr 2 a.ctx 0
    | .netPort => ssAddr 0x3006 inst 0
    | .array => ssAddr 3 inst 0
    | .volume => ssAddr 4 inst 0
    | .bay => ssAddr 8 inst 0
    | .none => 0
    | .profile => 0
    | .portOver => 0
    | .weight => 0
    | .holder => 0

/-- The state-space address of the object that a command concerns, 0 if none (R456, R464). -/
def State.mbObj (c : MbCmd) (s : State) : Nat :=
  match c with
  | .setSetting _ sid inst _ => (settingRow sid).elim 0 fun r => settingObj r inst s
  | .clearConfigurationAlarm => unitObj
  | .changeMode _ => unitObj
  | .moduleReset => unitObj
  | .controllerReset => unitObj
  | .setPortAddresses port _ => ssAddr 0x3006 port 0
  | .associationReset id => (s.assoc? id).elim 0 fun a => ssAddr 2 a.ctx 0
  | .arrayCreate arr _ _ _ _ => ssAddr 3 arr 0
  | .arrayDelete arr => ssAddr 3 arr 0
  | .assignDrive bay _ => ssAddr 8 bay 0
  | .markMemberFailed arr _ => ssAddr 3 arr 0
  | .volumeCreate vol _ _ _ _ _ => ssAddr 4 vol 0
  | .volumeDelete vol => ssAddr 4 vol 0
  | .volumeResize vol _ => ssAddr 4 vol 0
  | .copyStart vol _ _ _ _ => ssAddr 4 vol 0
  | .copyCutover op => (s.copy? op).elim 0 fun k => ssAddr 4 k.vol 0
  | .setPolicyRecord target idx _ => if target == 1 then (s.assoc? idx).elim 0 fun a => ssAddr 2 a.ctx 0 else 0
  | .clearQueueRecords cls inst => if inst == allInsts then 0 else ssAddr cls inst 0
  | .handover arr => ssAddr 3 arr 0
  | .bayPower bay _ => ssAddr 8 bay 0
  | .removalRequest bay _ => ssAddr 8 bay 0
  | .locate bay _ => if bay == 255 then unitObj else ssAddr 8 bay 0
  | .powerStateRequest _ => ssAddr 1 0 1
  | .writeSwatchEntry _ _ _ => ssAddr 10 0 0
  | .exportAuditLog _ _ => ssAddr 9 0 0
  | .sealAuditLog _ => ssAddr 9 0 0
  | .readObject addr _ _ => addr
  | .activate => unitObj
  | .takeOutOfService cls inst => ssAddr cls inst 0
  | .returnToService cls inst => ssAddr cls inst 0
  | .runOnlineTest cls inst _ => ssAddr cls inst 0
  | .engineRecall cls inst => ssAddr cls inst 0
  | .setTime _ => timeObj
  | _ => 0

/-- The bytes whose digest stands for the object: its record; for a setting or a principal, which have none, their payload (log 44). -/
def State.mbView (c : MbCmd) (s : State) : List Nat :=
  match c with
  | .setSetting _ sid inst _ => (settingRow sid).elim [] fun r => ((setInsts r inst s).head?).elim [] fun n => settingPayload sid inst (s.settingAt r n)
  | .principalModify r => (s.principal? r.idx).elim [] principalBytes
  | .principalRemove idx => (s.principal? idx).elim [] principalBytes
  | _ => if s.mbObj c == 0 then [] else (s.record (s.mbObj c)).getD []

/-- The digest of an audit entry, 0 where there is nothing to digest. -/
def State.mbDigest (c : MbCmd) (s : State) : Nat :=
  if !mbChanging (mbOpcode c) || (s.mbView c).isEmpty then 0 else digest8 (s.mbView c)

/-! ### Checks (R442) -/

/-- The crossings of R454 and the full audit log of R458, by path. -/
def State.mbCrossing (path : Nat) (c : MbCmd) (s : State) : Option (Nat × Nat) :=
  let op := mbOpcode c
  firstBad [
    (s.auditState != 0 && mbChanging op && decide (path < 7) && op != 0x0A11 && op != 0x0A12, 0x010B, noOff),
    ((s.bays.hold.isSome || !s.md.mains) && path != 7, 0x010A, noOff),
    (s.md.mode == .solo && s.img.act.isSome && op != 0x0110 && op != 0x0111 && op != 0x0116, 0x0109, noOff)]

/-- Unit B of a pair proposes a command of scope S to unit A (R445). -/
def State.proposes (c : MbCmd) (s : State) : Bool := s.inStep && s.md.slot == 1 && mbShelf c

/-- Checks 6 to 8 that do not belong to one command. -/
def State.mbLate (path : Nat) (c : MbCmd) (fieldsOk : Bool) (s : State) : Option (Nat × Nat) :=
  if !fieldsOk then some (0x0106, noOff)
  else (mbBad c s).or (s.mbCrossing path c)

/-- Checks 3 to 8 of a frame, the code and the offset of the first failure (R442). A unit that proposes makes checks 1 to 6 (R445). -/
def State.mbCheck (path principal : Nat) (cmd : Option MbCmd) (fieldsOk : Bool) (s : State) : Option (Nat × Nat) :=
  match cmd with
  | none => some (0x0102, noOff)
  | some c =>
    if !s.pathOk path principal cmd then some (0x0103, noOff)
    else if !s.roleOk path principal c then some (0x0104, noOff)
    else if s.proposes c then (if !fieldsOk then some (0x0106, noOff) else ((mbBad c s).filter fun e => e.1 == 0x0106).or (s.mbCrossing path c))
    else s.mbLate path c fieldsOk

/-- The array that a command of scope S concerns, if one (R445). -/
def State.mbArray (c : MbCmd) (s : State) : Option Nat :=
  let ofVol := fun (v : Nat) => (s.vol? v).map (·.arr)
  match c with
  | .setSetting _ sid inst _ => (settingRow sid).bind fun r => match r.inst with
    | .array => some inst
    | .volume => ofVol inst
    | _ => none
  | .arrayDelete arr => some arr
  | .markMemberFailed arr _ => some arr
  | .arrayStatus arr => some arr
  | .listLostBlocks arr _ => some arr
  | .listPatrolReports arr _ => some arr
  | .volumeCreate _ arr _ _ _ _ => some arr
  | .volumeDelete vol => ofVol vol
  | .volumeResize vol _ => ofVol vol
  | .copyStart vol _ _ _ _ => ofVol vol
  | .copyCutover op => (s.copy? op).bind fun k => ofVol k.vol
  | .listMapInconsistencies vol _ => ofVol vol
  | .handover arr => some arr
  | _ => none

/-! ### Results -/

/-- A frame is audited: a changing command always, any other only when it is refused at check 3, 4 or 5 (R443). -/
def mbAudited (op code : Nat) : Bool := mbChanging op || code == 0x0102 || code == 0x0103 || code == 0x0104

/-- What follows a result. -/
def afterResult (a : MbAfter) (s : State) : State :=
  match a with
  | .none => s
  | .moduleReset => if s.md.mode == .powerStandby then s
      else if s.paired && s.canHandAll then afterHandover (handAll .moduleReset s) else moduleReset s
  | .raiseSeal last => s.onAudit fun u => { u with sealed := last, lastSeal := s.time.dev }

/-- The end of a mailbox: its audit entry, its SETTING stitch, its result frame (R441, R443, R445). -/
def mbFinish (x : Slot) (r : MbRes) (s : State) : State :=
  let payload := if 2 ≤ r.code then bytesLE 4 r.off else r.payload
  let s1 := if mbAudited x.opcode r.code then auditPush (slotEntry x r.code) s else s
  let seq := auditSeqOf s s1
  let s2 := if s.stitching && (x.shelf || x.path == 3) then stitchResult x r.code seq payload s1 else s1
  afterResult r.after (putResult x r.code seq payload s2)

/-- The slot that a mailbox holds while it executes. -/
def State.slot? (path slot : Nat) (s : State) : Option Slot := s.mbx.slots.find? fun y => y.path == path && y.slot == slot

/-- Update one slot. -/
def updSlot (path slot : Nat) (f : Slot → Slot) (s : State) : State :=
  s.onMbx fun m => { m with slots := updWhere (fun y => y.path == path && y.slot == slot) f m.slots }

/-- A mailbox executes in its slot: the result follows at once, or when what it waits for has come (R441, R453). -/
def mbExecute (path slot : Nat) (c : MbCmd) (lead : Bool) (op : Option Nat) (s : State) : State :=
  match s.slot? path slot with
  | none => s
  | some x =>
    let x1 := { x with obj := s.mbObj c, old := s.mbDigest c }
    let r := mbRun { path := path, slot := slot, principal := x.principal, force := x.force, lead := lead, op := op } c (updSlot path slot (fun _ => x1) s)
    let new := r.1.mbDigest c
    if r.2.wait || r.2.await != (0, 0) || !r.2.dcs.isEmpty then
      let s1 := settleSlots (updSlot path slot (fun y => { y with new := new, await := r.2.await, dcs := r.2.dcs }) r.1)
      if r.2.goAhead then stitchResult { x1 with new := new } 1 0 [] s1 else s1
    else mbFinish { x1 with new := new } r.2 r.1

/-! ### Receipt -/

/-- Unit B passes a command of scope S to unit A (R445). -/
def proposeCmd (x : Slot) (s : State) : State :=
  (issueStitch 21 255 0 0 [0, 1, x.path, x.principal, x.opcode, x.tag, x.slot] s).onPair fun p => { p with
    proposals := p.proposals ++ [(x.path, x.slot, x.opcode)] }

/-- A command that has passed its checks goes where its scope sends it (R445). -/
def mbRoute (x : Slot) (c : MbCmd) (s : State) : State :=
  let here := fun (st : State) => mbExecute x.path x.slot c true none st
  if !mbShelf c then here s
  else if s.paired && !s.inStep then
    (if (s.mbArray c).any fun n => !(s.lease n).acting then mbFinish x { code := 0x010D } s else here s)
  else if s.proposes c then proposeCmd x s
  else here (updSlot x.path x.slot (fun y => { y with shelf := s.stitching }) s)

/-- A frame that is no mailbox is counted; on the management network and in band its result frame is returned (R442). -/
def mbCounted (path slot tag opcode code : Nat) (s : State) : State :=
  let out : MbOut := { path := path, slot := slot, tag := tag, opcode := opcode, code := code, payload := bytesLE 4 noOff }
  s.onMbx fun m => { m with bad := m.bad.modify path (· + 1), results := if path == 1 || path == 6 then m.results ++ [out] else m.results }

/-- A frame of the given slot record is received (R441, R442). -/
def mbReceive (x : Slot) (cmd : Option MbCmd) (fieldsOk : Bool) (s : State) : State :=
  if (s.slot? x.path x.slot).isSome then mbCounted x.path x.slot x.tag x.opcode 0x0101 s
  else
    let s1 := s.onMbx fun m => { m with slots := m.slots ++ [x] }
    match s.mbCheck x.path x.principal cmd fieldsOk, cmd with
    | some (code, off), _ => mbFinish { x with obj := cmd.elim 0 fun c => s.mbObj c } { code := code, off := off } s1
    | none, some c => mbRoute x c s1
    | none, none => s1

/-- The lowest free slot of a path. -/
def State.freeSlotOf (path : Nat) (s : State) : Option Nat := (List.range 16).find? fun k => (s.slot? path k).isNone

/-- The principal of a frame on a path, if the path carries frames now (R435, R436, R492). -/
def State.mbPrincipal (f : MbF) (s : State) : Option Nat :=
  match f.path with
  | 1 => (s.mbx.sessions.find? fun e => e.id == f.session).map (·.principal)
  | 2 => some 2
  | 4 => s.dbg.unlocked.map (·.2)
  | 5 => some 1
  | 6 => some f.principal
  | 7 => some 0
  | _ => none

/-- A mailbox frame arrives from outside (R435, R436, R442): a management session counts it against its idle time. -/
def mbPost (f : MbF) (opcode : Nat) (cmd : Option MbCmd) (s : State) : State :=
  if !s.md.powered || !s.md.svcReady then s
  else match s.mbPrincipal f with
    | none => s
    | some p =>
      let s1 := if f.path == 1 then s.onMbx fun m => { m with sessions := updWhere (fun e => e.id == f.session) (fun e => { e with idleAt := s.now + 600 * sec }) m.sessions } else s
      mbReceive { path := f.path, slot := f.slot, tag := f.tag, opcode := opcode, principal := p, session := f.session, force := f.force } cmd f.fieldsOk s1

/-- A mailbox of the catalogue arrives. -/
def mailbox (f : MbF) (c : MbCmd) (s : State) : State := mbPost f (mbOpcode c) (some c) s

end Sys2Proof.Machine
end

