-- ==== Sys2Proof/Machine/MbRows.lean ====
section
/-! DEFINITION. The mailbox rows: every command of the catalogue, refused frames, sessions, in-band mailboxes, and what ends later
(R124, R153, R435 to R454, R459, R467). -/

namespace Sys2Proof.Machine

/-! ### Refused frames and sessions -/

/-- MAILBOX_BAD_FRAME (R442): a frame that fails check 1, or names a slot that its carrier does not (check 2). -/
def execMailboxBadFrame (path slot tag opcode session : Nat) (slotFault : Bool) (s : State) : Host.Outcome State Fault Refusal :=
  .next (
    if !s.md.powered || !s.md.svcReady || path == 0 || path == 3 || 6 < path then s
    else if path == 1 && !(s.mbx.sessions.any fun e => e.id == session) then s
    else mbCounted path slot tag opcode (if slotFault then 0x0101 else 0x0100) s)

/-- MAILBOX_UNKNOWN_OPCODE (R442, R453): an opcode that the catalogue does not list ends with 0102h. -/
def execMailboxUnknownOpcode (f : MbF) (opcode : Nat) (s : State) : Host.Outcome State Fault Refusal :=
  .next (mbPost f opcode none s)

/-- The result frame of a slot has been sent or read: the slot is free (R441). -/
def takeResult (path slot : Nat) (s : State) : State :=
  match s.slot? path slot with
  | none => s
  | some x => match x.ready with
    | none => s
    | some (code, seq, payload) =>
      let out : MbOut := { path := path, slot := slot, tag := x.tag, opcode := x.opcode, code := code, auditSeq := seq, payload := payload }
      freeSlot path slot (s.onMbx fun m => { m with results := m.results ++ [out] })

/-- SERVICE_BUS_RESULT_READ (R436, R441): the slot's result frame is read, which frees the slot; while none is ready nothing changes. -/
def execServiceBusResultRead (slot : Nat) (s : State) : Host.Outcome State Fault Refusal :=
  .next (takeResult 2 slot s)

/-- MANAGEMENT_SESSION_OPEN (R435, R436): the handshake has authenticated a principal, or none. A fifth session is refused. -/
def execManagementSessionOpen (principal : Option Nat) (s : State) : Host.Outcome State Fault Refusal :=
  .next (match principal with
    | none => s
    | some p =>
      if !s.md.fw || (s.principal? p).isNone then s
      else match (List.range 4).find? fun k => !(s.mbx.sessions.any fun e => e.id == k) with
        | none => s
        | some k => s.onMbx fun m => { m with sessions := m.sessions ++ [{ id := k, principal := p, idleAt := s.now + 600 * sec }] })

/-- A management session closes: its commands run to their end, their results are discarded (R441). -/
def closeSession (k : Nat) (s : State) : State :=
  (orphanSlots (fun x => x.path == 1 && x.session == k) s).onMbx fun m => { m with sessions := m.sessions.filter fun e => e.id != k }

/-- MANAGEMENT_SESSION_CLOSE (R441). -/
def execManagementSessionClose (session : Nat) (s : State) : Host.Outcome State Fault Refusal :=
  .next (closeSession session s)

/-- SESSION_IDLE_TIMEOUT (R436): 600 s without a frame. -/
def execSessionIdleTimeout (session : Nat) (s : State) : Host.Outcome State Fault Refusal :=
  .next (match s.mbx.sessions.find? fun e => e.id == session with
    | none => s
    | some e => whenDue (some e.idleAt) (closeSession session) s)

/-! ### In-band mailboxes (R124, R436) -/

/-- The result frame of a mailbox, header and payload (R439). -/
def resultFrame (x : Slot) (code seq : Nat) (payload : List Nat) : List Nat :=
  let head := [0x4B, 0x59, 0x4D, 0x42, 1, 1 + (if x.force then 2 else 0)] ++ bytesLE 2 x.opcode ++ bytesLE 4 x.tag ++ bytesLE 2 payload.length
    ++ [x.path, x.slot] ++ bytesLE 2 code ++ zeros 2 ++ bytesLE 8 seq
  head ++ bytesLE 4 (crc32c (head ++ payload)) ++ payload

/-- The result of an in-band mailbox, once ready, is placed in the host window, and its slot is free (R124, R441). -/
def placeResult (c : Cmd) (x : Slot) (s : State) : State :=
  match x.ready with
  | none => s
  | some (code, seq, payload) =>
    let bytes := resultFrame x code seq payload
    placeAdmin c bytes.length bytes (freeSlot x.path x.slot s)

/-- The slot that an in-band mailbox holds. -/
def State.inbandSlot (id row : Nat) (s : State) : Option Slot := s.mbx.slots.find? fun y => y.inband == some (id, row)

/-- An in-band frame that is no mailbox, or that found no slot (R436, R442). -/
def placeRefusal (c : Cmd) (f : MbFrame) (code : Nat) (s : State) : State :=
  let x : Slot := { path := 6, slot := f.slot, tag := f.tag, opcode := f.opcode, force := f.force, ready := some (code, 0, bytesLE 4 noOff) }
  let bytes := resultFrame x code 0 (bytesLE 4 noOff)
  placeAdmin c bytes.length bytes (s.onMbx fun m => { m with bad := m.bad.modify 6 (· + 1), waitSlot := m.waitSlot.filter fun w => !(w.1 == c.assoc && w.2.1 == c.row) })

/-- The frame of a Vendor Mailbox Passthrough is posted to a free slot of the path, or waits up to 1 s for one (R436). -/
def postInband (a : Assoc) (c : Cmd) (f : MbFrame) (s : State) : State :=
  if !f.ok then placeRefusal c f 0x0100 s
  else match s.freeSlotOf 6 with
    | none => if s.mbx.waitSlot.any fun w => w.1 == c.assoc && w.2.1 == c.row then s
        else s.onMbx fun m => { m with waitSlot := m.waitSlot ++ [(c.assoc, c.row, s.now + sec)] }
    | some k =>
      let x : Slot := { path := 6, slot := k, tag := f.tag, opcode := f.opcode, principal := a.principal, inband := some (c.assoc, c.row), force := f.force }
      let s1 := s.onMbx fun m => { m with waitSlot := m.waitSlot.filter fun w => !(w.1 == c.assoc && w.2.1 == c.row) }
      let s2 := mbReceive x f.cmd f.fieldsOk (updCmd c.assoc c.row (fun y => { y with dispatched := true }) s1)
      match s2.inbandSlot c.assoc c.row, s2.cmd? c.assoc c.row with
      | some y, some c1 => placeResult c1 y s2
      | _, _ => s2

/-- In-band results whose command has ended otherwise are discarded. -/
def dropStale (s : State) : State :=
  s.onMbx fun m => { m with
    slots := m.slots.filter fun x => !(x.ready.isSome && x.inband.any fun k => (s.cmd? k.1 k.2).isNone)
    waitSlot := m.waitSlot.filter fun w => (s.cmd? w.1 w.2.1).isSome }

/-- VENDOR_MAILBOX_PASSTHROUGH (R124, R436): the first execution posts the frame; once its result is ready, an execution places it. In a pair
the responding unit executes it and the other waits for DELIVERED. -/
def execVendorMailboxPassthrough (assoc row : Nat) (s : State) : Host.Outcome State Fault Refusal :=
  .next (match s.inbandSlot assoc row, s.cmd? assoc row with
    | some x, some c => placeResult c x s
    | _, _ => match s.adminReady assoc row 0xC1 with
      | none => s
      | some (a, c) =>
        if s.inStep && !a.responding then updCmd assoc row (fun k => { k with st := .waiting }) s
        else match c.frame with
          | none => s
          | some f => postInband a c f (dropStale s))

/-- INBAND_SLOT_WAIT_EXPIRY (R436): no slot freed within 1 s. -/
def execInbandSlotWaitExpiry (assoc row : Nat) (s : State) : Host.Outcome State Fault Refusal :=
  .next (match s.mbx.waitSlot.find? fun w => w.1 == assoc && w.2.1 == row, s.cmd? assoc row with
    | some w, some c => whenDue (some w.2.2) (fun st => match c.frame with
        | none => st
        | some f => placeRefusal c f 0x0101 st) s
    | _, _ => s)

/-! ### What ends later -/

/-- FREEZE_EXPIRY (R467). -/
def execFreezeExpiry (s : State) : Host.Outcome State Fault Refusal :=
  .next (whenDue (s.audit.frozen.map (·.1)) (fun st => st.onAudit fun a => { a with frozen := none }) s)

/-- STAGED_IMAGE_VERIFY_END (R453): a bad signature ends the operation with 010Eh. -/
def execStagedImageVerifyEnd (ok : Bool) (version dialect : Nat) (s : State) : Host.Outcome State Fault Refusal :=
  .next (match s.img.verifying with
    | none => s
    | some (len, op) =>
      if ok then endOper op 1 0 (s.onImg fun i => { i with verifying := none, stagedLen := some len, stagedVer := version, stagedDia := dialect })
      else endOper op 2 0x010E (s.onImg fun i => { i with verifying := none }))

/-- AUDIT_EXPORT_END (R459, R461): the image replaces the previous one; exported-through rises where the export joins it. -/
def execAuditExportEnd (s : State) : Host.Outcome State Fault Refusal :=
  .next (match s.audit.exporting with
    | none => s
    | some (first, last, op) =>
      endOper op 1 0 (s.onAudit fun a => { a with
        exporting := none, image := some (first, last, s.chainBefore first, s.time.dev, s.entries first last)
        exported := if first ≤ a.exported + 1 then max a.exported last else a.exported }))

/-- ACTIVATION_DRAIN_END (R153): no command is dispatched any more; arriving commands are held for at most 800 ms. -/
def execActivationDrainEnd (s : State) : Host.Outcome State Fault Refusal :=
  .next (match s.img.act with
    | some (0, _, op) => if s.io.cmds.any (·.dispatched) then s else s.onImg fun i => { i with act := some (1, s.now + 800 * ms, op) }
    | _ => s)

/-- ACTIVATION_DRAIN_TIMEOUT (R153): not drained within 5 s, the activation is abandoned and held commands are released. -/
def execActivationDrainTimeout (s : State) : Host.Outcome State Fault Refusal :=
  .next (match s.img.act with
    | some (0, t, _) => whenDue (some t) (fun st => releaseHeld (dropActivation st)) s
    | _ => s)

/-- ACTIVATION_RESTART_COMPLETE (R153, R298): the new image runs. In SOLO held commands go on; a unit of a pair, which holds no array, casts
on. -/
def execActivationRestartComplete (s : State) : Host.Outcome State Fault Refusal :=
  .next (match s.img.act with
    | some (phase, _, op) =>
      if phase != 1 && phase != 3 then s
      else
        let s1 := endOper op 1 0 (s.onImg fun i => { i with
          active := i.stagedVer, dialect := i.stagedDia, staged := [], stagedLen := none, act := none })
        if phase == 1 then releaseHeld s1
        else if s1.paired then enterCastOn ((dropHosts s1).onPair fun p => { p with stitches := [] })
        else s1
    | none => s)

/-- LEDGER_HEADER_WRITE_TIMER (R246). -/
def execLedgerHeaderWriteTimer (arr : Nat) (s : State) : Host.Outcome State Fault Refusal :=
  .next (match s.arr? arr with
    | none => s
    | some a => whenDue a.hdrAt (ledgerNow arr) s)

/-! ### The catalogue (R453) -/

/-- GET_SETTING (R451). -/
def execGetSetting (f : MbF) (grp sid inst : Nat) (s : State) : Host.Outcome State Fault Refusal :=
  .next (mailbox f (.getSetting grp sid inst) s)

/-- SET_SETTING (R451). -/
def execSetSetting (f : MbF) (grp sid inst : Nat) (val : Int) (s : State) : Host.Outcome State Fault Refusal :=
  .next (mailbox f (.setSetting grp sid inst val) s)

/-- UNIT_IDENTIFY (R453). -/
def execUnitIdentify (f : MbF) (s : State) : Host.Outcome State Fault Refusal :=
  .next (mailbox f .unitIdentify s)

/-- GET_ALARMS (R453). -/
def execGetAlarms (f : MbF) (s : State) : Host.Outcome State Fault Refusal :=
  .next (mailbox f .getAlarms s)

/-- CLEAR_CONFIGURATION_ALARM (R414). -/
def execClearConfigurationAlarm (f : MbF) (s : State) : Host.Outcome State Fault Refusal :=
  .next (mailbox f .clearConfigurationAlarm s)

/-- CHANGE_MODE (R403). -/
def execChangeMode (f : MbF) (req : Nat) (s : State) : Host.Outcome State Fault Refusal :=
  .next (mailbox f (.changeMode req) s)

/-- MODULE_RESET (R409). -/
def execModuleReset (f : MbF) (s : State) : Host.Outcome State Fault Refusal :=
  .next (mailbox f .moduleReset s)

/-- CONTROLLER_RESET (R412). -/
def execControllerReset (f : MbF) (s : State) : Host.Outcome State Fault Refusal :=
  .next (mailbox f .controllerReset s)

/-- OPERATION_STATUS (R444). -/
def execOperationStatus (f : MbF) (op : Nat) (s : State) : Host.Outcome State Fault Refusal :=
  .next (mailbox f (.operationStatus op) s)

/-- OPERATION_CANCEL (R453). -/
def execOperationCancel (f : MbF) (op : Nat) (s : State) : Host.Outcome State Fault Refusal :=
  .next (mailbox f (.operationCancel op) s)

/-- SET_PORT_ADDRESSES (R330). -/
def execSetPortAddresses (f : MbF) (port : Nat) (addrs : List Nat) (s : State) : Host.Outcome State Fault Refusal :=
  .next (mailbox f (.setPortAddresses port addrs) s)

/-- WRITE_INDIRECTION_TABLE (R341). -/
def execWriteIndirectionTable (f : MbF) (mask : Nat) (entries : List Nat) (s : State) : Host.Outcome State Fault Refusal :=
  .next (mailbox f (.writeIndirectionTable mask entries) s)

/-- WRITE_DSCP_TABLES (R346). -/
def execWriteDscpTables (f : MbF) (mask : Nat) (rx tx : List Nat) (s : State) : Host.Outcome State Fault Refusal :=
  .next (mailbox f (.writeDscpTables mask rx tx) s)

/-- ASSOCIATION_RESET (R152). -/
def execAssociationReset (f : MbF) (assoc : Nat) (s : State) : Host.Outcome State Fault Refusal :=
  .next (mailbox f (.associationReset assoc) s)

/-- LIST_ASSOCIATIONS (R453). -/
def execListAssociations (f : MbF) (first : Nat) (s : State) : Host.Outcome State Fault Refusal :=
  .next (mailbox f (.listAssociations first) s)

/-- PRINCIPAL_CREATE (R449). -/
def execPrincipalCreate (f : MbF) (r : PrincRec) (s : State) : Host.Outcome State Fault Refusal :=
  .next (mailbox f (.principalCreate r) s)

/-- PRINCIPAL_MODIFY (R449). -/
def execPrincipalModify (f : MbF) (r : PrincRec) (s : State) : Host.Outcome State Fault Refusal :=
  .next (mailbox f (.principalModify r) s)

/-- PRINCIPAL_REMOVE (R449). -/
def execPrincipalRemove (f : MbF) (idx : Nat) (s : State) : Host.Outcome State Fault Refusal :=
  .next (mailbox f (.principalRemove idx) s)

/-- PRINCIPAL_LIST (R453). -/
def execPrincipalList (f : MbF) (first : Nat) (s : State) : Host.Outcome State Fault Refusal :=
  .next (mailbox f (.principalList first) s)

/-- GENERATE_UNIT_KEY (R453). -/
def execGenerateUnitKey (f : MbF) (s : State) : Host.Outcome State Fault Refusal :=
  .next (mailbox f .generateUnitKey s)

/-- INSTALL_UNIT_CERTIFICATE (R453). -/
def execInstallUnitCertificate (f : MbF) (len : Nat) (cert key : Nat) (s : State) : Host.Outcome State Fault Refusal :=
  .next (mailbox f (.installUnitCertificate len cert key) s)

/-- SET_OUTBOUND_CREDENTIAL (R453). -/
def execSetOutboundCredential (f : MbF) (cred len psk ident : Nat) (s : State) : Host.Outcome State Fault Refusal :=
  .next (mailbox f (.setOutboundCredential cred len psk ident) s)

/-- ARRAY_CREATE (R453). -/
def execArrayCreate (f : MbF) (arr lay n shift : Nat) (bays : List Nat) (s : State) : Host.Outcome State Fault Refusal :=
  .next (mailbox f (.arrayCreate arr lay n shift bays) s)

/-- ARRAY_DELETE (R453). -/
def execArrayDelete (f : MbF) (arr : Nat) (s : State) : Host.Outcome State Fault Refusal :=
  .next (mailbox f (.arrayDelete arr) s)

/-- ASSIGN_DRIVE (R164). -/
def execAssignDrive (f : MbF) (bay role : Nat) (s : State) : Host.Outcome State Fault Refusal :=
  .next (mailbox f (.assignDrive bay role) s)

/-- MARK_MEMBER_FAILED (R186). -/
def execMarkMemberFailed (f : MbF) (arr pos : Nat) (s : State) : Host.Outcome State Fault Refusal :=
  .next (mailbox f (.markMemberFailed arr pos) s)

/-- ARRAY_STATUS (R453). -/
def execArrayStatus (f : MbF) (arr : Nat) (s : State) : Host.Outcome State Fault Refusal :=
  .next (mailbox f (.arrayStatus arr) s)

/-- LIST_LOST_BLOCKS (R194). -/
def execListLostBlocks (f : MbF) (arr first : Nat) (s : State) : Host.Outcome State Fault Refusal :=
  .next (mailbox f (.listLostBlocks arr first) s)

/-- LIST_PATROL_REPORTS (R199). -/
def execListPatrolReports (f : MbF) (arr first : Nat) (s : State) : Host.Outcome State Fault Refusal :=
  .next (mailbox f (.listPatrolReports arr first) s)

/-- IMPORT_ARRAY (R201). -/
def execImportArray (f : MbF) (mask : Nat) (s : State) : Host.Outcome State Fault Refusal :=
  .next (mailbox f (.importArray mask) s)

/-- VOLUME_CREATE (R206). -/
def execVolumeCreate (f : MbF) (vol arr kind flags size allot : Nat) (s : State) : Host.Outcome State Fault Refusal :=
  .next (mailbox f (.volumeCreate vol arr kind flags size allot) s)

/-- VOLUME_DELETE (R453). -/
def execVolumeDelete (f : MbF) (vol : Nat) (s : State) : Host.Outcome State Fault Refusal :=
  .next (mailbox f (.volumeDelete vol) s)

/-- VOLUME_RESIZE (R173). -/
def execVolumeResize (f : MbF) (vol size : Nat) (s : State) : Host.Outcome State Fault Refusal :=
  .next (mailbox f (.volumeResize vol size) s)

/-- COPY_START (R202). -/
def execCopyStart (f : MbF) (vol dstVol cred gate dst : Nat) (s : State) : Host.Outcome State Fault Refusal :=
  .next (mailbox f (.copyStart vol dstVol cred gate dst) s)

/-- COPY_CUTOVER (R203). -/
def execCopyCutover (f : MbF) (op : Nat) (s : State) : Host.Outcome State Fault Refusal :=
  .next (mailbox f (.copyCutover op) s)

/-- LIST_MAP_INCONSISTENCIES (R217). -/
def execListMapInconsistencies (f : MbF) (vol first : Nat) (s : State) : Host.Outcome State Fault Refusal :=
  .next (mailbox f (.listMapInconsistencies vol first) s)

/-- WRITE_GATE_LIST (R366). -/
def execWriteGateList (f : MbF) (list base change : Nat) (entries : List Nat) (s : State) : Host.Outcome State Fault Refusal :=
  .next (mailbox f (.writeGateList list base change entries) s)

/-- READ_GATE_LIST (R453). -/
def execReadGateList (f : MbF) (list : Nat) (s : State) : Host.Outcome State Fault Refusal :=
  .next (mailbox f (.readGateList list) s)

/-- SET_POLICY_RECORD (R363). -/
def execSetPolicyRecord (f : MbF) (target idx : Nat) (p : Policy) (s : State) : Host.Outcome State Fault Refusal :=
  .next (mailbox f (.setPolicyRecord target idx p) s)

/-- CLEAR_QUEUE_RECORDS (R371). -/
def execClearQueueRecords (f : MbF) (cls inst : Nat) (s : State) : Host.Outcome State Fault Refusal :=
  .next (mailbox f (.clearQueueRecords cls inst) s)

/-- SET_WITNESS_ADDRESS (R402). -/
def execSetWitnessAddress (f : MbF) (addr : Nat) (s : State) : Host.Outcome State Fault Refusal :=
  .next (mailbox f (.setWitnessAddress addr) s)

/-- SET_WITNESS_KEY (R259). -/
def execSetWitnessKey (f : MbF) (key : Nat) (s : State) : Host.Outcome State Fault Refusal :=
  .next (mailbox f (.setWitnessKey key) s)

/-- HANDOVER (R293). -/
def execHandover (f : MbF) (arr : Nat) (s : State) : Host.Outcome State Fault Refusal :=
  .next (mailbox f (.handover arr) s)

/-- START_PROOF_RUN (R294). -/
def execStartProofRun (f : MbF) (s : State) : Host.Outcome State Fault Refusal :=
  .next (mailbox f .startProofRun s)

/-- CLEAR_NO_CLAIM_MARKS (R273). -/
def execClearNoClaimMarks (f : MbF) (mask : Nat) (s : State) : Host.Outcome State Fault Refusal :=
  .next (mailbox f (.clearNoClaimMarks mask) s)

/-- READ_DIVERGENCE_SNAPSHOT (R292). -/
def execReadDivergenceSnapshot (f : MbF) (off len : Nat) (s : State) : Host.Outcome State Fault Refusal :=
  .next (mailbox f (.readDivergenceSnapshot off len) s)

/-- PAIR_STATUS (R453). -/
def execPairStatus (f : MbF) (s : State) : Host.Outcome State Fault Refusal :=
  .next (mailbox f .pairStatus s)

/-- BAY_POWER (R378). -/
def execBayPower (f : MbF) (bay action : Nat) (s : State) : Host.Outcome State Fault Refusal :=
  .next (mailbox f (.bayPower bay action) s)

/-- REMOVAL_REQUEST (R393). -/
def execRemovalRequest (f : MbF) (bay step : Nat) (s : State) : Host.Outcome State Fault Refusal :=
  .next (mailbox f (.removalRequest bay step) s)

/-- LOCATE (R392). -/
def execLocate (f : MbF) (bay on : Nat) (s : State) : Host.Outcome State Fault Refusal :=
  .next (mailbox f (.locate bay on) s)

/-- POWER_STATE_REQUEST (R430). -/
def execPowerStateRequest (f : MbF) (ps : Nat) (s : State) : Host.Outcome State Fault Refusal :=
  .next (mailbox f (.powerStateRequest ps) s)

/-- POWER_STATUS (R399). -/
def execPowerStatus (f : MbF) (s : State) : Host.Outcome State Fault Refusal :=
  .next (mailbox f .powerStatus s)

/-- EXPORT_SWATCH (R462). -/
def execExportSwatch (f : MbF) (s : State) : Host.Outcome State Fault Refusal :=
  .next (mailbox f .exportSwatch s)

/-- WRITE_SWATCH_ENTRY (R463). -/
def execWriteSwatchEntry (f : MbF) (check entry : Nat) (val : Int) (s : State) : Host.Outcome State Fault Refusal :=
  .next (mailbox f (.writeSwatchEntry check entry val) s)

/-- READ_AUDIT_ENTRIES (R453). -/
def execReadAuditEntries (f : MbF) (first n : Nat) (s : State) : Host.Outcome State Fault Refusal :=
  .next (mailbox f (.readAuditEntries first n) s)

/-- EXPORT_AUDIT_LOG (R459). -/
def execExportAuditLog (f : MbF) (first last : Nat) (s : State) : Host.Outcome State Fault Refusal :=
  .next (mailbox f (.exportAuditLog first last) s)

/-- SEAL_AUDIT_LOG (R460). -/
def execSealAuditLog (f : MbF) (last : Nat) (s : State) : Host.Outcome State Fault Refusal :=
  .next (mailbox f (.sealAuditLog last) s)

/-- READ_OBJECT (R466). -/
def execReadObject (f : MbF) (addr off len : Nat) (s : State) : Host.Outcome State Fault Refusal :=
  .next (mailbox f (.readObject addr off len) s)

/-- FREEZE (R467). -/
def execFreeze (f : MbF) (us : Nat) (s : State) : Host.Outcome State Fault Refusal :=
  .next (mailbox f (.freeze us) s)

/-- RELEASE_FREEZE (R467). -/
def execReleaseFreeze (f : MbF) (s : State) : Host.Outcome State Fault Refusal :=
  .next (mailbox f .releaseFreeze s)

/-- STAGE_SEGMENT (R453). -/
def execStageSegment (f : MbF) (off : Nat) (len ident : Nat) (s : State) : Host.Outcome State Fault Refusal :=
  .next (mailbox f (.stageSegment off len ident) s)

/-- VERIFY_STAGED_IMAGE (R453). -/
def execVerifyStagedImage (f : MbF) (len : Nat) (s : State) : Host.Outcome State Fault Refusal :=
  .next (mailbox f (.verifyStagedImage len) s)

/-- ACTIVATE (R153). -/
def execActivate (f : MbF) (s : State) : Host.Outcome State Fault Refusal :=
  .next (mailbox f .activate s)

/-- DISCARD_STAGED_IMAGE (R453). -/
def execDiscardStagedImage (f : MbF) (s : State) : Host.Outcome State Fault Refusal :=
  .next (mailbox f .discardStagedImage s)

/-- TAKE_OUT_OF_SERVICE (R477). -/
def execTakeOutOfService (f : MbF) (cls inst : Nat) (s : State) : Host.Outcome State Fault Refusal :=
  .next (mailbox f (.takeOutOfService cls inst) s)

/-- RETURN_TO_SERVICE (R477). -/
def execReturnToService (f : MbF) (cls inst : Nat) (s : State) : Host.Outcome State Fault Refusal :=
  .next (mailbox f (.returnToService cls inst) s)

/-- RUN_ONLINE_TEST (R483). -/
def execRunOnlineTest (f : MbF) (cls inst code : Nat) (s : State) : Host.Outcome State Fault Refusal :=
  .next (mailbox f (.runOnlineTest cls inst code) s)

/-- ENGINE_RECALL (R473). -/
def execEngineRecall (f : MbF) (cls inst : Nat) (s : State) : Host.Outcome State Fault Refusal :=
  .next (mailbox f (.engineRecall cls inst) s)

/-- SET_TIME (R425). -/
def execSetTime (f : MbF) (t : Nat) (s : State) : Host.Outcome State Fault Refusal :=
  .next (mailbox f (.setTime t) s)

/-- GET_TIME (R427). -/
def execGetTime (f : MbF) (s : State) : Host.Outcome State Fault Refusal :=
  .next (mailbox f .getTime s)

/-- INSTALL_UNLOCK_KEY (R493). -/
def execInstallUnlockKey (f : MbF) (idx principal key : Nat) (s : State) : Host.Outcome State Fault Refusal :=
  .next (mailbox f (.installUnlockKey idx principal key) s)

/-- REMOVE_UNLOCK_KEY (R453). -/
def execRemoveUnlockKey (f : MbF) (idx : Nat) (s : State) : Host.Outcome State Fault Refusal :=
  .next (mailbox f (.removeUnlockKey idx) s)

/-- DEBUG_PORT_POLICY (R494). -/
def execDebugPortPolicy (f : MbF) (p : Nat) (s : State) : Host.Outcome State Fault Refusal :=
  .next (mailbox f (.debugPortPolicy p) s)

/-- REVOKE_UNLOCK (R488). -/
def execRevokeUnlock (f : MbF) (s : State) : Host.Outcome State Fault Refusal :=
  .next (mailbox f .revokeUnlock s)

end Sys2Proof.Machine
end

