-- ==== Sys2Proof/Machine/Panel.lean ====
section
/-! DEFINITION. The front panel: bay buttons, the service key, the display (R392 to R396). Every action is a mailbox of origin code 5. -/

namespace Sys2Proof.Machine

/-- The module posts the frame of a gesture in the next slot of the panel (R396, R436). -/
def panelPost (c : MbCmd) (s : State) : State :=
  mailbox { path := 5, slot := s.bays.panelSlot } c (s.onBays fun b => { b with panelSlot := (b.panelSlot + 1) % 16 })

/-- The display lights up for 60 s (R395). -/
def lightUp (s : State) : State := s.onBays fun b => { b with lightAt := some (s.now + 60 * sec) }

/-- BAY_BUTTON_PRESS (R393): at the responsible unit a first press prepares a removal; one within 5 s of the preparation confirms it. -/
def execBayButtonPress (bay : Nat) (s : State) : Host.Outcome State Fault Refusal :=
  if 24 ≤ bay then .fault .noSuchBay
  else .next (
    if !s.responsible bay then s
    else panelPost (.removalRequest bay (if (s.chan bay).prep.any fun t => decide (s.now ≤ t) then 1 else 0)) s)

/-- BAY_BUTTON_HELD (R393): a press that lasts 3 s cancels. -/
def execBayButtonHeld (bay : Nat) (s : State) : Host.Outcome State Fault Refusal :=
  if 24 ≤ bay then .fault .noSuchBay
  else .next (if s.responsible bay then panelPost (.removalRequest bay 2) s else s)

/-- SERVICE_KEY_TOUCH (R394, R395): the next page of the display. -/
def execServiceKeyTouch (s : State) : Host.Outcome State Fault Refusal :=
  .next (if s.md.powered then lightUp (s.onBays fun b => { b with page := (b.page + 1) % 5 }) else s)

/-- SERVICE_KEY_HOLD (R394): held 3 s and released before 10 s: start from POWER-STANDBY, else the module locate toggles. -/
def execServiceKeyHold (s : State) : Host.Outcome State Fault Refusal :=
  .next (
    if !s.md.powered then s
    else if s.md.mode == .powerStandby then panelPost (.changeMode 0) (lightUp s)
    else panelPost (.locate 255 (if s.bays.modLocate then 0 else 1)) (lightUp s))

/-- SERVICE_KEY_LONG_HOLD (R394): held 10 s: module reset. -/
def execServiceKeyLongHold (s : State) : Host.Outcome State Fault Refusal :=
  .next (if s.md.powered then panelPost .moduleReset (lightUp s) else s)

/-- BACKLIGHT_TIMEOUT (R395): 60 s without a touch or a new alarm. -/
def execBacklightTimeout (s : State) : Host.Outcome State Fault Refusal :=
  .next (whenDue s.bays.lightAt (fun st => st.onBays fun b => { b with lightAt := none }) s)

end Sys2Proof.Machine
end

