-- ==== Sys2Proof/Machine/Replay.lean ====
section
/-! DEFINITION. What each stitch of the partner does at the unit that replays it (R278 to R281, R284 to R288, R445, R446). -/

namespace Sys2Proof.Machine

/-! ### Commands in step (kinds 1, 13, 14, 18) -/

/-- The row of an association has been completed. -/
def Assoc.ended (row : Nat) (a : Assoc) : Bool := decide (row < a.floor) || a.doneRows.contains row

/-- The record of a replayed command: the unit's own host copy, or a record that waits for one (R281, R284, R285). -/
def shadowCmd (a : Assoc) (num row qid cid opcode lane source nsid blocks slba : Nat) (s : State) : Cmd :=
  let q : Sqe := { opcode := opcode, cid := cid, nsid := nsid, qid := qid, cdw10 := slba % 2 ^ 32, cdw11 := slba / 2 ^ 32, cdw12 := blocks - 1 }
  let fresh : Cmd := { assoc := a.id, row := row, sqe := q, source := source, t := s.now, cp := s.pickCp lane, hostCopy := false
                       sqHead := (assocGet qid a.sqHead).getD 0, noResp := a.tcp && !a.responding }
  let c := (s.cmd? a.id row).getD fresh
  let flush := !c.admin && c.sqe.opcode == 0x00
  { c with
    ordered := true, tag := false, arrival := none, lane := lane, relStitch := num, dispatched := false, twinHold := none
    twinWait := if c.hostCopy || !s.inStep then none else some (s.now + s.settingN 0x0783 * us)
    st := if c.admin then .accepted else .waiting
    covered := if flush then s.flushCover c else [], defErr := if flush then carriedError a c else none }

/-- A command that the partner cancelled at a closing window or zone is counted in the revocation (R96, R97). -/
def countCancelled (a : Assoc) (c : Cmd) (s : State) : State :=
  if zoneWrite a c then
    updAssoc a.id (fun x => { x with zone := x.zone.map fun (z : Zone) => { z with cancelled := z.cancelled + 1, held := z.held.filter (·.row != c.row) } }) s
  else updAssoc a.id (fun x => { x with windows := updWhere (fun w => w.key == c.key && w.closing) (fun w => { w with cancelled := w.cancelled + 1 }) x.windows }) s

/-- The status that an ARRIVAL's disposition gives a command (R279). -/
def dispStatus (disp status : Nat) : Nat :=
  match disp with
  | 1 => scTags
  | 2 => scQueueDepth
  | 3 => scInternal
  | 4 => scZoneBusy
  | 5 => scWindowRevoked
  | _ => status

/-- ARRIVAL (R279, R281, R284 to R286): the command of a row is ordered; any disposition but 0 completes it. -/
def playArrival (h : StHdr) (row qid cid opcode lane disp source nsid blocks slba status : Nat) (s : State) : State :=
  match s.assoc? h.assoc with
  | none => s
  | some a =>
    if a.ended row then s
    else
      let had := (s.cmd? a.id row).any (·.ordered)
      let c := shadowCmd a h.num row qid cid opcode lane source nsid blocks slba s
      let count := ((assocGet c.sqe.qid a.sqHead).getD 0 + 1) % 1024
      let c1 := if had then c else { c with sqHead := count }
      let s1 := if (s.cmd? a.id row).isSome then updCmd a.id row (fun _ => c1) s else s.onIo fun i => { i with cmds := i.cmds ++ [c1] }
      let s2 := if had then s1 else updAssoc a.id (fun x => { x with sqHead := assocSet c.sqe.qid count x.sqHead }) s1
      let sc := dispStatus disp status
      if disp == 0 then confirmWrite a.id row s2
      else
        let s3 := if zoneWrite a c1 then dropPush a.id row s2 else s2
        if disp == 5 then finish a.id row sc 0 0 false (countCancelled a c1 s3)
        else if sc == scDeferred then
          match carriedError a c1 with
          | some e => finish a.id row sc (e % 2 ^ 32) (e / 2 ^ 32) true
              (updAssoc a.id (fun x => { x with deferred := x.deferred.filter (·.2 != e) }) s3)
          | none => finish a.id row sc 0 0 true s3
        else if sc == scWindowViolation then
          match if c1.hostCopy then accessReason a c1 s else none with
          | some r => finish a.id row sc 0 0 false (cmdViolation c1 r s3)
          | none => finish a.id row sc 0 0 false s3
        else finish a.id row sc 0 0 false s3

/-- ABORT (R150, R152, R153): 0 completed first, 1 aborted, 2 ended by a reset, 3 a reset begins, 4 not found. -/
def playAbort (h : StHdr) (row kind abortRow : Nat) (s : State) : State :=
  if kind == 3 then resetContext h.assoc (resetCommands h.assoc false s)
  else if row == abortRow then finish h.assoc row scOk (if kind == 1 then 0 else if kind == 0 then 3 else 1) 0 false s
  else finish h.assoc row (if kind == 2 then scReset else scAborted) 0 0 false s

/-- DELIVERED (R94, R287): a read's final status. -/
def playDelivered (h : StHdr) (row status : Nat) (s : State) : State := finish h.assoc row status 0 0 (status == scInternal) s

/-- ZONE (R86): the partner's grant is applied, or its refusal. -/
def playZone (h : StHdr) (row key mib : Nat) (s : State) : State :=
  if mib == 0 then finish h.assoc row scZonePool 0 0 false s
  else finish h.assoc row scOk mib 0 false (updAssoc h.assoc (grantZone key mib) s)

/-! ### Drives, plans and members (kinds 2, 4 to 8) -/

/-- A drive write of a planned row has ended at the holder; with its last one the row's data are on media (R133, R280). -/
def drainStep (dc : Nat) (s : State) (a : Arr) : State :=
  match a.drains.find? fun d => d.writes.contains dc with
  | none => s
  | some d =>
    let left := d.writes.filter (· != dc)
    let rest := if left.isEmpty then a.drains.filter (· != d) else updWhere (· == d) (fun y => { y with writes := left }) a.drains
    let s1 := updArr a.no (fun x => { x with drains := rest }) s
    if left.isEmpty then cleanOrders d.orders s1 else s1

/-- DRIVE (R280, R286): bay 255 records the completion of a row; a drive result of a planned row takes it toward media. -/
def playDrive (h : StHdr) (row dc bay outcome status : Nat) (s : State) : State :=
  if row != 0 && bay == 255 then
    match s.cmd? h.assoc row with
    | none => s
    | some c =>
      let sc := if outcome == 0 then scOk else status
      let e := if sc == scDeferred then c.defErr.getD 0 else 0
      let s1 := if sc == scDeferred then updAssoc h.assoc (fun x => { x with deferred := x.deferred.filter (·.2 != e) }) s else s
      finish h.assoc row sc (e % 2 ^ 32) (e / 2 ^ 32) (sc == scDeferred || loggedStatus sc) s1
  else if row == 0 && (outcome == 0 || outcome == 2 || outcome == 3) then
    settleMedia (s.io.arrs.foldl (fun st a => if (s.lease a.no).acting then st else drainStep dc st a) s)
  else s

/-- WRITE-PLAN (R178, R278): the dirty data of a row, as this unit buffers them, are on their way to the media. -/
def playWritePlan (h : StHdr) (row vol method engine : Nat) (dcs : List (Nat × Nat)) (s : State) : State :=
  match s.arr? h.arr, s.vol? vol with
  | some a, some v =>
    let blks := s.rowBlocks a v row
    let d : Drain := { row := row, vol := vol, blks := blks.map fun x => (x.2.1, x.2.2.1, x.2.2.2, x.1.blk), orders := blks.map fun x => x.1.order
                       methods := [(0, method)], writes := dcs.map (·.1), issued := true, par := engine }
    updArr h.arr (fun x => { x with drains := x.drains ++ [d] }) s
  | _, _ => s

/-- BITMAP (R180, R181, R185): this unit's copy of the dirty-region bitmap, in HBM and in its vault. -/
def playBitmap (h : StHdr) (isSet : Bool) (regions : List Nat) (s : State) : State :=
  updArr h.arr (fun a =>
    if isSet then { a with
      bits := (a.bits ++ regions).eraseDups, bitsVault := (a.bitsVault ++ regions).eraseDups
      pos := a.pos.map fun p => { p with absence := p.absence.map fun l => (l ++ regions).eraseDups } }
    else { a with bits := a.bits.filter (!regions.contains ·), bitsVault := a.bitsVault.filter (!regions.contains ·) }) s

/-- A position as a MEMBER stitch leaves it: its departure generation and absence bitmap are those the holder takes (R187, R188). -/
def memberPos (a : Arr) (st : MemberState) (gen bay serial : Nat) (x : Pos) : Pos :=
  match st with
  | .absent =>
    let kept := (a.pos.filter fun q => q.absence.isSome).length
    { x with
      st := .absent, bay := 255, depGen := gen - 1, slot := if kept < 3 then a.freeSlot else 0
      absence := if kept < 3 then some (sortNat (a.bits ++ a.resync).eraseDups) else none }
  | .failed => { x with st := .failed, bay := 255, absence := none, slot := 0, graceAt := none }
  | .inSync => { x with st := .inSync, bay := bay, serial := serial, absence := none, slot := 0, graceAt := none }
  | .rebuilding => { x with st := .rebuilding, bay := bay, serial := serial, graceAt := none }
  | .resyncing => { x with st := .resyncing, bay := bay, serial := serial, graceAt := none }

/-- MEMBER (R182, R186 to R190): a position's state, the generation and the keepers are the holder's; progress that the position leaves
or starts follows. -/
def playMember (h : StHdr) (pos : Nat) (st : MemberState) (gen bay : Nat) (keepers : List Nat) (s : State) : State :=
  match s.arr? h.arr with
  | none => s
  | some a =>
    let x := a.pos.getD pos {}
    let serial := (s.drive? bay).elim x.serial (·.serial)
    let live := fun (k : Nat) => a.keepers.any fun y => y.pos == k && y.live
    let ks : List Keeper := keepers.map fun k => { pos := k, live := live k }
    let s1 := updArr h.arr (fun y => { dropProgress pos y with
      pos := y.pos.modify pos (memberPos a st gen bay serial), gen := gen, keepers := ks, sbSeq := y.sbSeq + 1
      resync := if st == .resyncing then (y.resync ++ x.absence.getD []).eraseDups else y.resync
      resyncTgt := if st == .resyncing then (pos :: y.resyncTgt).eraseDups else y.resyncTgt.filter (· != pos) }) s
    let s2 := if st == .rebuilding then joinRebuild h.arr pos s1 else s1
    let s3 := if memberGone st then updDrive x.bay (fun d => { d with role := .unassigned }) s2 else updDrive bay (fun d => { d with role := .member }) s2
    markLabels h.arr (fwEvent 0x10 (pos + memberCode st * 256) (ssAddr 3 h.arr 0) s3)

/-- LOST (R193, R248): blocks enter the lost-block list; one loss makes one entry of the audit log and one event. -/
def playLost (h : StHdr) (row pos reason first cnt time : Nat) (s : State) : State :=
  match s.arr? h.arr with
  | none => s
  | some a =>
    let known := a.lost.any fun l => l.row == row && l.reason == reason && l.time == time
    let s1 := (List.range cnt).foldl (fun st k => updArr h.arr (lose row pos (first + k) reason time) st) s
    if known then s1
    else raiseAll (fun x => x.seenVols.contains (a.rowVol row)) 7 2 0xC2 (fwEvent 0x01 (reason + pos * 256) (ssAddr 3 h.arr 0) s1)

/-- PATROL (R197, R199): a repair or a report enters the array's records. -/
def playPatrol (h : StHdr) (row blk mask : Nat) (reported : Bool) (s : State) : State :=
  let rep : PatrolRep := { row := row, blk := blk, mask := mask, reported := reported, time := h.time }
  let q := ((List.range 24).find? fun k => bit mask k).getD 0
  fwEvent (if reported then 0x07 else 0x06) (if reported then 0 else q) (ssAddr 3 h.arr 0)
    (updArr h.arr (fun a => { a with
      patrolRep := a.patrolRep ++ [rep], repairs := a.repairs + (if reported then 0 else 1), reports := a.reports + (if reported then 1 else 0) }) s)

/-! ### Packed volumes (kinds 9 to 12) -/

/-- Journal records of the holder are remembered with their block numbers; the holder writes them (R226, R249). -/
def noteJournal (arr : Nat) (recs : List JRec) (s : State) : State :=
  (inBlocks recs.length recs).foldl (fun st l => updArr arr (fun a => { a with
    jSeq := a.jSeq + 1, jRecs := a.jRecs ++ l.map fun r => { r with blk := a.jSeq } }) st) s

/-- A skein that the holder writes for the first time is open here too, and the one it follows is closed (R230). -/
def openSkeinAs (arr vol skein : Nat) (frog : Bool) (s : State) : State :=
  let state : SkeinState := if frog then .openFrog else .openHost
  match s.arr? arr with
  | none => s
  | some a =>
    if (a.ext.getD skein {}).skein == state && (a.ext.getD skein {}).role == 3 then s
    else
      let seq := (s.vol? vol).elim 0 (·.skSeq) + 1
      let close := fun (e : Ext) => if e.owner == vol && e.role == 3 && e.skein == state then { e with skein := .closed, closedAt := s.now, closedDev := s.time.dev, trailer := true } else e
      let s1 := updArr arr (fun x => { x with ext := x.ext.map close }) s
      updVol vol (fun w => { w with skSeq := seq })
        (updExt arr skein (fun e => { e with
                                   owner := vol, role := 3, skein := state, fill := 1, live := 0, seq := seq, index2 := [], trailer := false,
                                   opened := s.time.dev, openGen := a.gen, frogOpen := frog }) s1)

/-- ROW (R224, R226): chunks are placed in a skein row with the dirty data that this unit holds of them. -/
def playRow (h : StHdr) (vol skein row : Nat) (chunks : List (Nat × Nat × Nat × Nat)) (s : State) : State :=
  match s.vol? vol with
  | none => s
  | some v =>
    let frog := v.frog.isSome && chunks.all fun c => some (entryFields (v.entry c.1)).1 == v.frog
    let asm := chunks.map fun c => ({
      chunk := c.1, skein := skein, gran := c.2.1, cnt := c.2.2.1, engine := c.2.2.2, t := s.now, frog := if frog then some (v.entry c.1) else none
      orders := if frog then [] else s.chunkOrders v c.1 } : Asm)
    let fill := chunks.foldl (fun m c => max m (c.2.1 + c.2.2.1)) 1
    let s1 := updExt h.arr skein (fun e => { e with fill := max e.fill fill }) (openSkeinAs h.arr vol skein frog s)
    updVol vol (fun w => { w with rows := w.rows ++ [{ skein := skein, row := row, chunks := asm, frog := frog }] }) s1

/-- COMMIT (R225, R226, R249, R254): map entries and versions change, and the dirty data of the row are clean. -/
def playCommit (h : StHdr) (vol skein row : Nat) (entries : List (Nat × Nat × Nat)) (s : State) : State :=
  match s.vol? vol with
  | none => s
  | some v =>
    let w := v.rows.find? fun r => r.skein == skein && r.row == row
    let ords := match w with
      | some r => r.chunks.flatMap (·.orders)
      | none => if skein == 65535 then entries.flatMap fun e => s.chunkOrders v e.1 else []
    let recs : List JRec := entries.map fun e => { kind := 1, vol := vol, chunk := e.1, value := e.2.1, version := e.2.2 }
    let one := fun (st : State) (e : Nat × Nat × Nat) =>
      let s1 := if e.2.1 == 0 || (entryFields e.2.1).1 != skein then st else updExt h.arr skein (fun x => { x with index2 := x.index2 ++ [e] }) st
      updVol vol (fun x => { x with version := max x.version e.2.2 }) (setEntry vol e.1 e.2.1 s1)
    let s1 := entries.foldl one (noteJournal h.arr recs (updVol vol (fun x => { x with rows := x.rows.filter fun r => !(r.skein == skein && r.row == row) }) s))
    settleMedia (cleanOrders ords s1)

/-- CHECKPOINT (R220, R250): a checkpoint begins or ends at the holder. -/
def playCheckpoint (h : StHdr) (n : Nat) (isEnd : Bool) (s : State) : State :=
  let mine := fun (p : MapPage) => s.arrOf p.vol == h.arr
  if isEnd then
    let s1 := s.onIo fun i => { i with pages := updWhere (fun p => p.ck && mine p) (fun p => { p with ck := false, dirty := false }) i.pages }
    updArr h.arr (fun a =>
      let q := a.ckptRun.getD a.replay
      { a with ckpt := n, replay := q, ckptRun := none, jRecs := a.jRecs.filter fun r => decide (q ≤ r.blk) })
      (noteJournal h.arr [{ kind := 3, value := n }] s1)
  else
    noteJournal h.arr [{ kind := 2, value := n }]
      ((updArr h.arr (fun a => { a with ckptRun := some a.jSeq, ckptAt := s.now }) s).onIo fun i => { i with
        pages := updWhere (fun p => p.dirty && mine p) (fun p => { p with ck := true }) i.pages })

/-- FROG (R230 to R233): 1 a skein is chosen, 2 a chunk moves, 3 a skein is freed. -/
def playFrog (h : StHdr) (vol kind skein : Nat) (s : State) : State :=
  match kind with
  | 1 => updVol vol (fun w => { w with frog := some skein, frogLast := (s.arr? h.arr).elim 0 fun a => (a.ext.getD skein {}).index2.length })
      (updExt h.arr skein (fun x => { x with skein := .frogging }) s)
  | 3 => updVol vol (fun w => { w with frog := none, frogLast := 0 })
      (updExt h.arr skein (fun e => { e with role := 4, skein := .reserved, fill := 1, live := 0, index2 := [], trailer := false }) s)
  | _ => s

/-! ### Timers, deferred errors, associations (kinds 3, 15 to 17, 19) -/

/-- TIMER (R278, R281): code 4 is a KATO expiry, whose timer stops here too; the effects of the others come in stitches of their own. -/
def playTimer (code obj : Nat) (s : State) : State := if code == 4 then updAssoc obj (fun a => { a with katoAt := none }) s else s

/-- DEFERRED (R137, R138): the deferred write error is recorded at both units. -/
def playDeferred (h : StHdr) (lba nsid cnt row cause : Nat) (s : State) : State :=
  recordDwe (nsid - 1) lba cnt h.assoc row cause (((s.io.wb.find? fun b => b.vol == nsid - 1 && b.lba == lba && b.dirty).map (·.order))) true s

/-- The context of an association of the partner (R53, R67, R160): it is live here from its ASSOC stitch on, or suspended where a cast-on
copied it (R297). -/
def partnerAssoc (id : Nat) (c : AssocCtx) (tcp : Bool) (st : AssocState) (s : State) : Assoc :=
  { id := id, src := c.src, udpPort := c.udpPort, net := c.net, st := st, ctx := s.newCtx, overflow := decide (4 ≤ s.inBucket (bucketOf c.src id))
    responding := false, tcp := tcp, principal := c.principal, authMode := c.auth, twinCap := c.twinCap, maxPayload := c.maxPayload
    singleSided := tcp, created := s.now, rto := s.settingN 0x0280 * us, ackDelay := s.settingN 0x0281 * us, pktsPerAck := s.settingN 0x0282
    gapDelay := s.settingN 0x0283 * us, keepalive := s.settingN 0x0284 * ms, resumeWin := s.settingN 0x0285 * sec
    phaseTime := s.settingN 0x0286 * 3600 * sec, txPhaseAt := s.now, lastAct := s.now, suspAt := s.now, policy := c.policy, tagLimit := c.tagLimit
    meter := meterNew c.policy s.now, shaper := { credit := 0, t := s.now } }

/-- ASSOC (R53, R67, R68, R288): 1 created, 2 resumed at the partner, 3 released. -/
def playAssoc (h : StHdr) (kind : Nat) (c : AssocCtx) (s : State) : State :=
  match kind, s.assoc? h.assoc with
  | 1, none => s.onIo fun i => { i with assocs := i.assocs ++ [partnerAssoc h.assoc c (c.udpPort == 0) .live s] }
  | 2, some a =>
    let s1 := updAssoc h.assoc (fun x => { x with partnerSuspended := false, missSince := none, missCount := 0 }) s
    if a.singleSided && a.st == .live && !a.tcp then
      issueStitch 17 255 h.assoc 0 [3] (updAssoc h.assoc (fun x => { x with singleSided := false }) s1)
    else s1
  | 3, some _ => releaseAssoc h.assoc s
  | _, _ => s

/-- ASSOC-STATE (R66, R288): 1 the partner has suspended the association, so it is single-sided here; 2 and 3 single-sided operation began
or ended at the partner. -/
def playAssocState (h : StHdr) (kind : Nat) (s : State) : State :=
  match kind, s.assoc? h.assoc with
  | 1, some a =>
    let s1 := updAssoc h.assoc (fun x => { x with partnerSuspended := true }) s
    if a.st != .live || a.singleSided then s1
    else
      let s2 := issueStitch 17 255 h.assoc 0 [2] (updAssoc h.assoc (fun x => { x with singleSided := true }) s1)
      (s2.io.cmds.filter fun c => c.assoc == h.assoc && c.twinHold.isSome).foldl (fun st c =>
        forwardCmd h.assoc c.row (tryOrder h.assoc c.row (updCmd h.assoc c.row (fun k => { k with twinHold := none }) st))) s2
  | 2, some _ => updAssoc h.assoc (fun x => { x with singleSided := true }) s
  | 3, some _ => updAssoc h.assoc (fun x => { x with singleSided := false }) s
  | _, _ => s

/-! ### Leases and copies (kinds 20, 22) -/

/-- LEASE (R269, R289, R293): the holder's epoch and flag; the successor of a handover acts from here on, once it has its GRANT. -/
def playLease (h : StHdr) (epoch : Nat) (shadowed : Bool) (successor : Nat) (s : State) : State :=
  let l := s.lease h.arr
  if successor == s.md.slot then
    (if l.held then gainLease h.arr l.epoch s.inStep l.ts l.dur s else updLease h.arr (fun x => { x with claimed := true, marion := true }) s)
  else if l.acting then s
  else updLease h.arr (fun x => { x with
    epoch := epoch, marion := shadowed, stored := if shadowed then 2 else 0, witHolder := 1 - s.md.slot, claimed := false }) s

/-- COPY (R203, R204): a range or a pass is complete at the holder, or, with pass 0, the copy is over (log 23). -/
def playCopy (op pass range : Nat) (s : State) : State :=
  if pass == 0 then
    match s.copy? op with
    | none => s
    | some c => endOper op (if range == 0 then 1 else 2) range (s.onIo fun i => { i with
        copies := i.copies.filter (·.op != op), wtHold := i.wtHold.filter (· != c.vol) })
  else if range == 0xFFFFFFFF then
    updCopy op (fun x => { x with pass := pass + 1, lastBytes := x.bytes, lastDone := true, bytes := 0, todo := sortNat x.changed, changed := [] }) s
  else updCopy op (fun x => { x with pass := pass, todo := x.todo.filter (· != range), last := some range, bytes := x.bytes + 1048576 }) s

/-! ### Settings (kind 21, R445, R446) -/

/-- A proposal of the partner at unit A: checks 5 to 8, execution, and a result stitch (R445). -/
def playProposal (h : StHdr) (path principal : Nat) (f : MbFrame) (s : State) : State :=
  match f.cmd with
  | none => s
  | some c =>
    let x : Slot := { path := 3, slot := h.num, tag := f.tag, opcode := f.opcode, principal := principal, force := f.force, shelf := true
                      recv := path, recvSlot := f.slot, obj := s.mbObj c }
    let s1 := s.onMbx fun m => { m with slots := m.slots ++ [x] }
    match if s.roleOk path principal c then s.mbLate path c f.fieldsOk else some (0x0104, noOff) with
    | some (code, off) => mbFinish x { code := code, off := off } s1
    | none => mbExecute 3 h.num c true none s1

/-- This unit's own slot that a result stitch answers: one it executes for the partner, or its own. -/
def State.stitchSlot (path : Nat) (f : MbFrame) (s : State) : Option Slot :=
  s.mbx.slots.find? fun y => y.tag == f.tag && y.opcode == f.opcode && y.ready.isNone
    && (if y.path == 3 then y.recv == path && y.recvSlot == f.slot else y.path == path && y.slot == f.slot)

/-- The payload of a result that this unit sends for the setting leader's (R439, R444). -/
def leaderPayload (opcode code value : Nat) (own : List Nat) : List Nat :=
  if 2 ≤ code then bytesLE 4 value else if code == 1 || opcode == 0x0E10 then bytesLE 8 value else own

/-- The result of the setting leader is applied here: the command runs as a follower's, and its audit entry follows; a command that this
unit proposed is answered (R445). A Set Time steps by the leader's amount (R426). -/
def applyResult (x : Slot) (mine : Bool) (c : MbCmd) (code value : Nat) (s : State) : State :=
  let c1 := match c with
    | .setTime t => .setTime ((s.time.dev : Int) + t - value).toNat
    | k => k
  let x1 := { x with obj := s.mbObj c, old := s.mbDigest c }
  let ctx : MbCtx := { path := x.path, slot := x.slot, principal := x.principal, force := x.force, lead := false, op := if code == 1 then some value else none }
  let r := if 2 ≤ code then (s, ({} : MbRes)) else mbRun ctx c1 s
  let x2 := { x1 with new := r.1.mbDigest c }
  let s1 := if mbAudited x.opcode code then auditPush (slotEntry x2 code) r.1 else r.1
  if mine then
    (putResult x2 code (auditSeqOf r.1 s1) (leaderPayload x.opcode code value r.2.payload) s1).onPair fun p => { p with
      proposals := p.proposals.filter (· != (x.path, x.slot, x.opcode)) }
  else s1

/-- A result stitch (R445): a PTP step of the leader; the go-ahead of a command that this unit is to carry out (log 25); the end of one that
the partner carried out; or a command to apply. -/
def playResult (h : StHdr) (path principal : Nat) (f : MbFrame) (code value : Nat) (s : State) : State :=
  if path == 7 && f.opcode == 0x0E10 then
    auditPush { kind := 1, origin := 3, opcode := 0x0E10, obj := timeObj } (stepTime ((value : Int) - h.time) s)
  else
    let slot := s.stitchSlot path f
    let mine := slot.isSome && s.pair.proposals.contains (path, f.slot, f.opcode)
    let fresh : Slot := { path := 3, slot := h.num, tag := f.tag, opcode := f.opcode, principal := principal, force := f.force, recv := path, recvSlot := f.slot }
    match f.cmd with
    | none => s
    | some c =>
      if code == 1 && (f.opcode == 0x0712 || f.opcode == 0x0514) then
        match mine, slot with
        | true, some x => mbExecute x.path x.slot c true none ((updSlot x.path x.slot (fun y => { y with shelf := true }) s).onPair fun p => { p with
            proposals := p.proposals.filter (· != (x.path, x.slot, x.opcode)) })
        | _, _ => mbExecute 3 h.num c true none (s.onMbx fun m => { m with slots := m.slots ++ [fresh] })
      else match mine, slot with
        | false, some x =>
          let s1 := auditPush (slotEntry x code) s
          putResult x code (auditSeqOf s s1) (if 2 ≤ code then bytesLE 4 value else []) s1
        | true, some x => applyResult x true c code value s
        | _, none => applyResult fresh false c code value s

/-- An internal record (R446): 1 the partner's drive budget (R383), 2 a power-state change (R433). -/
def playInternal (kind value : Nat) (s : State) : State :=
  if kind == 1 then
    let s1 := s.onPair fun p => { p with pBudget := some value }
    newBudget (s1.jointBudget s1.bays.drvBudget) s1
  else match value with
    | 0 => if s.md.ps == 0 && s.md.psIn == 0 then s else exitPs s
    | 1 => if s.md.ps == 0 && s.md.psIn == 0 then enterPs1 [] s else s
    | _ => if s.md.ps == 2 || s.md.psIn != 0 then s else beginPs2 s

/-- SETTING (R445, R446). -/
def playSetting (h : StHdr) (proposal internal : Bool) (path principal : Nat) (f : MbFrame) (code kind value : Nat) (s : State) : State :=
  if internal then playInternal kind value s
  else if proposal then (if s.md.slot == 0 then playProposal h path principal f s else s)
  else playResult h path principal f code value s

end Sys2Proof.Machine
end

