-- ==== Sys2Proof/Machine/Stitches.lean ====
section
/-! DEFINITION. The stitch stream of the partner: order, acknowledgement, time, lag and digests, and the 22 rows that bring a stitch
(R276, R277, R281 to R283, R291, R296, R426). -/

namespace Sys2Proof.Machine

/-! ### Any stitch -/

/-- The header of a stitch command. -/
def stitchHdr (i : Instr) : Option StHdr :=
  match i with
  | .arrivalStitch h .. => some h
  | .driveStitch h .. => some h
  | .timerStitch h .. => some h
  | .writePlanStitch h .. => some h
  | .bitmapStitch h .. => some h
  | .memberStitch h .. => some h
  | .lostStitch h .. => some h
  | .patrolStitch h .. => some h
  | .rowStitch h .. => some h
  | .commitStitch h .. => some h
  | .checkpointStitch h .. => some h
  | .frogStitch h .. => some h
  | .abortStitch h .. => some h
  | .deliveredStitch h .. => some h
  | .deferredStitch h .. => some h
  | .assocStitch h .. => some h
  | .assocStateStitch h .. => some h
  | .zoneStitch h .. => some h
  | .violationStitch h .. => some h
  | .leaseStitch h .. => some h
  | .settingStitch h .. => some h
  | .copyStitch h .. => some h
  | _ => none

/-- The class of objects that a stitch changes, as a cast-on copies them: 0 associations, values and leases, 1 arrays, members and copies,
2 maps, 3 commands and dirty data (R296). -/
def stitchCls (i : Instr) : Nat :=
  match i with
  | .assocStitch .. => 0
  | .assocStateStitch .. => 0
  | .violationStitch .. => 0
  | .leaseStitch .. => 0
  | .settingStitch .. => 0
  | .bitmapStitch .. => 1
  | .memberStitch .. => 1
  | .lostStitch .. => 1
  | .patrolStitch .. => 1
  | .copyStitch .. => 1
  | .rowStitch .. => 2
  | .commitStitch .. => 2
  | .checkpointStitch .. => 2
  | .frogStitch .. => 2
  | _ => 3

/-- What a stitch does when it is replayed; a stitch of an array that this unit itself acts on changes nothing (R258, R281). -/
def playStitch (i : Instr) (s : State) : State :=
  let own := (stitchHdr i).any fun h => decide (h.arr < 8) && (s.lease h.arr).acting
  if own then s
  else match i with
  | .arrivalStitch h row qid cid opcode lane disp source nsid blocks slba status =>
    playArrival h row qid cid opcode lane disp source nsid blocks slba status s
  | .driveStitch h row dc bay outcome status _ => playDrive h row dc bay outcome status s
  | .timerStitch _ code obj => playTimer code obj s
  | .writePlanStitch h row vol method engine dcs => playWritePlan h row vol method engine dcs s
  | .bitmapStitch h isSet regions => playBitmap h isSet regions s
  | .memberStitch h pos st gen bay keepers => playMember h pos st gen bay keepers s
  | .lostStitch h row pos reason first cnt time => playLost h row pos reason first cnt time s
  | .patrolStitch h row blk mask reported => playPatrol h row blk mask reported s
  | .rowStitch h vol skein row chunks => playRow h vol skein row chunks s
  | .commitStitch h vol skein row entries => playCommit h vol skein row entries s
  | .checkpointStitch h n isEnd => playCheckpoint h n isEnd s
  | .frogStitch h vol kind skein _ => playFrog h vol kind skein s
  | .abortStitch h row kind abortRow => playAbort h row kind abortRow s
  | .deliveredStitch h row status => playDelivered h row status s
  | .deferredStitch h _ lba nsid cnt row cause => playDeferred h lba nsid cnt row cause s
  | .assocStitch h kind c => playAssoc h kind c s
  | .assocStateStitch h kind => playAssocState h kind s
  | .zoneStitch h row key mib => playZone h row key mib s
  | .violationStitch h reason key _ row _ => recordViolation h.assoc reason key row s
  | .leaseStitch h epoch shadowed successor => playLease h epoch shadowed successor s
  | .settingStitch h proposal _ internal path principal f code kind value => playSetting h proposal internal path principal f code kind value s
  | .copyStitch _ op pass range => playCopy op pass range s
  | _ => s

/-! ### Time and lag -/

/-- The device time of an arriving stitch against this unit's own: differences are counted, and a follower without PTP lock slews toward
the leader (R283, R426, R428). -/
def followTime (h : StHdr) (s : State) : State :=
  let off : Int := (h.time : Int) + s.time.yarnDelay - s.time.dev
  let s1 := if 10 * us + s.time.yarnDelay < ((h.time : Int) - s.time.dev).natAbs then s.onTime fun t => { t with diffs := t.diffs + 1 } else s
  if s.timeLeader || s.time.st == 2 || s.time.st == 3 || !s.paired then s1
  else
    let mag : Int := Config.slew s.free % 201
    let adj := if off.natAbs ≤ 2 * us then 0 else if 0 < off then mag else -mag
    s1.drawn.onTime fun t => { t with
      st := 5, lastOff := off, adj := adj, rates := (t.now, adj) :: t.rates.filter fun r => decide (t.now < r.1 + 60 * sec) }

/-- The replay lag of a stitch: its unit is withdrawn when a lag exceeds 1 ms, or when more than 1 % of the stitches of the last 1 s
exceed 50 us (R282). -/
def judgeLag (h : StHdr) (s : State) : State :=
  let lag := s.time.dev - h.time
  let young := fun (l : List Nat) => l.filter fun t => decide (s.now < t + sec)
  let all := s.now :: young s.pair.lagAll
  let slow := (if 50 * us < lag then [s.now] else []) ++ young s.pair.lagOver
  let s1 := s.onPair fun p => { p with lagAll := all, lagOver := slow }
  if s.inStep && (ms < lag || all.length < 100 * slow.length) then
    withdraw (pairFault (fwEvent 0x0B 0 unitObj (s1.onPair fun p => { p with lagAll := [], lagOver := [] })))
  else s1

/-! ### Order and acknowledgement -/

/-- STITCH-ACK leaves: the highest stitch without a gap below it, and replay credits, whose number the manual leaves open (R276, R282). -/
def ackStitch (s : State) : State := sendYarn 7 64 (.stitchAck (s.pair.rxStitch - 1) (Config.credits s.free)) s.drawn

/-- The digest of a block whose last stitch has been replayed goes to the partner (R291). -/
def sendDigest (s : State) : State :=
  let k := s.pair.rxDig
  if s.pair.rxStitch ≤ 1024 * (k + 1) || s.blockOpen false k then s
  else sendYarn 7 64 (.digest k (digestOf k s.pair.digAccRx) true)
    (s.onPair fun p => { p with rxDig := k + 1, digAccRx := p.digAccRx.filter fun x => decide (1024 * k < x.1) })

/-- The streams of both directions begin anew with stitch 1 (R276, R296). -/
def newStreams (s : State) : State :=
  s.onPair fun p => { p with
    txStitch := 1, stitches := [], credits := 64, rxStitch := 1, lagOver := [], lagAll := [], digWait := [], rxDig := 0, digAcc := [], digAccRx := [] }

/-- The cast-on is given up and retried 60 s later (R296). -/
def abandonCastOn (s : State) : State :=
  s.onPair fun p => { p with castRetry := if s.md.mode == .castOn then some (s.now + 60 * sec) else p.castRetry, castOn := none }

/-- What the joiner has of the shelf is forgotten: the copies of step 3 and 4 begin anew (R296). -/
def clearPicture (s : State) : State :=
  (dropHosts s).onIo fun i => { i with wb := [], copies := [], dcs := [], pages := [], wtHold := [] }

/-- The joiner's buffer has passed 8 GiB: the cast-on restarts at step 2, and after three restarts it is abandoned (R296). -/
def restartCastOn (c : CastOn) (s : State) : State :=
  if 3 ≤ c.restarts then abandonCastOn s
  else sendYarn 1 64 (.cast .restart 0) (clearPicture (newStreams (s.onPair fun p => { p with
    castOn := some { c with step := 3, restarts := c.restarts + 1, buffered := 0, queue := [], copied := [] } })))

/-- The joiner buffers a stitch of objects that it does not have yet (R296). -/
def bufferStitch (c : CastOn) (bytes : Nat) (i : Instr) (s : State) : State :=
  if 8589934592 < c.buffered + bytes then restartCastOn c s
  else s.onPair fun p => { p with castOn := some { c with buffered := c.buffered + bytes, queue := c.queue ++ [i] } }

/-- The partner's stream is open: in step, or in a cast-on from its new stream on (R276, R296). -/
def State.replays (s : State) : Bool := s.inStep || s.pair.castOn.any fun c => decide (3 ≤ c.step)

/-- A stitch arrives (R276, R281 to R283, R296). The next in number is replayed, or buffered by a joiner that has not its objects yet; any
other leaves the stream where it stands, and the acknowledgement says where (log 13). -/
def replay (h : StHdr) (body : Nat) (i : Instr) (s : State) : State :=
  if !s.yarnUp || !s.replays then s
  else
    let s0 := yarnFreed 7 (32 + body) s
    if h.num != s.pair.rxStitch then ackStitch s0
    else
      let s1 := followTime h (s0.onPair fun p => { p with rxStitch := p.rxStitch + 1 })
      match s1.pair.castOn with
      | some c =>
        if c.joiner && !c.copied.contains (stitchCls i) then bufferStitch c (32 + body) i (ackStitch s1)
        else sendDigest (ackStitch (playStitch i s1))
      | none => sendDigest (ackStitch (judgeLag h (playStitch i s1)))

/-! ### The rows -/

/-- ARRIVAL_STITCH (R279, R281, R284 to R286). -/
def execArrivalStitch (h : StHdr) (row qid cid opcode lane disp source nsid blocks slba status : Nat) (s : State) :
    Host.Outcome State Fault Refusal :=
  .next (replay h 40 (.arrivalStitch h row qid cid opcode lane disp source nsid blocks slba status) s)

/-- DRIVE_STITCH (R280, R286). -/
def execDriveStitch (h : StHdr) (row dc bay outcome status lba : Nat) (s : State) : Host.Outcome State Fault Refusal :=
  .next (replay h 24 (.driveStitch h row dc bay outcome status lba) s)

/-- TIMER_STITCH (R278, R281). -/
def execTimerStitch (h : StHdr) (code obj : Nat) (s : State) : Host.Outcome State Fault Refusal :=
  .next (replay h 16 (.timerStitch h code obj) s)

/-- WRITE_PLAN_STITCH (R178, R278). -/
def execWritePlanStitch (h : StHdr) (row vol method engine : Nat) (dcs : List (Nat × Nat)) (s : State) : Host.Outcome State Fault Refusal :=
  .next (replay h (32 + 8 * dcs.length) (.writePlanStitch h row vol method engine dcs) s)

/-- BITMAP_STITCH (R180, R181, R185). -/
def execBitmapStitch (h : StHdr) (isSet : Bool) (regions : List Nat) (s : State) : Host.Outcome State Fault Refusal :=
  .next (replay h (16 * regions.length) (.bitmapStitch h isSet regions) s)

/-- MEMBER_STITCH (R182, R187 to R189). -/
def execMemberStitch (h : StHdr) (pos : Nat) (st : MemberState) (gen bay : Nat) (keepers : List Nat) (s : State) :
    Host.Outcome State Fault Refusal :=
  .next (replay h 48 (.memberStitch h pos st gen bay keepers) s)

/-- LOST_STITCH (R193). -/
def execLostStitch (h : StHdr) (row pos reason first cnt time : Nat) (s : State) : Host.Outcome State Fault Refusal :=
  .next (replay h 32 (.lostStitch h row pos reason first cnt time) s)

/-- PATROL_STITCH (R197, R199). -/
def execPatrolStitch (h : StHdr) (row blk mask : Nat) (reported : Bool) (s : State) : Host.Outcome State Fault Refusal :=
  .next (replay h 32 (.patrolStitch h row blk mask reported) s)

/-- ROW_STITCH (R224, R226). -/
def execRowStitch (h : StHdr) (vol skein row : Nat) (chunks : List (Nat × Nat × Nat × Nat)) (s : State) : Host.Outcome State Fault Refusal :=
  .next (replay h (16 + 16 * chunks.length) (.rowStitch h vol skein row chunks) s)

/-- COMMIT_STITCH (R225, R226, R254). -/
def execCommitStitch (h : StHdr) (vol skein row : Nat) (entries : List (Nat × Nat × Nat)) (s : State) : Host.Outcome State Fault Refusal :=
  .next (replay h (16 + 24 * entries.length) (.commitStitch h vol skein row entries) s)

/-- CHECKPOINT_STITCH (R220, R250). -/
def execCheckpointStitch (h : StHdr) (n : Nat) (isEnd : Bool) (s : State) : Host.Outcome State Fault Refusal :=
  .next (replay h 16 (.checkpointStitch h n isEnd) s)

/-- FROG_STITCH (R230 to R233). -/
def execFrogStitch (h : StHdr) (vol kind skein chunk : Nat) (s : State) : Host.Outcome State Fault Refusal :=
  .next (replay h 32 (.frogStitch h vol kind skein chunk) s)

/-- ABORT_STITCH (R150, R152, R412). -/
def execAbortStitch (h : StHdr) (row kind abortRow : Nat) (s : State) : Host.Outcome State Fault Refusal :=
  .next (replay h 24 (.abortStitch h row kind abortRow) s)

/-- DELIVERED_STITCH (R94, R286, R287). -/
def execDeliveredStitch (h : StHdr) (row status : Nat) (s : State) : Host.Outcome State Fault Refusal :=
  .next (replay h 16 (.deliveredStitch h row status) s)

/-- DEFERRED_STITCH (R138, R142). -/
def execDeferredStitch (h : StHdr) (seq lba nsid cnt row cause : Nat) (s : State) : Host.Outcome State Fault Refusal :=
  .next (replay h 48 (.deferredStitch h seq lba nsid cnt row cause) s)

/-- ASSOC_STITCH (R53, R67, R68). -/
def execAssocStitch (h : StHdr) (kind : Nat) (c : AssocCtx) (s : State) : Host.Outcome State Fault Refusal :=
  .next (replay h 528 (.assocStitch h kind c) s)

/-- ASSOC_STATE_STITCH (R66, R288). -/
def execAssocStateStitch (h : StHdr) (kind : Nat) (s : State) : Host.Outcome State Fault Refusal :=
  .next (replay h 16 (.assocStateStitch h kind) s)

/-- ZONE_STITCH (R86). -/
def execZoneStitch (h : StHdr) (row key mib : Nat) (s : State) : Host.Outcome State Fault Refusal :=
  .next (replay h 16 (.zoneStitch h row key mib) s)

/-- VIOLATION_STITCH (R103). -/
def execViolationStitch (h : StHdr) (reason key off row len : Nat) (s : State) : Host.Outcome State Fault Refusal :=
  .next (replay h 40 (.violationStitch h reason key off row len) s)

/-- LEASE_STITCH (R269, R293, R296). -/
def execLeaseStitch (h : StHdr) (epoch : Nat) (shadowed : Bool) (successor : Nat) (s : State) : Host.Outcome State Fault Refusal :=
  .next (replay h 24 (.leaseStitch h epoch shadowed successor) s)

/-- SETTING_STITCH (R445, R446). -/
def execSettingStitch (h : StHdr) (proposal result internal : Bool) (path principal : Nat) (frame : MbFrame) (code kind value : Nat) (s : State) :
    Host.Outcome State Fault Refusal :=
  .next (replay h (if internal then 32 else 48) (.settingStitch h proposal result internal path principal frame code kind value) s)

/-- COPY_STITCH (R203, R204). -/
def execCopyStitch (h : StHdr) (op pass range : Nat) (s : State) : Host.Outcome State Fault Refusal :=
  .next (replay h 32 (.copyStitch h op pass range) s)

end Sys2Proof.Machine
end

