-- ==== Sys2Proof/Machine/CastOn.lean ====
section
/-! DEFINITION. The cast-on: checks, steps, the copies that CAST messages carry, deadline and retry (R260, R273, R296 to R298, R375, R445). -/

namespace Sys2Proof.Machine

/-! ### Checks (R260) -/

/-- The row of R260 that refuses the cast-on: 2 shelf ID, 4 landing-zone pools, 5 witness. -/
def State.castOnRefused (s : State) : Option Nat :=
  let mine := s.md.shelf.getD 0
  if mine != 0 && s.pair.pShelf != 0 && mine != s.pair.pShelf then some 2
  else if s.cfg.poolUse != s.pair.pPool then some 4
  else if s.cfg.witAddr == 0 || s.cfg.witKey.isNone || !s.pair.witOk then some 5
  else none

/-- A unit without a shelf ID adopts its partner's (R260). -/
def adoptShelf (s : State) : State :=
  if s.md.shelf.isNone && s.pair.pShelf != 0 then s.onMd fun m => { m with shelf := some s.pair.pShelf } else s

/-- The pair runs in warm standby: the dialects differ (R260, R298). Each array keeps its holder, without shadow. -/
def warmStandby (s : State) : State :=
  let s1 := if s.md.mode == .castOn then clearPicture s else s
  (s1.onMd fun m => { m with mode := .paired }).onPair fun p => { p with
    warm := true, apart := false, castOn := none, castRetry := none, stitches := []
    leases := p.leases.map fun l => { l with noClaim := false, shadowed := false } }

/-- A cast-on begins with step 1, at the joiner or at the unit that serves: the checks, and a QUERY for every array (R260, R296). -/
def beginCastOn (joiner : Bool) (s : State) : State :=
  match s.castOnRefused with
  | some k =>
    let s1 := fwEvent 8 k unitObj s
    if joiner then s1.onPair fun p => { p with castRetry := some (s.now + 60 * sec) } else s1
  | none =>
    let s1 := adoptShelf s
    if s.pair.pDialect != some s.img.dialect then warmStandby s1
    else queryAll (s1.onPair fun p => { p with castOn := some { joiner := joiner, step := 1, t0 := s.now }, castRetry := none, warm := false })

/-- The partner serves the shelf. -/
def State.partnerServes (s : State) : Bool := s.pair.pMode == some .solo || s.pair.pMode == some .paired

/-- A joiner may begin: in CAST-ON, its retry is due, the partner serves, and no debug hold is in force (R296, R502). -/
def State.mayJoin (s : State) : Bool :=
  s.md.mode == .castOn && s.pair.castOn.isNone && due s.pair.castRetry s && s.yarnUp && s.partnerServes && s.dbg.held.isNone

/-- The serving unit may take a joiner: SOLO, or PAIRED with its partner out of step, and the partner in CAST-ON. -/
def State.mayServe (s : State) : Bool :=
  (s.md.mode == .solo || (s.paired && s.pair.apart)) && s.pair.castOn.isNone && s.yarnUp && s.pair.pMode == some .castOn

/-- CAST_ON_START (R260, R296, R298). -/
def execCastOnStart (joiner : Bool) (s : State) : Host.Outcome State Fault Refusal :=
  .next (if joiner then (if s.mayJoin then beginCastOn true s else s) else if s.mayServe then beginCastOn false s else s)

/-! ### What the serving unit sends (steps 3 and 4) -/

/-- A CAST message with the number of the last stitch before it (R296). -/
def sendCast (s : State) (seg : CastSeg) : State := sendYarn 1 4096 (.cast seg (s.pair.txStitch - 1)) s

/-- The context of an association as ASSOC and CAST carry it. -/
def Assoc.context (a : Assoc) : AssocCtx :=
  { src := a.src, udpPort := a.udpPort, net := a.net, principal := a.principal, auth := a.authMode, twinCap := a.twinCap, maxPayload := a.maxPayload
    tagLimit := a.tagLimit, policy := a.policy }

/-- The settings of scope S that differ from their default (R445, R452). -/
def State.shelfSettings (s : State) : List (Nat × Nat × Int) := s.cfg.set.filter fun e => (settingRow e.1).any (·.shelf)

/-- A principal as CAST carries it. -/
def Principal.toRec (p : Principal) : PrincRec :=
  { idx := p.idx, roles := p.roles, auth := p.auth, name := p.name, pskIdLen := p.pskIdLen, pskId := p.pskId, psk := p.psk, pub := p.pub }

/-- Step 3: values of scope S, association contexts, windows, zones and revoked-key lists (R296, R445). -/
def sendContexts (s : State) : State :=
  let values : List CastSeg := [.settings s.shelfSettings, .principals (s.cfg.principals.map fun p => (p.toRec, p.policy)),
    .credentials s.cfg.creds, .witness s.cfg.witAddr]
  let one := fun (a : Assoc) => [
    CastSeg.assoc a.id a.context a.tcp a.floor a.doneRows a.ioQueues a.kato a.feats a.sqHead,
    .windows a.id (a.windows.map fun w => (w.key, w.len)) (a.zone.map fun z => (z.key, z.mib)) a.revoked]
  let live := s.io.assocs.filter fun a => a.st != .halfOpen && !a.releasing
  (values ++ live.flatMap one ++ [CastSeg.tables 0]).foldl sendCast s

/-- A position as CAST carries it. -/
def Pos.toCast (p : Pos) : CastPos := { st := p.st, bay := p.bay, serial := p.serial, depGen := p.depGen, absence := p.absence }

/-- The messages of one array: members, bitmaps, progress, lost blocks (R296). -/
def arraySegs (a : Arr) : List CastSeg :=
  [.array a.no (layoutCode a.layout) a.strip a.memberSize a.gen a.id a.created (a.pos.map Pos.toCast) (a.keepers.map (·.pos)), .bitmap a.no a.bits a.resync,
   .progress a.no a.patrolRow a.rebuildRow a.rebuildPos a.resyncTgt,
   .journal a.no a.jSeq a.replay a.ckpt (a.jRecs.map fun r => (r.blk, r.kind, r.vol, r.chunk, r.value, r.version))]
    ++ a.lost.map fun l => .lost a.no l.row l.pos l.reason l.first l.cnt l.time

/-- The messages of one volume: its table entry with its extents and map, its skeins, and its changed map pages (R296). -/
def volumeSegs (v : Volume) (s : State) : List CastSeg :=
  let exts := (s.arr? v.arr).elim [] fun a => ((List.range a.ext.length).zip a.ext).filter fun x => x.2.owner == v.no && x.2.role != 0
  let iv : ImpVol := { no := v.no, packed := v.packed, b512 := v.b512, prot := v.prot, size := v.size, created := v.created, nguid := v.nguid, allot := v.allot
                       exts := exts.map fun x => (x.1, x.2.role, skeinCode x.2.skein, x.2.index), map := v.map }
  let sk := (exts.filter fun x => x.2.role == 3).map fun x => CastSeg.skein v.arr x.1 (skeinCode x.2.skein) x.2.fill x.2.live x.2.seq x.2.index2
  let pages := (s.io.pages.filter fun p => p.vol == v.no && p.dirty).map fun p => CastSeg.mapPage v.no (v.map.filter fun m => m.1 / 512 == p.page)
  [.volume v.arr iv v.version v.skSeq] ++ sk ++ pages

/-- Step 4: arrays and copies, then maps, then dirty data and landing-zone contents (R296). -/
def sendPicture (s : State) : State :=
  let arrs : List CastSeg := [.existing s.arrNos (s.io.vols.map (·.no))] ++ s.io.arrs.flatMap arraySegs
    ++ (s.io.copies.map fun c => .copy c.op c.vol c.dstVol c.cred c.gate c.dst c.pass c.todo c.changed) ++ [CastSeg.tables 1]
  let maps : List CastSeg := (s.io.vols.flatMap fun v => volumeSegs v s) ++ [CastSeg.tables 2]
  let data : List CastSeg := ((s.io.wb.filter (·.dirty)).map fun b => .dirty b.vol b.lba b.blk b.assoc b.row)
    ++ (s.io.assocs.flatMap fun a => a.zone.elim [] fun z => z.held.map fun p => .push a.id p.row p.off p.len p.data) ++ [CastSeg.tables 3]
  (arrs ++ maps ++ data).foldl sendCast s

/-! ### What the joiner does with it -/

/-- The values of scope S replaced here by the partner's, each of the unit's own that differs with its audit entry (R445, R525). -/
def takeSettings (l : List (Nat × Nat × Int)) (s : State) : State :=
  let lost := s.shelfSettings.filter fun e => !l.contains e
  let s1 := lost.foldl (fun st e => fwEvent 0x14 e.1 unitObj st) s
  s1.onCfg fun c => { c with set := l ++ c.set.filter fun e => !(settingRow e.1).any (·.shelf) }

/-- A value that is no setting is replaced by the partner's (R445, R525). -/
def takeValue (differs : Bool) (f : Cfg → Cfg) (s : State) : State := (if differs then fwEvent 0x14 0 unitObj s else s).onCfg f

/-- An array as the partner has it (R241 to R244, R296). -/
def castArray (arr lay strip size gen id created : Nat) (pos : List CastPos) (keepers : List Nat) (s : State) : State :=
  let old := (s.arr? arr).getD { no := arr }
  let p := (pos.zip (List.range pos.length)).map fun y =>
    let x := y.1
    let slot := ((pos.take y.2).filter fun z => z.absence.isSome).length + 1
    ({ st := x.st, bay := x.bay, serial := x.serial, depGen := x.depGen, absence := x.absence, slot := if x.absence.isSome then slot else 0 } : Pos)
  let w := dataStrips (layoutAt lay) p.length * strip
  let a : Arr := { old.noWrites with
    id := id, layout := layoutAt lay, strip := strip, memberSize := size, gen := gen, created := created, pos := p
    keepers := keepers.map fun k => { pos := k }, lost := [], lostOver := false
    ext := List.replicate (extentCount size strip w) {} }
  let roles := fun (st : State) (x : CastPos) => updDrive x.bay (fun d => { d with role := .member }) st
  markLabels arr (pos.foldl roles (s.onIo fun i => { i with arrs := i.arrs.filter (·.no != arr) ++ [a] }))

/-- One block of dirty data, acknowledged at the partner (R296). -/
def castDirty (vol lba : Nat) (b : Blk) (assoc row : Nat) (s : State) : State :=
  s.onIo fun i => { i with
    wb := i.wb ++ [{ vol := vol, lba := lba, blk := b, order := i.order, assoc := assoc, row := row, acked := true }], order := i.order + 1 }

/-- An object class is complete: its stitches up to the number of the message are in the copies already, later ones are replayed at once
(R296). -/
def closeClass (cls num : Nat) (s : State) : State :=
  match s.pair.castOn with
  | none => s
  | some c =>
    let mine := c.queue.filter fun i => stitchCls i == cls
    let rest := c.queue.filter fun i => stitchCls i != cls
    let s1 := s.onPair fun p => { p with castOn := some { c with
      copied := (cls :: c.copied).eraseDups, queue := rest, buffered := if rest.isEmpty then 0 else c.buffered } }
    (mine.filter fun i => (stitchHdr i).any fun h => decide (num < h.num)).foldl (fun st i => playStitch i st) s1

/-- One CAST message at the joiner (R296). -/
def takeCast (seg : CastSeg) (num : Nat) (s : State) : State :=
  match seg with
  | .assoc id c tcp floor done ioQueues kato feats heads =>
    let a := { partnerAssoc id c tcp (if tcp then .live else .suspended) s with
      singleSided := true, floor := floor, doneRows := done, arrFloor := floor, arrRows := done, ioQueues := ioQueues, kato := kato, feats := feats, sqHead := heads }
    s.onIo fun i => { i with assocs := i.assocs.filter (·.id != id) ++ [a] }
  | .windows id wins zone revoked => updAssoc id (fun a => { a with
      windows := wins.map fun w => { key := w.1, len := w.2 }, zone := zone.map fun z => { key := z.1, mib := z.2 }, revoked := revoked }) s
  | .settings l => takeSettings l s
  | .principals l =>
    let new := l.map fun x => { PrincRec.toPrincipal x.1.idx x.1 with policy := x.2 }
    takeValue (new != s.cfg.principals) (fun c => { c with principals := new }) s
  | .credentials l => takeValue (l != s.cfg.creds) (fun c => { c with creds := l }) s
  | .witness addr => takeValue (addr != s.cfg.witAddr) (fun c => { c with witAddr := addr }) s
  | .existing arrs vols => s.onIo fun i => { i with arrs := i.arrs.filter fun a => arrs.contains a.no, vols := i.vols.filter fun v => vols.contains v.no }
  | .array arr lay strip size gen id created pos keepers => castArray arr lay strip size gen id created pos keepers s
  | .bitmap arr regions resync => updArr arr (fun a => { a with bits := regions, bitsVault := regions, bitsLed := regions, resync := resync }) s
  | .progress arr patrolRow rebuildRow rebuildPos resyncTgt => updArr arr (fun a => { a with
      patrolRow := patrolRow, patrolSkip := [], rebuildRow := rebuildRow, rebuildPos := rebuildPos, rebuild2 := [], rebuildTail := [], resyncTgt := resyncTgt }) s
  | .lost arr row pos reason first cnt time => updArr arr (fun a => { a with
      lost := a.lost ++ [{ row := row, pos := pos, reason := reason, first := first, cnt := cnt, time := time }] }) s
  | .volume arr v version skSeq =>
    updVol v.no (fun w => { w with version := version, skSeq := skSeq }) (importVolume arr (s.onIo fun i => { i with vols := i.vols.filter (·.no != v.no) }) v)
  | .skein arr idx state fill live seq chunks => updExt arr idx (fun e => { e with
      skein := skeinAt state, fill := fill, live := live, seq := seq, index2 := chunks, trailer := decide (3 ≤ state), closedAt := s.now }) s
  | .mapPage vol entries => match entries with
    | [] => s
    | e :: _ => touchPage vol (e.1 / 512) (updVol vol (fun w => { w with map := entries ++ w.map.filter fun m => !entries.any fun x => x.1 == m.1 }) s)
  | .journal arr jSeq replay ckpt recs => updArr arr (fun a => { a with
      jSeq := jSeq, replay := replay, ckpt := ckpt
      jRecs := recs.map fun r => { blk := r.1, kind := r.2.1, vol := r.2.2.1, chunk := r.2.2.2.1, value := r.2.2.2.2.1, version := r.2.2.2.2.2 } }) s
  | .copy op vol dstVol cred gate dst pass todo changed => s.onIo fun i => { i with copies := i.copies.filter (·.op != op) ++ [{
      op := op, vol := vol, dstVol := dstVol, cred := cred, gate := gate, dst := dst, pass := pass, todo := todo, changed := changed }] }
  | .dirty vol lba b assoc row => castDirty vol lba b assoc row s
  | .push assoc row off len data => updAssoc assoc (fun a => { a with zone := a.zone.map fun (z : Zone) => { z with
      held := z.held ++ [{ row := row, off := off, len := len, data := data }] } }) s
  | .tables cls => closeClass cls num s
  | .restart => s

/-- CAST (R296): the joiner takes what the partner copies; at the serving unit the joiner's word that it starts over leads back to
step 2. -/
def execCast (seg : CastSeg) (num : Nat) (s : State) : Host.Outcome State Fault Refusal :=
  .next (
    let s1 := yarnFreed 1 4096 s
    match s.pair.castOn with
    | none => s
    | some c =>
      if !s.yarnUp then s
      else if c.joiner then (if 3 ≤ c.step then takeCast seg num s1 else s1)
      else if seg == .restart then newStreams (s1.onPair fun p => { p with castOn := some { c with step := 3, restarts := c.restarts + 1 } })
      else s1)

/-! ### Steps -/

/-- The bays that a SOLO unit relinks in step 4 have their two lanes (R375). -/
def State.relinked (s : State) : Bool :=
  (List.range 24).all fun n => (s.chan n).relink.isNone && !((s.chan n).st == .on && (s.chan n).x4 && (s.drive? n).isSome)

/-- Step 6 at the serving unit: PAIRED; every array is renewed with its shadow and told to the joiner (R296, R403). -/
def endServing (c : CastOn) (s : State) : State :=
  let s1 := (s.onMd fun m => { m with mode := .paired }).onPair fun p => { p with apart := false, castRetry := none, castOn := some { c with step := 7 } }
  (s1.arrNos.filter fun n => (s1.lease n).acting).foldl (fun st n =>
    let t := renew n (updLease n (fun l => { l with shadowed := true }) st)
    issueStitch 20 n 0 0 [(t.lease n).epoch, 1, 255] t) s1

/-- Step 6 at the joiner: PAIRED, marionette of every array; no-claim marks are cleared (R273, R297, R403). Commands that the partner has not
named yet wait for it from now on (R285). -/
def endJoining (s : State) : State :=
  let wait := some (s.now + s.settingN 0x0783 * us)
  ((s.onMd fun m => { m with mode := .paired }).onPair fun p => { p with
    castOn := none, castRetry := none, apart := false, warm := false, leases := p.leases.map fun l => { l with noClaim := false } }).onIo fun i => { i with
      cmds := i.cmds.map fun c => if c.ordered then c else { c with twinWait := wait } }

/-- The running step of a cast-on. -/
def putStep (n : Nat) (c : CastOn) (s : State) : State := s.onPair fun p => { p with castOn := some { c with step := n } }

/-- CAST_ON_STEP_COMPLETE (R273, R295 to R297, R375, R401, R403): the running step is complete at this unit; the next one begins. -/
def execCastOnStepComplete (pathOk : Bool) (s : State) : Host.Outcome State Fault Refusal :=
  .next (match s.pair.castOn with
    | none => s
    | some c =>
      if !s.yarnUp then s
      else match c.step, c.joiner with
        | 1, _ => if s.pair.witOk then putStep 2 c s else s
        | 2, true => putStep 3 c (newStreams (clearPicture s))
        | 2, false => putStep 3 c (newStreams s)
        | 3, true => if c.copied.contains 0 then putStep 4 c s else s
        | 3, false => putStep 4 c (sendContexts s)
        | 4, true => if [0, 1, 2, 3].all c.copied.contains then putStep 5 c s else s
        | 4, false => if s.relinked then putStep 5 c (sendPicture s) else s
        | 5, true => if c.queue.isEmpty then putStep 6 c s else s
        | 5, false => if s.arrNos.all fun n => (s.lease n).acting then putStep 6 c s else s
        | 6, joiner =>
          if !pathOk then abandonCastOn (pairFault (fwEvent 0x0A 1 (ssAddr 3 0 0) s))
          else if !joiner then endServing c s
          else if (s.arrNos.all fun n => (s.lease n).marion) && s.pair.pMode == some .paired then endJoining s
          else s
        | _, _ => s)

/-- CAST_ON_DEADLINE (R296): a cast-on that has not ended 90 s after its start is abandoned; one whose joiner never became PAIRED leaves the
serving unit without a partner. -/
def execCastOnDeadline (s : State) : Host.Outcome State Fault Refusal :=
  .next (match s.pair.castOn with
    | none => s
    | some c => whenDue (some (c.t0 + 90 * sec)) (fun st =>
        if c.step == 7 then partnerLeft (st.onPair fun p => { p with castOn := none }) else abandonCastOn st) s)

/-- CAST_ON_RETRY (R273, R296, R299): the retry of a cast-on falls due. Two units that both serve when the yarn returns settle it so that the one that
is not the preferred survivor releases its arrays and casts on (log 27). -/
def execCastOnRetry (s : State) : Host.Outcome State Fault Refusal :=
  .next (
    if s.mayJoin then beginCastOn true s
    else if (s.md.mode == .solo || (s.paired && s.pair.apart)) && s.yarnUp && s.pair.castOn.isNone then
      whenDue s.pair.castRetry (fun st =>
        if st.preferred || !st.partnerServes then st.onPair fun p => { p with castRetry := none }
        else enterCastOn (sendYarn 7 64 (.yielded (st.arrNos.filter fun n => (st.lease n).acting)) (releaseLeases st))) s
    else s)

end Sys2Proof.Machine
end

