-- ==== Sys2Proof/Machine/Debug.lean ====
section
/-! DEFINITION. The debug port (R413, R485 to R503). -/

namespace Sys2Proof.Machine

/-! ### Packets (R486, R487, R490 to R492) -/

/-- A request of a type is received. A repeated sequence gets the saved response again; the HALT that a hold still serves is answered when the
hold ends (R487). In POWER-STANDBY only CONNECT and DISCONNECT are answered (R500), and of a port that is disabled they alone are, with status
09h (R494). Types that are not open need an unlocked session (R492). -/
def ddpRequest (q type : Nat) (body : State → State) (s : State) : State :=
  if !s.dbg.present || !s.md.powered || !s.md.svcReady then s
  else
    let again := match s.dbg.lastReq with
      | some (k, r) => if k == q then some r else none
      | none => none
    let open_ := type == 1 || type == 0x10
    match again with
    | some r => s.onDbg fun d => { d with out := d.out ++ [r] }
    | none =>
      if s.dbg.hold.isSome && q == s.dbg.holdSeq then s
      else if (s.md.mode == .powerStandby || s.cfg.dbgPolicy == 0) && !open_ then s
      else if s.cfg.dbgPolicy == 0 then ddpAnswer q type 9 [] (if type == 0x10 then endSession s else s)
      else if 3 ≤ type && type ≤ 0x0F && s.dbg.unlocked.isNone then ddpAnswer q type 1 [] s
      else body s

/-- DDP_CONNECT (R488, R492, R493): a session begins, or goes on with a fresh challenge. -/
def execDdpConnect (q : Nat) (s : State) : Host.Outcome State Fault Refusal :=
  .next (ddpRequest q 1 (fun st =>
    let chal := st.freeVal % 2 ^ 256
    let s1 := st.drawn.onDbg fun d => { d with session := true, chal := some (chal, st.now + 30 * sec) }
    ddpAnswer q 1 0 ([1, st.md.slot, modeCode st.md.mode, st.cfg.dbgPolicy] ++ zeros 4 ++ bytesLE 16 st.md.serial ++ bytesLE 32 chal) s1) s)

/-- DDP_UNLOCK (R493 to R495): `sigOk` is the verdict over the challenge with the key installed at the index. A challenge serves one UNLOCK.
The third failure within 60 s locks UNLOCK out for 60 s. -/
def execDdpUnlock (q key : Nat) (sigOk : Bool) (s : State) : Host.Outcome State Fault Refusal :=
  .next (ddpRequest q 2 (fun st =>
    if 4 ≤ key then ddpAnswer q 2 5 [] st
    else if (st.dbg.lockAt.any fun t => decide (st.now < t)) then ddpAnswer q 2 8 [] (debugEntry 0x4002 key 0 st)
    else
      let fresh := st.dbg.session && st.dbg.chal.any fun c => decide (st.now < c.2)
      let s1 := st.onDbg fun d => { d with chal := none }
      match st.cfg.unlockKeys.getD key none with
      | some (principal, _) =>
        if fresh && sigOk then
          ddpAnswer q 2 0 (bytesLE 2 principal ++ zeros 6) (debugEntry 0x4001 key 0 (s1.onDbg fun d => { d with unlocked := some (key, principal) }))
        else ddpAnswer q 2 7 [] (debugEntry 0x4002 key 0 (unlockFailed s1))
      | none => ddpAnswer q 2 7 [] (debugEntry 0x4002 key 0 (unlockFailed s1))) s)
where
  /-- A failed UNLOCK is counted (R494). -/
  unlockFailed (s : State) : State :=
    let recent := s.now :: s.dbg.fails.filter fun t => decide (s.now < t + 60 * sec)
    s.onDbg fun d => if 3 ≤ recent.length then { d with fails := [], lockAt := some (s.now + 60 * sec) } else { d with fails := recent }

/-! ### Halting (R497, R498, R500 to R502) -/

/-- The mode lets the core be halted (R500); in PAIRED only while a debug hold is taken (R502, R503). -/
def State.mayHalt (n : Nat) (s : State) : Bool :=
  match s.md.mode with
  | .maintenance => true
  | .safe => true
  | .solo => decide (4 ≤ n)
  | .castOn => decide (4 ≤ n) && s.dbg.held.isSome
  | .paired => decide (4 ≤ n) && s.dbg.hold.isSome
  | _ => false

/-- A core is halted at once and its state record answered. -/
def haltNow (q n : Nat) (s : State) : State :=
  let s1 := if (s.dbg.cores.getD n {}).halted then s else debugEntry 0x4003 s.unlockKey (coreObj n) (haltCore n 1 0 true s)
  ddpAnswer q 3 0 (coreRecord (s1.dbg.cores.getD n {})) (s1.onDbg fun d => { d with held := d.held.map fun _ => s.now })

/-- The first HALT in PAIRED mode takes a debug hold: it is refused unless the partner shadows every array held; otherwise the arrays are handed
over one after the other (R502). -/
def takeHold (q n : Nat) (s : State) : State :=
  if !s.canHandAll then ddpAnswer q 3 6 [] s
  else afterHandover (handAll .debugHold (s.onDbg fun d => { d with hold := some (n, s.now + 50 * ms), holdSeq := q }))

/-- DDP_HALT (R500 to R503). -/
def execDdpHalt (q core : Nat) (s : State) : Host.Outcome State Fault Refusal :=
  .next (ddpRequest q 3 (fun st =>
    if 36 ≤ core then ddpAnswer q 3 5 [] st
    else if st.md.mode == .paired && decide (4 ≤ core) then
      (if st.dbg.hold.isSome then ddpAnswer q 3 0x0A [] st else takeHold q core st)
    else if !st.mayHalt core then ddpAnswer q 3 3 [] st
    else haltNow q core st) s)

/-- DDP_RESUME (R492, R501): suspended commands go on. -/
def execDdpResume (q core : Nat) (s : State) : Host.Outcome State Fault Refusal :=
  .next (ddpRequest q 4 (fun st =>
    if 36 ≤ core then ddpAnswer q 4 5 [] st
    else if (st.dbg.cores.getD core {}).halted then ddpAnswer q 4 0 [] (releaseHeld (resumeCore core st))
    else ddpAnswer q 4 0 [] st) s)

/-- DDP_STEP (R497): one instruction is retired; what it did to the registers and memory is not described. -/
def execDdpStep (q core : Nat) (s : State) : Host.Outcome State Fault Refusal :=
  .next (ddpRequest q 5 (fun st =>
    if 36 ≤ core then ddpAnswer q 5 5 [] st
    else if !(st.dbg.cores.getD core {}).halted then ddpAnswer q 5 4 [] st
    else
      let s1 := updCore core (fun c => { c with mem := [] }) (haltCore core 2 0 true st)
      ddpAnswer q 5 0 (coreRecord (s1.dbg.cores.getD core {})) s1) s)

/-- A core of which something is asked: running, its registers are those of this moment (R496, R498). -/
def sampled (n : Nat) (s : State) : Core :=
  let c := s.dbg.cores.getD n {}
  if c.halted then c else { c with regs := (List.range 35).map fun i => Config.coreReg s.free i % 2 ^ 64 }

/-- DDP_STATE (R498). -/
def execDdpState (q core : Nat) (s : State) : Host.Outcome State Fault Refusal :=
  .next (ddpRequest q 6 (fun st =>
    if 36 ≤ core then ddpAnswer q 6 5 [] st else ddpAnswer q 6 0 (coreRecord (sampled core st)) st.drawn) s)

/-- DDP_SET_BREAK (R497). -/
def execDdpSetBreak (q core idx : Nat) (on : Bool) (addr : Nat) (s : State) : Host.Outcome State Fault Refusal :=
  .next (ddpRequest q 7 (fun st =>
    if 36 ≤ core || 8 ≤ idx then ddpAnswer q 7 5 [] st
    else ddpAnswer q 7 0 [] (updCore core (fun c => { c with
      brk := (c.brk.filter fun b => b.1 != idx) ++ if on then [(idx, addr)] else [] }) st)) s)

/-- DDP_SET_WATCH (R497): the bytes covered are 2^shift, aligned to that size. -/
def execDdpSetWatch (q core idx access shift addr : Nat) (s : State) : Host.Outcome State Fault Refusal :=
  .next (ddpRequest q 8 (fun st =>
    if 36 ≤ core || 4 ≤ idx || 13 ≤ shift then ddpAnswer q 8 5 [] st
    else ddpAnswer q 8 0 [] (updCore core (fun c => { c with
      wat := (c.wat.filter fun w => w.1 != idx) ++ if access == 0 then [] else [(idx, access, shift, addr / 2 ^ shift * 2 ^ shift)] }) st)) s)

/-- BREAKPOINT_HIT (R497, R503): the core halts before the instruction at the address retires, where the mode lets it halt (log 45). -/
def execBreakpointHit (core idx : Nat) (s : State) : Host.Outcome State Fault Refusal :=
  let c := s.dbg.cores.getD core {}
  if 36 ≤ core then .fault .noSuchCore
  else .next (match c.brk.find? fun b => b.1 == idx with
    | none => s
    | some (_, addr) =>
      if c.halted || !s.mayHalt core then s
      else updCore core (fun k => { k with regs := k.regs.set 32 addr }) (haltCore core 3 idx true s))

/-- WATCHPOINT_HIT (R497): the core halts after the instruction that made a covered access; on a step it is halted already. -/
def execWatchpointHit (core idx : Nat) (s : State) : Host.Outcome State Fault Refusal :=
  let c := s.dbg.cores.getD core {}
  if 36 ≤ core then .fault .noSuchCore
  else .next (
    if !(c.wat.any fun w => w.1 == idx) || !s.mayHalt core then s
    else if !c.halted then haltCore core 4 idx true s
    else if c.reason == 2 then updCore core (fun k => { k with reason := 4, idx := idx }) s
    else s)

/-! ### Registers and address spaces (R496, R499) -/

/-- The first write of a session to an address space is audited, and every write counted; the registers count as a space, 4 (R495). -/
def noteWrite (space obj : Nat) (s : State) : State :=
  let s1 := s.onDbg fun d => { d with writes := min 255 (d.writes + 1), wrote := if d.wrote.contains space then d.wrote else space :: d.wrote }
  if s.dbg.wrote.contains space then s1 else debugEntry 0x4004 s.unlockKey obj s1

/-- DDP_REG_READ (R496): 0 to 31 general, 32 PC, 33 STATUS, 34 CAUSE. -/
def execDdpRegRead (q core idx : Nat) (s : State) : Host.Outcome State Fault Refusal :=
  .next (ddpRequest q 9 (fun st =>
    if 36 ≤ core || 35 ≤ idx then ddpAnswer q 9 5 [] st
    else ddpAnswer q 9 0 (bytesLE 8 ((sampled core st).regs.getD idx 0)) st.drawn) s)

/-- DDP_REG_WRITE (R496). -/
def execDdpRegWrite (q core idx val : Nat) (s : State) : Host.Outcome State Fault Refusal :=
  .next (ddpRequest q 0x0A (fun st =>
    if 36 ≤ core || 35 ≤ idx then ddpAnswer q 0x0A 5 [] st
    else if !(st.dbg.cores.getD core {}).halted then ddpAnswer q 0x0A 4 [] st
    else ddpAnswer q 0x0A 0 [] (noteWrite 4 (coreObj core) (updCore core (fun c => { c with regs := c.regs.set idx (val % 2 ^ 64) }) st))) s)

/-- Bytes in an address space: core-local memory, tag-context SRAM, HBM (R499). -/
def spaceSize : Nat → Nat
  | 0 => 262144
  | 1 => 16777216
  | 2 => 77309411328
  | _ => 0

/-- The request keeps the rules of its space (R499). -/
def spaceOk (space core len off addr : Nat) : Bool :=
  decide (8 ≤ len) && decide (len ≤ 1024) && len % 8 == 0 && off % 8 == 0
    && (if space == 3 then true
        else decide (space < 3) && off == 0 && addr % 8 == 0 && decide (addr + len ≤ spaceSize space) && (space != 0 || decide (core < 36)))

/-- The memory of an address space (R499). -/
def State.space (space core : Nat) (s : State) : Memory :=
  match space with
  | 0 => (s.dbg.cores.getD core {}).mem
  | 1 => s.dbg.tagMem
  | _ => s.dbg.hbm

/-- DDP_MEM_READ (R466, R467, R499): of a record, the bytes beyond its end read as 0. -/
def execDdpMemRead (q space core len off addr : Nat) (s : State) : Host.Outcome State Fault Refusal :=
  .next (ddpRequest q 0x0B (fun st =>
    if !spaceOk space core len off addr then ddpAnswer q 0x0B 5 [] st
    else if space == 3 then
      (match st.readRecord addr with
       | none => ddpAnswer q 0x0B 5 [] st
       | some r => ddpAnswer q 0x0B 0 ((r.drop off).take len ++ zeros (len - (r.length - off))) st)
    else ddpAnswer q 0x0B 0 ((st.space space core).load st.free addr len) st.drawn) s)

/-- DDP_MEM_WRITE (R495, R499): space 0 of a halted core, spaces 1 and 2 in MAINTENANCE and SAFE only, space 3 never. -/
def execDdpMemWrite (q space core off addr : Nat) (bytes : List Nat) (s : State) : Host.Outcome State Fault Refusal :=
  .next (ddpRequest q 0x0C (fun st =>
    let quiet := st.md.mode == .maintenance || st.md.mode == .safe
    if space == 3 then ddpAnswer q 0x0C 3 [] st
    else if !spaceOk space core bytes.length off addr then ddpAnswer q 0x0C 5 [] st
    else match space with
      | 0 =>
        if !(st.dbg.cores.getD core {}).halted then ddpAnswer q 0x0C 4 [] st
        else ddpAnswer q 0x0C 0 [] (noteWrite 0 (coreObj core) (updCore core (fun c => { c with mem := c.mem.store addr bytes }) st))
      | 1 =>
        if !quiet then ddpAnswer q 0x0C 3 [] st
        else ddpAnswer q 0x0C 0 [] (noteWrite 1 0 (st.onDbg fun d => { d with tagMem := d.tagMem.store addr bytes }))
      | _ =>
        if !quiet then ddpAnswer q 0x0C 3 [] st
        else ddpAnswer q 0x0C 0 [] (noteWrite 2 0 (st.onDbg fun d => { d with hbm := d.hbm.store addr bytes }))) s)

/-! ### Mailboxes (R435, R441, R442, R492) -/

/-- DDP_MAILBOX: a frame of origin code 4; its result is collected with MAILBOX RESULT. -/
def execDdpMailbox (q slot : Nat) (f : MbFrame) (s : State) : Host.Outcome State Fault Refusal :=
  .next (ddpRequest q 0x0D (fun st =>
    if 16 ≤ slot then ddpAnswer q 0x0D 5 [] st
    else ddpAnswer q 0x0D 0 [] (
      if !f.ok then mbCounted 4 slot f.tag f.opcode 0x0100 st
      else mbReceive { path := 4, slot := slot, tag := f.tag, opcode := f.opcode, principal := (st.dbg.unlocked.map (·.2)).getD 0, force := f.force } f.cmd f.fieldsOk st)) s)

/-- DDP_MAILBOX_RESULT: the slot's result frame, which frees the slot; nothing while none is ready. -/
def execDdpMailboxResult (q slot : Nat) (s : State) : Host.Outcome State Fault Refusal :=
  .next (ddpRequest q 0x0E (fun st =>
    if 16 ≤ slot then ddpAnswer q 0x0E 5 [] st
    else match (st.slot? 4 slot).bind fun x => x.ready.map fun r => (x, r) with
      | some (x, code, seq, payload) => ddpAnswer q 0x0E 0 (resultFrame x code seq payload) (takeResult 4 slot st)
      | none => ddpAnswer q 0x0E 0 [] st) s)

/-! ### Debug reset, and the ends of sessions and holds -/

/-- A debug hold that a core caused is released (R413). -/
def releaseHoldOf (core : Nat) (s : State) : State :=
  if s.dbg.hold.any fun h => h.1 == core then debugHoldFails s
  else if s.dbg.held.isSome && s.dbg.heldBy == core then releaseHold s
  else s

/-- DDP_DEBUG_RESET (R413, R415, R495): a command processor is recalled; a management core is reset in MAINTENANCE and SAFE only. -/
def execDdpDebugReset (q core : Nat) (s : State) : Host.Outcome State Fault Refusal :=
  .next (ddpRequest q 0x0F (fun st =>
    if 36 ≤ core then ddpAnswer q 0x0F 5 [] st
    else if core < 4 && st.md.mode != .maintenance && st.md.mode != .safe then ddpAnswer q 0x0F 3 [] st
    else
      let s1 := debugEntry 0x4005 st.unlockKey (coreObj core) st
      let s2 := if 4 ≤ core then engineRecall 0x3005 (core - 4) s1 else s1
      ddpAnswer q 0x0F 0 [] (releaseHoldOf core (updCore core (fun _ => { reason := 5 }) s2))) s)

/-- DDP_DISCONNECT (R488). -/
def execDdpDisconnect (q : Nat) (s : State) : Host.Outcome State Fault Refusal :=
  .next (ddpRequest q 0x10 (fun st => ddpAnswer q 0x10 0 [] (endSession st)) s)

/-- DDP_BAD_PACKET (R490, R492): a request whose sync or CRC fails is not executed; one of a type that is not listed is answered with 05h. -/
def execDdpBadPacket (q type : Nat) (unknownType : Bool) (s : State) : Host.Outcome State Fault Refusal :=
  .next (
    let r : DdpResp := { seq := q, type := type, status := 2 }
    if unknownType then ddpRequest q type (ddpAnswer q type 5 []) s
    else if !s.dbg.present || !s.md.powered || !s.md.svcReady || s.md.mode == .powerStandby || s.cfg.dbgPolicy == 0 then s
    else s.onDbg fun d => { d with out := d.out ++ [r] })

/-- LINK_RESET (R486): a partial packet is discarded and the session kept. Packets arrive whole here, so that no partial one is held. -/
def execLinkReset (s : State) : Host.Outcome State Fault Refusal := .next s

/-- DEBUG_PRESENCE_CHANGE (R488): debounced; its loss ends the session. -/
def execDebugPresenceChange (present : Bool) (s : State) : Host.Outcome State Fault Refusal :=
  .next ((if present then s else endSession s).onDbg fun d => { d with present := present })

/-- DEBUG_HOLD_END (R502): no core is halted, and the session has ended or no HALT has come for 10 s. -/
def execDebugHoldEnd (s : State) : Host.Outcome State Fault Refusal :=
  .next (match s.dbg.held with
    | none => s
    | some t => if (s.dbg.cores.any (·.halted)) || (s.dbg.session && decide (s.now < t + 10 * sec)) then s else releaseHold s)

/-- DEBUG_HOLD_DEADLINE (R502, R503): 50 ms after the HALT the unit still holds a lease. -/
def execDebugHoldDeadline (s : State) : Host.Outcome State Fault Refusal :=
  .next (whenDue (s.dbg.hold.map (·.2)) debugHoldFails s)

/-- UNLOCK_LOCKOUT_EXPIRY (R494). -/
def execUnlockLockoutExpiry (s : State) : Host.Outcome State Fault Refusal :=
  .next (whenDue s.dbg.lockAt (fun st => st.onDbg fun d => { d with lockAt := none }) s)

/-- CHALLENGE_EXPIRY (R493). -/
def execChallengeExpiry (s : State) : Host.Outcome State Fault Refusal :=
  .next (whenDue (s.dbg.chal.map (·.2)) (fun st => st.onDbg fun d => { d with chal := none }) s)

/-- CONSOLE_RECEIVE (R489): a character on CRX is discarded and counted. -/
def execConsoleReceive (_char : Nat) (s : State) : Host.Outcome State Fault Refusal :=
  .next (s.onDbg fun d => { d with crx := d.crx + 1 })

end Sys2Proof.Machine
end

