-- ==== Sys2Proof/Machine/Io.lean ====
section
/-! DEFINITION. I/O commands of VDT and NVMe/TCP hosts (R118 to R136, R159 to R162, R309, R362, R388). -/

namespace Sys2Proof.Machine

/-- An I/O command of an opcode that may execute now, with its volume and array. -/
def State.ioReady (id row op : Nat) (st : CmdState) (s : State) : Option (Assoc × Cmd × Volume × Arr) :=
  match s.assoc? id, s.ready id row st with
  | some a, some c =>
    if c.admin || c.sqe.opcode != op then none
    else match s.target c with
      | some (v, ar) => if s.acts ar.no then some (a, c, v, ar) else none
      | none => none
  | _, _ => none

/-- A command to a volume of an offline array ends with Internal Error (R130, R170). -/
def endOffline (c : Cmd) (s : State) : State := endIo c scInternal 0 0 true s

/-- FLUSH (R133, R138): it waits for the writes that it covers, then for the drives' own Flush. -/
def execFlush (assoc row : Nat) (s : State) : Host.Outcome State Fault Refusal :=
  .next (match s.ready assoc row .accepted with
    | none => s
    | some c =>
      if c.admin || c.sqe.opcode != 0x00 then s
      else if (s.flushArrs c).any fun n => (s.arr? n).elim false Arr.offline then endOffline c s
      else settleMedia (updCmd assoc row (fun k => { k with st := .waitMedia, dispatched := true }) s))

/-- WRITE (R71, R131): an accepted write waits for its data; on NVMe/TCP data that are not in the capsule are asked for (R159). -/
def execWrite (assoc row : Nat) (s : State) : Host.Outcome State Fault Refusal :=
  .next (match s.ioReady assoc row 0x01 .accepted with
    | none => s
    | some (a, c, v, ar) =>
      if ar.offline then endOffline c (dropPush assoc row s)
      else
        let s1 := updCmd assoc row (fun k => { k with st := .needData }) s
        if a.tcp && !c.inl then enqueue (s.netPort a) (s.settingN 0x028D) 80 (.tcpR2t assoc row (transferLen v c.sqe)) s1 else s1)

/-- WRITE_EXECUTABLE (R71, R120, R388): every byte of the write has arrived; its protection information is checked, and it
joins the executable writes. -/
def execWriteExecutable (assoc row : Nat) (s : State) : Host.Outcome State Fault Refusal :=
  .next (match s.ioReady assoc row 0x01 .needData with
    | none => s
    | some (a, c, v, ar) =>
      if !s.writeComplete a c then s
      else
        let blks := writeBlocks a c v
        if ar.offline then endOffline c (dropPush assoc row s)
        else match piErrors v c.sqe 0 blks with
          | some sc => endIo c sc 0 0 false (dropPush assoc row s)
          | none => makeExecutable c (((List.range blks.length).map (· + c.sqe.slba)).zip blks) s)

/-- WRITE_START (R34, R92, R132, R388): an executable write that fits every cap that applies to it, with no earlier one waiting on
any of them, enters the write buffer. -/
def execWriteStart (assoc row : Nat) (s : State) : Host.Outcome State Fault Refusal :=
  .next (match s.ready assoc row .executable with
    | none => s
    | some c => if s.mayStart c then startWrite c s else s)

/-- READ (R135, R288, R309): an accepted read waits for admission to its egress queue. -/
def execRead (assoc row : Nat) (s : State) : Host.Outcome State Fault Refusal :=
  .next (match s.ioReady assoc row 0x02 .accepted with
    | none => s
    | some (a, c, _, ar) =>
      if ar.offline then endOffline c s
      else updCmd assoc row (fun k => { k with st := .waitAdmission, wait := .admission, relayTo := c.source == 1 && a.singleSided }) s)

/-- The port toward which a read's data leave: the host's, or the yarn when the partner reaches the host (R288, R309). -/
def State.readPort (a : Assoc) (c : Cmd) (s : State) : Nat := if c.relayTo then 32 + s.yarnLink else s.netPort a

/-- READ_ADMISSION (R309, R361, R362): the destination queue admits the data, and the association's shaper, when it is on, lets
them go or holds the read back. -/
def execReadAdmission (assoc row : Nat) (s : State) : Host.Outcome State Fault Refusal :=
  .next (match s.ioReady assoc row 0x02 .waitAdmission with
    | none => s
    | some (a, c, v, ar) =>
      let n := transferLen v c.sqe
      if c.wait != .admission && c.wait != .deferred then s
      else if ar.offline then endOffline c s
      else if !s.admits (s.readPort a c) (s.readClass v.no) n then
        if c.wait == .deferred then s
        else updPort (s.readPort a c) (s.readClass v.no) (fun r => { r with defer := r.defer + 1 }) (updCmd assoc row (fun k => { k with wait := .deferred }) s)
      else if !a.policy.shaperOn || a.tcp || c.relayTo then startRead c s
      else
        let cr := shaperNow a s.now
        let before := s.io.cmds.any fun k => k.assoc == assoc && k.wait == .shaper
        if 0 ≤ cr && !before then
          let sh : Shaper := { credit := creditSpend cr (s.placeCost a n) a.policy.lo, t := s.now, waiting := false }
          startRead c (updAssoc assoc (fun x => { x with shaper := sh }) s)
        else
          updCmd assoc row (fun k => { k with wait := .shaper, shAt := some s.now })
            (updAssoc assoc (fun x => { x with shaper := { credit := cr, t := s.now, waiting := true }
                                               meter := { x.meter with deferrals := x.meter.deferrals + 1 } }) s))

/-- SHAPER_RELEASE (R361, R362): the credit has risen to 0; the read that has waited longest goes. -/
def execShaperRelease (assoc : Nat) (s : State) : Host.Outcome State Fault Refusal :=
  .next (match s.assoc? assoc with
    | none => s
    | some a =>
      let list := s.io.cmds.filter fun k => k.assoc == assoc && k.wait == .shaper
      match list with
      | [] => s
      | k :: rest => match s.ioReady assoc k.row 0x02 .waitAdmission with
        | none => s
        | some (_, c, v, _) =>
          let cr := shaperNow a s.now
          if cr < 0 || !s.admits (s.readPort a c) (s.readClass v.no) (transferLen v c.sqe) then s
          else
            let sh : Shaper := { credit := creditSpend cr (s.placeCost a (transferLen v c.sqe)) a.policy.lo, t := s.now, waiting := !rest.isEmpty }
            let held := s.now - c.shAt.getD s.now
            startRead { c with wait := .none } (updAssoc assoc (fun x => { x with
              shaper := sh, meter := { x.meter with shWait := x.meter.shWait + held } }) s))

/-- The rows of a direct volume that lie wholly in a range are deallocated on their members (R122). -/
def deallocRows (v : Volume) (a : Arr) (lba n : Nat) (s : State) : State :=
  if v.packed then s
  else
    let per := a.width / v.bs
    let f := ceilDiv lba per
    let l := (lba + n) / per
    ((List.range (l - f)).map (· + f)).foldl (fun st k =>
      match a.locate v.no (k * per * v.bs) with
      | some (r, _, _) => (a.bays fun p => !memberGone p.st).foldl
          (fun t b => issueDc b 1 .dealloc (driveLba a.strip r 0) (a.strip / 4096) .other [] t) st
      | none => st) s

/-- WRITE_ZEROES (R122, R131, R136): blocks of zeroes enter the write path; with DEAC they are deallocated. Protection
information that the host neither sends nor leaves to the module is a free value (log 7). -/
def execWriteZeroes (assoc row : Nat) (s : State) : Host.Outcome State Fault Refusal :=
  .next (match s.ioReady assoc row 0x08 .accepted with
    | none => s
    | some (_, c, v, ar) =>
      if ar.offline then endOffline c s
      else
        let q := c.sqe
        let blk := fun (i : Nat) => if q.deac || !v.prot then zeroBlk v
          else { data := 0, pi := if q.pract then makePi q i 0 else s.freeVal % 2 ^ 128 }
        let blks := (List.range q.nlb).map fun i => (q.slba + i, blk i)
        let s1 := if q.deac then deallocRows v ar q.slba q.nlb s else s
        makeExecutable c blks s1.drawn)

/-- DATASET_MANAGEMENT (R122): with AD = 1 the ranges are deallocated, otherwise nothing is done. -/
def execDatasetManagement (assoc row : Nat) (s : State) : Host.Outcome State Fault Refusal :=
  .next (match s.ioReady assoc row 0x09 .accepted with
    | none => s
    | some (_, c, v, ar) =>
      if ar.offline then endOffline c s
      else if !bit c.sqe.cdw11 2 then endIo c scOk 0 0 false s
      else
        let rs := c.ranges.take (bits c.sqe.cdw10 7 0 + 1)
        let blks := rs.flatMap fun r => (List.range r.2).map fun i => (r.1 + i, zeroBlk v)
        makeExecutable { c with ranges := rs } blks (rs.foldl (fun st r => deallocRows v ar r.1 r.2 st) s))

/-- VERIFY (R123): the range is read and checked without placing data. -/
def execVerify (assoc row : Nat) (s : State) : Host.Outcome State Fault Refusal :=
  .next (match s.ioReady assoc row 0x0C .accepted with
    | none => s
    | some (_, c, _, ar) => if ar.offline then endOffline c s else startRead c s)

/-! ### NVMe/TCP (R159 to R162) -/

/-- Open NVMe/TCP connections of the unit (R159). -/
def State.tcpOpen (s : State) : Nat := (s.io.assocs.map fun a => a.tcpConns.length).sum

/-- NVME_TCP_CONNECTION (R159, R160, R400): a connection with its queue; queue 0 makes a new host controller. -/
def execNvmeTcpConnection (src port : Nat) (tlsOk : Bool) (principal : Option Nat) (controller : Option Nat) (qid : Nat) (s : State) :
    Host.Outcome State Fault Refusal :=
  .next (
    let refuse := enqueue port (s.settingN 0x028D) 80 (.tcpRefuse src port) s
    let accept := fun (t : State) => enqueue port (s.settingN 0x028D) 80 (.tcpAccept src port qid) t
    let known := principal.any fun p => (s.principal? p).any fun r => decide (3 ≤ p) && bit r.auth 0
    if s.md.mode == .powerStandby || s.md.mode == .safe then s
    else if (s.md.mode != .solo && !(s.paired && s.yarnUp)) || !tlsOk || !known || 256 ≤ s.tcpOpen then refuse
    else match controller with
      | some id => match s.assoc? id with
        | none => refuse
        | some a =>
          if a.tcp && a.src == src && principal == some a.principal && qid != 0 && decide (qid ≤ a.ioQueues) && !a.tcpConns.contains qid then
            accept (updAssoc id (fun x => { x with tcpConns := x.tcpConns ++ [qid], lastAct := s.now }) s)
          else refuse
      | none =>
        if qid != 0 || 4096 ≤ (s.io.assocs.filter (·.st != .halfOpen)).length then refuse
        else
          let id := s.newId
          let pol := ((principal.bind fun p => s.principal? p).map (·.policy)).getD {}
          let a : Assoc := {
            id := id, src := src, net := port, st := .live, ctx := s.newCtx, tcp := true, tcpConns := [0], principal := principal.getD 0
            singleSided := true, created := s.now, policy := pol, tagLimit := pol.tagLimit, meter := meterNew pol s.now, lastAct := s.now }
          accept (issueStitch 16 255 id 0 (assocFields 1 a) (s.drawn.onIo fun i => { i with assocs := i.assocs ++ [a] })))

/-- NVME_TCP_COMMAND_CAPSULE (R159, R160): a command with its in-capsule data. Rows do not apply to NVMe/TCP; the model numbers its
commands. In-capsule data above 8,192 bytes, or not the transfer length, end the command with Invalid Field in Command. -/
def execNvmeTcpCommandCapsule (assoc : Nat) (q : Sqe) (len data : Nat) (ranges : List (Nat × Nat)) (s : State) :
    Host.Outcome State Fault Refusal :=
  .next (match s.assoc? assoc with
    | none => s
    | some a =>
      if !a.tcp || !s.serves || a.releasing || !a.tcpConns.contains q.qid then s
      else
        let row := a.arrFloor
        let c0 : Cmd := { assoc := assoc, row := row, sqe := q, cls := s.settingN 0x028D, xlen := 64 + len, source := 2, ranges := ranges }
        let inl := c0.isWrite && len != 0
        let c := { c0 with inl := inl, blocks := if inl then (s.cmdVol c0).elim [] fun v => splitBlocks v q data else [] }
        let bad := decide (8192 < len) || (inl && (s.cmdVol c0).any fun v => transferLen v q != len)
        let s1 := updAssoc assoc (fun x => rowArrived row { x with lastAct := s.now }) s
        match s1.assoc? assoc with
        | none => s1
        | some b =>
          if bad then finish assoc row scField 0 0 false (s1.onIo fun i => { i with cmds := i.cmds ++ [{ c with t := s.now, tag := false }] })
          else acceptCmd b c s1)

/-- NVME_TCP_H2C_DATA (R159): data that an R2T asked for. -/
def execNvmeTcpH2cData (assoc row off len data : Nat) (s : State) : Host.Outcome State Fault Refusal :=
  .next (match s.assoc? assoc, s.cmd? assoc row with
    | some a, some c =>
      if !a.tcp || !c.isWrite || c.inl || c.dispatched then s
      else
        let p : PushData := { row := row, off := off, len := len, data := data }
        let s1 := updAssoc assoc (fun x => { x with lastAct := s.now }) (updCmd assoc row (fun k => { k with h2c := k.h2c ++ [p] }) s)
        if s.paired then forwardCmd assoc row (tryOrder assoc row s1) else s1
    | _, _ => s)

/-- NVME_TCP_CONNECTION_CLOSE (R160, R162): the commands of the connection's queue have no completion; with the admin connection the
host controller goes. -/
def execNvmeTcpConnectionClose (assoc qid : Nat) (s : State) : Host.Outcome State Fault Refusal :=
  .next (match s.assoc? assoc with
    | none => s
    | some a =>
      if !a.tcp || !a.tcpConns.contains qid then s
      else
        let s1 := updAssoc assoc (fun x => { x with tcpConns := x.tcpConns.filter (· != qid) }) s
        if qid == 0 then releaseAssoc assoc (updAssoc assoc (fun x => { x with tcpConns := [] }) s1)
        else ((s1.io.cmds.filter fun c => c.assoc == assoc && c.sqe.qid == qid).map (·.row)).foldl (resetCommand assoc true) s1)

end Sys2Proof.Machine
end

