-- ==== Sys2Proof/Machine/Dispatch.lean ====
section
/-! DEFINITION. One arm per command: the meaning of each row of the opcode table. -/

namespace Sys2Proof.Machine

/-- What a command does to everything but the queue. -/
def exec (i : Instr) (s : State) : Host.Outcome State Fault Refusal :=
  match i with
  | .hello1 h => Sys2Proof.Machine.execHello1 h s
  | .hello1Resume h => Sys2Proof.Machine.execHello1Resume h s
  | .keys3 h finishedOk sigOk chainOk => Sys2Proof.Machine.execKeys3 h finishedOk sigOk chainOk s
  | .helloLockoutExpiry src => Sys2Proof.Machine.execHelloLockoutExpiry src s
  | .halfOpenExpiry assoc => Sys2Proof.Machine.execHalfOpenExpiry assoc s
  | .cmd h q data ranges frame => Sys2Proof.Machine.execCmd h q data ranges frame s
  | .push h data => Sys2Proof.Machine.execPush h data s
  | .ack h => Sys2Proof.Machine.execAck h s
  | .nak h reason ranges => Sys2Proof.Machine.execNak h reason ranges s
  | .vdtFlush h id covered => Sys2Proof.Machine.execVdtFlush h id covered s
  | .flushAck h id status => Sys2Proof.Machine.execFlushAck h id status s
  | .violation h reason offType len offSeq key off row => Sys2Proof.Machine.execViolation h reason offType len offSeq key off row s
  | .keepalive h release => Sys2Proof.Machine.execKeepalive h release s
  | .acknowledgementDelayExpiry assoc => Sys2Proof.Machine.execAcknowledgementDelayExpiry assoc s
  | .gapDelayExpiry assoc => Sys2Proof.Machine.execGapDelayExpiry assoc s
  | .retransmissionTimerExpiry assoc seq => Sys2Proof.Machine.execRetransmissionTimerExpiry assoc seq s
  | .resumeWindowExpiry assoc => Sys2Proof.Machine.execResumeWindowExpiry assoc s
  | .keepaliveIntervalExpiry assoc => Sys2Proof.Machine.execKeepaliveIntervalExpiry assoc s
  | .keyPhaseTimeout assoc => Sys2Proof.Machine.execKeyPhaseTimeout assoc s
  | .previousKeyDiscard assoc => Sys2Proof.Machine.execPreviousKeyDiscard assoc s
  | .violationIntervalEnd => Sys2Proof.Machine.execViolationIntervalEnd s
  | .windowRegister assoc row => Sys2Proof.Machine.execWindowRegister assoc row s
  | .windowRevoke assoc row => Sys2Proof.Machine.execWindowRevoke assoc row s
  | .zoneGrant assoc row => Sys2Proof.Machine.execZoneGrant assoc row s
  | .zoneRelease assoc row => Sys2Proof.Machine.execZoneRelease assoc row s
  | .windowDrainEnd assoc key => Sys2Proof.Machine.execWindowDrainEnd assoc key s
  | .zoneDataWaitExpiry assoc => Sys2Proof.Machine.execZoneDataWaitExpiry assoc s
  | .zoneDrainEnd assoc => Sys2Proof.Machine.execZoneDrainEnd assoc s
  | .getLogPage assoc row => Sys2Proof.Machine.execGetLogPage assoc row s
  | .identify assoc row => Sys2Proof.Machine.execIdentify assoc row s
  | .abort assoc row => Sys2Proof.Machine.execAbort assoc row s
  | .setFeatures assoc row => Sys2Proof.Machine.execSetFeatures assoc row s
  | .getFeatures assoc row => Sys2Proof.Machine.execGetFeatures assoc row s
  | .asynchronousEventRequest assoc row => Sys2Proof.Machine.execAsynchronousEventRequest assoc row s
  | .deviceSelfTest assoc row => Sys2Proof.Machine.execDeviceSelfTest assoc row s
  | .selfTestResume => Sys2Proof.Machine.execSelfTestResume s
  | .selfTestEnd result segment => Sys2Proof.Machine.execSelfTestEnd result segment s
  | .keepAlive assoc row => Sys2Proof.Machine.execKeepAlive assoc row s
  | .katoExpiry assoc => Sys2Proof.Machine.execKatoExpiry assoc s
  | .vendorMailboxPassthrough assoc row => Sys2Proof.Machine.execVendorMailboxPassthrough assoc row s
  | .flush assoc row => Sys2Proof.Machine.execFlush assoc row s
  | .write assoc row => Sys2Proof.Machine.execWrite assoc row s
  | .writeExecutable assoc row => Sys2Proof.Machine.execWriteExecutable assoc row s
  | .writeStart assoc row => Sys2Proof.Machine.execWriteStart assoc row s
  | .read assoc row => Sys2Proof.Machine.execRead assoc row s
  | .readAdmission assoc row => Sys2Proof.Machine.execReadAdmission assoc row s
  | .shaperRelease assoc => Sys2Proof.Machine.execShaperRelease assoc s
  | .writeZeroes assoc row => Sys2Proof.Machine.execWriteZeroes assoc row s
  | .datasetManagement assoc row => Sys2Proof.Machine.execDatasetManagement assoc row s
  | .verify assoc row => Sys2Proof.Machine.execVerify assoc row s
  | .nvmeTcpConnection src port tlsOk principal controller qid => Sys2Proof.Machine.execNvmeTcpConnection src port tlsOk principal controller qid s
  | .nvmeTcpCommandCapsule assoc q len data ranges => Sys2Proof.Machine.execNvmeTcpCommandCapsule assoc q len data ranges s
  | .nvmeTcpH2cData assoc row off len data => Sys2Proof.Machine.execNvmeTcpH2cData assoc row off len data s
  | .driveCompletion dc ok status fatal blocks => Sys2Proof.Machine.execDriveCompletion dc ok status fatal blocks s
  | .orphanTimerExpiry dc => Sys2Proof.Machine.execOrphanTimerExpiry dc s
  | .driveCommandTimeout dc => Sys2Proof.Machine.execDriveCommandTimeout dc s
  | .driveReady bay label => Sys2Proof.Machine.execDriveReady bay label s
  | .driveReadyTimeout bay => Sys2Proof.Machine.execDriveReadyTimeout bay s
  | .driveSubmission bay => Sys2Proof.Machine.execDriveSubmission bay s
  | .drainRow arr vol row => Sys2Proof.Machine.execDrainRow arr vol row s
  | .drainRowComplete arr row => Sys2Proof.Machine.execDrainRowComplete arr row s
  | .bitmapSetRecorded arr region => Sys2Proof.Machine.execBitmapSetRecorded arr region s
  | .bitmapIdleExpiry arr region => Sys2Proof.Machine.execBitmapIdleExpiry arr region s
  | .resyncRow arr row => Sys2Proof.Machine.execResyncRow arr row s
  | .rebuildRow arr row => Sys2Proof.Machine.execRebuildRow arr row s
  | .memberAbsent arr pos => Sys2Proof.Machine.execMemberAbsent arr pos s
  | .memberReturn arr pos bay => Sys2Proof.Machine.execMemberReturn arr pos bay s
  | .returnGraceExpiry arr pos => Sys2Proof.Machine.execReturnGraceExpiry arr pos s
  | .keeperCopyComplete arr pos => Sys2Proof.Machine.execKeeperCopyComplete arr pos s
  | .patrolRow arr row finding => Sys2Proof.Machine.execPatrolRow arr row finding s
  | .importEnd arr vols => Sys2Proof.Machine.execImportEnd arr vols s
  | .copyPassEnd op => Sys2Proof.Machine.execCopyPassEnd op s
  | .copyFinalPassEnd op => Sys2Proof.Machine.execCopyFinalPassEnd op s
  | .copyFinalPassTimeout op => Sys2Proof.Machine.execCopyFinalPassTimeout op s
  | .chunkCompressed vol chunk engine streamLen crc zero => Sys2Proof.Machine.execChunkCompressed vol chunk engine streamLen crc zero s
  | .rowTimeout vol frog => Sys2Proof.Machine.execRowTimeout vol frog s
  | .rowCommit vol skein row => Sys2Proof.Machine.execRowCommit vol skein row s
  | .checkpointIntervalExpiry arr => Sys2Proof.Machine.execCheckpointIntervalExpiry arr s
  | .checkpointEnd arr => Sys2Proof.Machine.execCheckpointEnd arr s
  | .frogSelect vol skein => Sys2Proof.Machine.execFrogSelect vol skein s
  | .mapPageFetch vol page entries => Sys2Proof.Machine.execMapPageFetch vol page entries s
  | .leaseRenewalTimer arr => Sys2Proof.Machine.execLeaseRenewalTimer arr s
  | .grant m => Sys2Proof.Machine.execGrant m s
  | .refuse m => Sys2Proof.Machine.execRefuse m s
  | .state m => Sys2Proof.Machine.execState m s
  | .witnessPoll => Sys2Proof.Machine.execWitnessPoll s
  | .stopPoint arr => Sys2Proof.Machine.execStopPoint arr s
  | .relay isAnswer m reachable => Sys2Proof.Machine.execRelay isAnswer m reachable s
  | .promise arr expiry => Sys2Proof.Machine.execPromise arr expiry s
  | .promiseExpiry arr => Sys2Proof.Machine.execPromiseExpiry arr s
  | .claimWaitExpiry arr => Sys2Proof.Machine.execClaimWaitExpiry arr s
  | .yarnLinkDown link => Sys2Proof.Machine.execYarnLinkDown link s
  | .yarnLinkUp link => Sys2Proof.Machine.execYarnLinkUp link s
  | .heartbeatTimer link => Sys2Proof.Machine.execHeartbeatTimer link s
  | .heartbeat link mode mains high dialect shelf pool slot endBoot ptpLocked => Sys2Proof.Machine.execHeartbeat link mode mains high dialect shelf pool slot endBoot ptpLocked s
  | .stitchRetransmitTimer num => Sys2Proof.Machine.execStitchRetransmitTimer num s
  | .stitchAck num credits => Sys2Proof.Machine.execStitchAck num credits s
  | .arrivalStitch h row qid cid opcode lane disp source nsid blocks slba status => Sys2Proof.Machine.execArrivalStitch h row qid cid opcode lane disp source nsid blocks slba status s
  | .driveStitch h row dc bay outcome status lba => Sys2Proof.Machine.execDriveStitch h row dc bay outcome status lba s
  | .timerStitch h code obj => Sys2Proof.Machine.execTimerStitch h code obj s
  | .writePlanStitch h row vol method engine dcs => Sys2Proof.Machine.execWritePlanStitch h row vol method engine dcs s
  | .bitmapStitch h isSet regions => Sys2Proof.Machine.execBitmapStitch h isSet regions s
  | .memberStitch h pos st gen bay keepers => Sys2Proof.Machine.execMemberStitch h pos st gen bay keepers s
  | .lostStitch h row pos reason first cnt time => Sys2Proof.Machine.execLostStitch h row pos reason first cnt time s
  | .patrolStitch h row blk mask reported => Sys2Proof.Machine.execPatrolStitch h row blk mask reported s
  | .rowStitch h vol skein row chunks => Sys2Proof.Machine.execRowStitch h vol skein row chunks s
  | .commitStitch h vol skein row entries => Sys2Proof.Machine.execCommitStitch h vol skein row entries s
  | .checkpointStitch h n isEnd => Sys2Proof.Machine.execCheckpointStitch h n isEnd s
  | .frogStitch h vol kind skein chunk => Sys2Proof.Machine.execFrogStitch h vol kind skein chunk s
  | .abortStitch h row kind abortRow => Sys2Proof.Machine.execAbortStitch h row kind abortRow s
  | .deliveredStitch h row status => Sys2Proof.Machine.execDeliveredStitch h row status s
  | .deferredStitch h seq lba nsid cnt row cause => Sys2Proof.Machine.execDeferredStitch h seq lba nsid cnt row cause s
  | .assocStitch h kind c => Sys2Proof.Machine.execAssocStitch h kind c s
  | .assocStateStitch h kind => Sys2Proof.Machine.execAssocStateStitch h kind s
  | .zoneStitch h row key mib => Sys2Proof.Machine.execZoneStitch h row key mib s
  | .violationStitch h reason key off row len => Sys2Proof.Machine.execViolationStitch h reason key off row len s
  | .leaseStitch h epoch shadowed successor => Sys2Proof.Machine.execLeaseStitch h epoch shadowed successor s
  | .settingStitch h proposal result internal path principal frame code kind value => Sys2Proof.Machine.execSettingStitch h proposal result internal path principal frame code kind value s
  | .copyStitch h op pass range => Sys2Proof.Machine.execCopyStitch h op pass range s
  | .confirm assoc row => Sys2Proof.Machine.execConfirm assoc row s
  | .missing assoc row => Sys2Proof.Machine.execMissing assoc row s
  | .forward assoc row cls key off q blocks => Sys2Proof.Machine.execForward assoc row cls key off q blocks s
  | .twinWaitExpiry assoc row => Sys2Proof.Machine.execTwinWaitExpiry assoc row s
  | .singleSidedEntry assoc => Sys2Proof.Machine.execSingleSidedEntry assoc s
  | .twinlessHoldExpiry assoc row => Sys2Proof.Machine.execTwinlessHoldExpiry assoc row s
  | .relayRead assoc row status blocks => Sys2Proof.Machine.execRelayRead assoc row status blocks s
  | .digest block value ownStream => Sys2Proof.Machine.execDigest block value ownStream s
  | .warm assoc row status dw0 dw1 => Sys2Proof.Machine.execWarm assoc row status dw0 dw1 s
  | .cast seg num => Sys2Proof.Machine.execCast seg num s
  | .handoverDrainDeadline arr => Sys2Proof.Machine.execHandoverDrainDeadline arr s
  | .handoverResendTimer arr => Sys2Proof.Machine.execHandoverResendTimer arr s
  | .proofRunStart => Sys2Proof.Machine.execProofRunStart s
  | .proofRunNext labelsOk vectorsOk => Sys2Proof.Machine.execProofRunNext labelsOk vectorsOk s
  | .castOnStart joiner => Sys2Proof.Machine.execCastOnStart joiner s
  | .castOnStepComplete pathOk => Sys2Proof.Machine.execCastOnStepComplete pathOk s
  | .castOnDeadline => Sys2Proof.Machine.execCastOnDeadline s
  | .castOnRetry => Sys2Proof.Machine.execCastOnRetry s
  | .jointStartYield arrs => Sys2Proof.Machine.execJointStartYield arrs s
  | .frameReceive f => Sys2Proof.Machine.execFrameReceive f s
  | .contextFetchComplete assoc => Sys2Proof.Machine.execContextFetchComplete assoc s
  | .slowPathFrame => Sys2Proof.Machine.execSlowPathFrame s
  | .pauseRepeatTimer port prio => Sys2Proof.Machine.execPauseRepeatTimer port prio s
  | .pauseFrame port cls quanta => Sys2Proof.Machine.execPauseFrame port cls quanta s
  | .pauseExpiry port cls => Sys2Proof.Machine.execPauseExpiry port cls s
  | .creditReturnTimer link cls => Sys2Proof.Machine.execCreditReturnTimer link cls s
  | .yarnCredit link cls cells => Sys2Proof.Machine.execYarnCredit link cls cells s
  | .egressSelect port => Sys2Proof.Machine.execEgressSelect port s
  | .ageingSweep => Sys2Proof.Machine.execAgeingSweep s
  | .planeFailure plane lost => Sys2Proof.Machine.execPlaneFailure plane lost s
  | .bankSwapPause port => Sys2Proof.Machine.execBankSwapPause port s
  | .parserStop port => Sys2Proof.Machine.execParserStop port s
  | .bankSwap port => Sys2Proof.Machine.execBankSwap port s
  | .gateIntervalEnd list => Sys2Proof.Machine.execGateIntervalEnd list s
  | .queueSample => Sys2Proof.Machine.execQueueSample s
  | .bayInsert bay d => Sys2Proof.Machine.execBayInsert bay d s
  | .bayRemove bay => Sys2Proof.Machine.execBayRemove bay s
  | .outputReachesThreshold bay => Sys2Proof.Machine.execOutputReachesThreshold bay s
  | .rampTimeout bay => Sys2Proof.Machine.execRampTimeout bay s
  | .qualificationComplete bay => Sys2Proof.Machine.execQualificationComplete bay s
  | .faultTimerStart bay => Sys2Proof.Machine.execFaultTimerStart bay s
  | .faultTimerClear bay => Sys2Proof.Machine.execFaultTimerClear bay s
  | .faultTimerExpiry bay => Sys2Proof.Machine.execFaultTimerExpiry bay s
  | .modelOverTemperature bay => Sys2Proof.Machine.execModelOverTemperature bay s
  | .powerGoodLoss bay => Sys2Proof.Machine.execPowerGoodLoss bay s
  | .perstRelease bay => Sys2Proof.Machine.execPerstRelease bay s
  | .coolDownEnd bay temp => Sys2Proof.Machine.execCoolDownEnd bay temp s
  | .retryBudgetRestore bay => Sys2Proof.Machine.execRetryBudgetRestore bay s
  | .bayRelink bay => Sys2Proof.Machine.execBayRelink bay s
  | .partnerSlotEmptyTimeout => Sys2Proof.Machine.execPartnerSlotEmptyTimeout s
  | .bayButtonPress bay => Sys2Proof.Machine.execBayButtonPress bay s
  | .bayButtonHeld bay => Sys2Proof.Machine.execBayButtonHeld bay s
  | .removalPreparationLapse bay => Sys2Proof.Machine.execRemovalPreparationLapse bay s
  | .removalFlushDeadline bay => Sys2Proof.Machine.execRemovalFlushDeadline bay s
  | .removalShutdownDeadline bay done => Sys2Proof.Machine.execRemovalShutdownDeadline bay done s
  | .lineVoltageChange volts => Sys2Proof.Machine.execLineVoltageChange volts s
  | .budgetRiseHold => Sys2Proof.Machine.execBudgetRiseHold s
  | .powerMeasurementCheck powers => Sys2Proof.Machine.execPowerMeasurementCheck powers s
  | .mainsLoss => Sys2Proof.Machine.execMainsLoss s
  | .holdUpDriveDeadline => Sys2Proof.Machine.execHoldUpDriveDeadline s
  | .holdUpDumpEnd doneRuns => Sys2Proof.Machine.execHoldUpDumpEnd doneRuns s
  | .holdUpEnd => Sys2Proof.Machine.execHoldUpEnd s
  | .mainsReturn => Sys2Proof.Machine.execMainsReturn s
  | .dumpRateMeasurement arr rate => Sys2Proof.Machine.execDumpRateMeasurement arr rate s
  | .holdUpTimeMeasurement ns => Sys2Proof.Machine.execHoldUpTimeMeasurement ns s
  | .fanLoop sensors drives tachs failing => Sys2Proof.Machine.execFanLoop sensors drives tachs failing s
  | .fanFailure fan => Sys2Proof.Machine.execFanFailure fan s
  | .osfpPresence cage present watts => Sys2Proof.Machine.execOsfpPresence cage present watts s
  | .osfpMonitor cage temp highAlarm => Sys2Proof.Machine.execOsfpMonitor cage temp highAlarm s
  | .serviceKeyTouch => Sys2Proof.Machine.execServiceKeyTouch s
  | .serviceKeyHold => Sys2Proof.Machine.execServiceKeyHold s
  | .serviceKeyLongHold => Sys2Proof.Machine.execServiceKeyLongHold s
  | .backlightTimeout => Sys2Proof.Machine.execBacklightTimeout s
  | .mainsApplied => Sys2Proof.Machine.execMainsApplied s
  | .serviceDomainReady slotOpen swatchOk configOk => Sys2Proof.Machine.execServiceDomainReady slotOpen swatchOk configOk s
  | .rootLock => Sys2Proof.Machine.execRootLock s
  | .managementFirmwareRunning imageOk volts => Sys2Proof.Machine.execManagementFirmwareRunning imageOk volts s
  | .bayGroupTimer => Sys2Proof.Machine.execBayGroupTimer s
  | .driveReadyWaitExpiry bay => Sys2Proof.Machine.execDriveReadyWaitExpiry bay s
  | .arraysAssembled bitmaps badRuns ms => Sys2Proof.Machine.execArraysAssembled bitmaps badRuns ms s
  | .modeDrainComplete => Sys2Proof.Machine.execModeDrainComplete s
  | .watchdogLapse => Sys2Proof.Machine.execWatchdogLapse s
  | .rootLockLoss => Sys2Proof.Machine.execRootLockLoss s
  | .thermalLimit => Sys2Proof.Machine.execThermalLimit s
  | .thermalRecovery => Sys2Proof.Machine.execThermalRecovery s
  | .ptpMessage m => Sys2Proof.Machine.execPtpMessage m s
  | .announceReceiptTimeout => Sys2Proof.Machine.execAnnounceReceiptTimeout s
  | .deviceTimeSave => Sys2Proof.Machine.execDeviceTimeSave s
  | .leapSecond => Sys2Proof.Machine.execLeapSecond s
  | .ps1Entry load idle => Sys2Proof.Machine.execPs1Entry load idle s
  | .ps2IdleExpiry => Sys2Proof.Machine.execPs2IdleExpiry s
  | .ps2SafePoint => Sys2Proof.Machine.execPs2SafePoint s
  | .powerStateExit why => Sys2Proof.Machine.execPowerStateExit why s
  | .mailboxBadFrame path slot tag opcode session slotFault => Sys2Proof.Machine.execMailboxBadFrame path slot tag opcode session slotFault s
  | .mailboxUnknownOpcode f opcode => Sys2Proof.Machine.execMailboxUnknownOpcode f opcode s
  | .serviceBusResultRead slot => Sys2Proof.Machine.execServiceBusResultRead slot s
  | .managementSessionOpen principal => Sys2Proof.Machine.execManagementSessionOpen principal s
  | .sessionIdleTimeout session => Sys2Proof.Machine.execSessionIdleTimeout session s
  | .getSetting f grp sid inst => Sys2Proof.Machine.execGetSetting f grp sid inst s
  | .setSetting f grp sid inst val => Sys2Proof.Machine.execSetSetting f grp sid inst val s
  | .unitIdentify f => Sys2Proof.Machine.execUnitIdentify f s
  | .getAlarms f => Sys2Proof.Machine.execGetAlarms f s
  | .clearConfigurationAlarm f => Sys2Proof.Machine.execClearConfigurationAlarm f s
  | .changeMode f req => Sys2Proof.Machine.execChangeMode f req s
  | .moduleReset f => Sys2Proof.Machine.execModuleReset f s
  | .controllerReset f => Sys2Proof.Machine.execControllerReset f s
  | .operationStatus f op => Sys2Proof.Machine.execOperationStatus f op s
  | .operationCancel f op => Sys2Proof.Machine.execOperationCancel f op s
  | .setPortAddresses f port addrs => Sys2Proof.Machine.execSetPortAddresses f port addrs s
  | .writeIndirectionTable f mask entries => Sys2Proof.Machine.execWriteIndirectionTable f mask entries s
  | .writeDscpTables f mask rx tx => Sys2Proof.Machine.execWriteDscpTables f mask rx tx s
  | .associationReset f assoc => Sys2Proof.Machine.execAssociationReset f assoc s
  | .listAssociations f first => Sys2Proof.Machine.execListAssociations f first s
  | .principalCreate f r => Sys2Proof.Machine.execPrincipalCreate f r s
  | .principalModify f r => Sys2Proof.Machine.execPrincipalModify f r s
  | .principalRemove f idx => Sys2Proof.Machine.execPrincipalRemove f idx s
  | .principalList f first => Sys2Proof.Machine.execPrincipalList f first s
  | .generateUnitKey f => Sys2Proof.Machine.execGenerateUnitKey f s
  | .installUnitCertificate f len cert key => Sys2Proof.Machine.execInstallUnitCertificate f len cert key s
  | .setOutboundCredential f cred len psk ident => Sys2Proof.Machine.execSetOutboundCredential f cred len psk ident s
  | .arrayCreate f arr lay n shift bays => Sys2Proof.Machine.execArrayCreate f arr lay n shift bays s
  | .arrayDelete f arr => Sys2Proof.Machine.execArrayDelete f arr s
  | .assignDrive f bay role => Sys2Proof.Machine.execAssignDrive f bay role s
  | .markMemberFailed f arr pos => Sys2Proof.Machine.execMarkMemberFailed f arr pos s
  | .arrayStatus f arr => Sys2Proof.Machine.execArrayStatus f arr s
  | .listLostBlocks f arr first => Sys2Proof.Machine.execListLostBlocks f arr first s
  | .listPatrolReports f arr first => Sys2Proof.Machine.execListPatrolReports f arr first s
  | .importArray f mask => Sys2Proof.Machine.execImportArray f mask s
  | .volumeCreate f vol arr kind flags size allot => Sys2Proof.Machine.execVolumeCreate f vol arr kind flags size allot s
  | .volumeDelete f vol => Sys2Proof.Machine.execVolumeDelete f vol s
  | .volumeResize f vol size => Sys2Proof.Machine.execVolumeResize f vol size s
  | .copyStart f vol dstVol cred gate dst => Sys2Proof.Machine.execCopyStart f vol dstVol cred gate dst s
  | .copyCutover f op => Sys2Proof.Machine.execCopyCutover f op s
  | .listMapInconsistencies f vol first => Sys2Proof.Machine.execListMapInconsistencies f vol first s
  | .writeGateList f list base change entries => Sys2Proof.Machine.execWriteGateList f list base change entries s
  | .readGateList f list => Sys2Proof.Machine.execReadGateList f list s
  | .setPolicyRecord f target idx p => Sys2Proof.Machine.execSetPolicyRecord f target idx p s
  | .clearQueueRecords f cls inst => Sys2Proof.Machine.execClearQueueRecords f cls inst s
  | .setWitnessAddress f addr => Sys2Proof.Machine.execSetWitnessAddress f addr s
  | .setWitnessKey f key => Sys2Proof.Machine.execSetWitnessKey f key s
  | .handover f arr => Sys2Proof.Machine.execHandover f arr s
  | .startProofRun f => Sys2Proof.Machine.execStartProofRun f s
  | .clearNoClaimMarks f mask => Sys2Proof.Machine.execClearNoClaimMarks f mask s
  | .readDivergenceSnapshot f off len => Sys2Proof.Machine.execReadDivergenceSnapshot f off len s
  | .pairStatus f => Sys2Proof.Machine.execPairStatus f s
  | .bayPower f bay action => Sys2Proof.Machine.execBayPower f bay action s
  | .removalRequest f bay step => Sys2Proof.Machine.execRemovalRequest f bay step s
  | .locate f bay on => Sys2Proof.Machine.execLocate f bay on s
  | .powerStateRequest f ps => Sys2Proof.Machine.execPowerStateRequest f ps s
  | .powerStatus f => Sys2Proof.Machine.execPowerStatus f s
  | .exportSwatch f => Sys2Proof.Machine.execExportSwatch f s
  | .writeSwatchEntry f check entry val => Sys2Proof.Machine.execWriteSwatchEntry f check entry val s
  | .readAuditEntries f first n => Sys2Proof.Machine.execReadAuditEntries f first n s
  | .exportAuditLog f first last => Sys2Proof.Machine.execExportAuditLog f first last s
  | .sealAuditLog f last => Sys2Proof.Machine.execSealAuditLog f last s
  | .readObject f addr off len => Sys2Proof.Machine.execReadObject f addr off len s
  | .freeze f us => Sys2Proof.Machine.execFreeze f us s
  | .freezeExpiry => Sys2Proof.Machine.execFreezeExpiry s
  | .releaseFreeze f => Sys2Proof.Machine.execReleaseFreeze f s
  | .stageSegment f off len ident => Sys2Proof.Machine.execStageSegment f off len ident s
  | .verifyStagedImage f len => Sys2Proof.Machine.execVerifyStagedImage f len s
  | .activate f => Sys2Proof.Machine.execActivate f s
  | .activationDrainEnd => Sys2Proof.Machine.execActivationDrainEnd s
  | .activationDrainTimeout => Sys2Proof.Machine.execActivationDrainTimeout s
  | .discardStagedImage f => Sys2Proof.Machine.execDiscardStagedImage f s
  | .takeOutOfService f cls inst => Sys2Proof.Machine.execTakeOutOfService f cls inst s
  | .partDrainComplete cls inst => Sys2Proof.Machine.execPartDrainComplete cls inst s
  | .returnToService f cls inst => Sys2Proof.Machine.execReturnToService f cls inst s
  | .runOnlineTest f cls inst code => Sys2Proof.Machine.execRunOnlineTest f cls inst code s
  | .onlineTestEnd cls inst pass => Sys2Proof.Machine.execOnlineTestEnd cls inst pass s
  | .engineRecall f cls inst => Sys2Proof.Machine.execEngineRecall f cls inst s
  | .tileWatchdog cls inst cause => Sys2Proof.Machine.execTileWatchdog cls inst cause s
  | .hbmUncorrectedError pcp lostBlocks => Sys2Proof.Machine.execHbmUncorrectedError pcp lostBlocks s
  | .hbmCopyComplete pcp => Sys2Proof.Machine.execHbmCopyComplete pcp s
  | .netPortDrainEnd port => Sys2Proof.Machine.execNetPortDrainEnd port s
  | .setTime f t => Sys2Proof.Machine.execSetTime f t s
  | .getTime f => Sys2Proof.Machine.execGetTime f s
  | .installUnlockKey f idx principal key => Sys2Proof.Machine.execInstallUnlockKey f idx principal key s
  | .removeUnlockKey f idx => Sys2Proof.Machine.execRemoveUnlockKey f idx s
  | .debugPortPolicy f p => Sys2Proof.Machine.execDebugPortPolicy f p s
  | .revokeUnlock f => Sys2Proof.Machine.execRevokeUnlock f s
  | .ddpConnect q => Sys2Proof.Machine.execDdpConnect q s
  | .ddpUnlock q key sigOk => Sys2Proof.Machine.execDdpUnlock q key sigOk s
  | .ddpHalt q core => Sys2Proof.Machine.execDdpHalt q core s
  | .ddpResume q core => Sys2Proof.Machine.execDdpResume q core s
  | .ddpStep q core => Sys2Proof.Machine.execDdpStep q core s
  | .ddpState q core => Sys2Proof.Machine.execDdpState q core s
  | .ddpSetBreak q core idx on addr => Sys2Proof.Machine.execDdpSetBreak q core idx on addr s
  | .ddpSetWatch q core idx access shift addr => Sys2Proof.Machine.execDdpSetWatch q core idx access shift addr s
  | .ddpRegRead q core idx => Sys2Proof.Machine.execDdpRegRead q core idx s
  | .ddpRegWrite q core idx val => Sys2Proof.Machine.execDdpRegWrite q core idx val s
  | .ddpMemRead q space core len off addr => Sys2Proof.Machine.execDdpMemRead q space core len off addr s
  | .ddpMemWrite q space core off addr bytes => Sys2Proof.Machine.execDdpMemWrite q space core off addr bytes s
  | .ddpMailbox q slot f => Sys2Proof.Machine.execDdpMailbox q slot f s
  | .ddpMailboxResult q slot => Sys2Proof.Machine.execDdpMailboxResult q slot s
  | .ddpDebugReset q core => Sys2Proof.Machine.execDdpDebugReset q core s
  | .ddpDisconnect q => Sys2Proof.Machine.execDdpDisconnect q s
  | .ddpBadPacket q type unknownType => Sys2Proof.Machine.execDdpBadPacket q type unknownType s
  | .linkReset => Sys2Proof.Machine.execLinkReset s
  | .debugPresenceChange present => Sys2Proof.Machine.execDebugPresenceChange present s
  | .breakpointHit core idx => Sys2Proof.Machine.execBreakpointHit core idx s
  | .watchpointHit core idx => Sys2Proof.Machine.execWatchpointHit core idx s
  | .debugHoldEnd => Sys2Proof.Machine.execDebugHoldEnd s
  | .unlockLockoutExpiry => Sys2Proof.Machine.execUnlockLockoutExpiry s
  | .challengeExpiry => Sys2Proof.Machine.execChallengeExpiry s
  | .consoleReceive char => Sys2Proof.Machine.execConsoleReceive char s
  | .portLinkStateChange port up rate => Sys2Proof.Machine.execPortLinkStateChange port up rate s
  | .bayLinkStateChange bay up => Sys2Proof.Machine.execBayLinkStateChange bay up s
  | .partnerPresenceChange present => Sys2Proof.Machine.execPartnerPresenceChange present s
  | .modPresBreak => Sys2Proof.Machine.execModPresBreak s
  | .recoveryRungOverrun rung obj => Sys2Proof.Machine.execRecoveryRungOverrun rung obj s
  | .debugHoldDeadline => Sys2Proof.Machine.execDebugHoldDeadline s
  | .ps2RequestTimeout => Sys2Proof.Machine.execPs2RequestTimeout s
  | .witnessQueryRepeat => Sys2Proof.Machine.execWitnessQueryRepeat s
  | .standbyShutdownDeadline => Sys2Proof.Machine.execStandbyShutdownDeadline s
  | .inbandSlotWaitExpiry assoc row => Sys2Proof.Machine.execInbandSlotWaitExpiry assoc row s
  | .stagedImageVerifyEnd ok version dialect => Sys2Proof.Machine.execStagedImageVerifyEnd ok version dialect s
  | .auditExportEnd => Sys2Proof.Machine.execAuditExportEnd s
  | .activationRestartComplete => Sys2Proof.Machine.execActivationRestartComplete s
  | .ledgerHeaderWriteTimer arr => Sys2Proof.Machine.execLedgerHeaderWriteTimer arr s
  | .managementSessionClose session => Sys2Proof.Machine.execManagementSessionClose session s
  | .nvmeTcpConnectionClose assoc qid => Sys2Proof.Machine.execNvmeTcpConnectionClose assoc qid s
  | .copyAssociationPacket op p => Sys2Proof.Machine.execCopyAssociationPacket op p s

end Sys2Proof.Machine
end

