-- ==== Sys2Proof/Machine/Ticks.lean ====
section
/-! DEFINITION. What passes with time alone: device time and the transistor model of the bay channels. -/

namespace Sys2Proof.Machine

/-- A swatch entry (R462). -/
def State.swatch (i : Nat) (s : State) : Int := s.audit.swEntries.getD i 0

/-- Device time gains 4 ns and the rate adjustment of one CLK_TIME tick (R422); elapsed time gains 4 ns. -/
def tickTime (powered : Bool) (t : Time) : Time :=
  if powered then
    let f : Int := 4000000 + t.adj + t.frac
    { t with now := t.now + 4, dev := t.dev + (f / 1000000).toNat, frac := (f % 1000000).toNat }
  else { t with now := t.now + 4 }

/-- The rise of the transistor model after 1 us, in microkelvin: p in uW from mV and mA, rth in mK/W, tau in us (R377). -/
def modelRise (dt : Int) (vout cur : Nat) (rth tau : Int) : Int :=
  let p : Int := ((12000 - vout) * cur : Nat)
  dt + (p * rth / 1000 - dt) / max 1 tau

/-- One update of the transistor model of channel n (R377). -/
def modelStep (s : State) (n : Nat) (c : Chan) : Chan :=
  let dt := modelRise c.dt c.vout c.cur (s.swatch (48 + n)) (s.swatch (72 + n))
  let g := n / 6
  { c with dt := dt, temp := 10 * s.bays.sensors.getD g 40 + s.swatch (97 + g) / 100 + dt / 100000 }

/-- One CLK_TIME tick; every 1 us the transistor models are updated (R377, R422). -/
def tick (s : State) : State :=
  let s1 := s.onTime (tickTime s.md.powered)
  if s1.time.now % 1000 == 0 && s.md.powered then
    s1.onBays fun b => { b with ch := b.ch.mapIdx fun n c => modelStep s1 n c }
  else s1

end Sys2Proof.Machine
end

