-- ==== Sys2Proof/Safety.lean ====
section
/-! DEFINITION. What counts as a run of the unit that goes on, and what every state of a run keeps. -/

namespace Sys2Proof.Machine

/-- A step that answers a next state. -/
def Goes (s : State) : Prop := ∃ t, step s = .next t

/-- A run of n steps without a fault or a refusal. -/
def Safe (n : Nat) (s : State) : Prop := ∃ t, Host.Core.run Sys2Proof.core n s = .next t

/-- The bay, port, cage or core that a command names is one that the unit has: 24 bays (R376), 8 NET ports and MGMT (R305), 8 cages
(R391), 36 cores (R492). -/
def hasPart : Sys2Proof.Instr → Bool
  | .driveReadyTimeout bay => decide (bay < 24)
  | .driveSubmission bay => decide (bay < 24)
  | .bayRemove bay => decide (bay < 24)
  | .outputReachesThreshold bay => decide (bay < 24)
  | .rampTimeout bay => decide (bay < 24)
  | .qualificationComplete bay => decide (bay < 24)
  | .faultTimerStart bay => decide (bay < 24)
  | .faultTimerClear bay => decide (bay < 24)
  | .faultTimerExpiry bay => decide (bay < 24)
  | .modelOverTemperature bay => decide (bay < 24)
  | .powerGoodLoss bay => decide (bay < 24)
  | .perstRelease bay => decide (bay < 24)
  | .retryBudgetRestore bay => decide (bay < 24)
  | .bayRelink bay => decide (bay < 24)
  | .driveReadyWaitExpiry bay => decide (bay < 24)
  | .removalPreparationLapse bay => decide (bay < 24)
  | .removalFlushDeadline bay => decide (bay < 24)
  | .bayButtonPress bay => decide (bay < 24)
  | .bayButtonHeld bay => decide (bay < 24)
  | .bayInsert bay _ => decide (bay < 24)
  | .coolDownEnd bay _ => decide (bay < 24)
  | .bayLinkStateChange bay _ => decide (bay < 24)
  | .removalShutdownDeadline bay _ => decide (bay < 24)
  | .driveReady bay _ => decide (bay < 24)
  | .memberReturn _ _ bay => decide (bay < 24)
  | .osfpPresence cage _ _ => decide (cage < 8)
  | .osfpMonitor cage _ _ => decide (cage < 8)
  | .portLinkStateChange port _ _ => decide (port < 8) || port == 47
  | .pauseFrame port _ _ => decide (port < 8) || port == 47
  | .frameReceive f => decide (f.port < 8) || f.port == 47
  | .egressSelect port => decide (port < 48)
  | .bankSwapPause port => decide (port < 8)
  | .parserStop port => decide (port < 8)
  | .bankSwap port => decide (port < 8)
  | .netPortDrainEnd port => decide (port < 8)
  | .breakpointHit core _ => decide (core < 36)
  | .watchpointHit core _ => decide (core < 36)
  | _ => true

/-- The tables that the spec numbers have their sizes: 24 bay channels and bays (R376), 8 leases (R271), 36 cores (R492). -/
def State.Sized (s : State) : Prop :=
  s.bays.ch.length = 24 ∧ s.bays.drives.length = 24 ∧ s.pair.leases.length = 8 ∧ s.dbg.cores.length = 36

/-- Audit entries, newest first, are numbered without a gap below n (R455). -/
def numbered : Nat → List AEntry → Prop
  | _, [] => True
  | n, e :: l => e.seq + 1 = n ∧ numbered e.seq l

/-- Each audit entry's chain value is the digest of its predecessor's and its own first 56 bytes (R457). -/
def chained : List AEntry → Prop
  | e :: p :: l => e.chain = digest8 (bytesLE 8 p.chain ++ e.bytes.take 56) ∧ chained (p :: l)
  | _ => True

/-- The audit log is whole: numbered without a gap up to the next sequence, chained, and within its capacity (R455, R457). -/
def Audit.Whole (a : Audit) : Prop := numbered a.next a.log ∧ chained a.log ∧ a.log.length ≤ 16777216

/-- The memories of the debug port have their one canonical form: addresses strictly rising (R499). -/
def Dbg.Canonical (d : Dbg) : Prop :=
  d.tagMem.wf = true ∧ d.hbm.wf = true ∧ ∀ c ∈ d.cores, Memory.wf c.mem = true

/-- PERST# is released at no channel whose power-good is withdrawn (R379). -/
def Bays.Powered (b : Bays) : Prop := ∀ c ∈ b.ch, c.perst = false → c.pg = true

/-- The debug port executes a request of sequence q: a probe is present, the service domain runs, the port's policy is not disabled, the unit
is not in POWER-STANDBY, and the request is neither the last one again nor the HALT that a hold still serves (R487, R488, R494, R500). -/
structure State.Hears (s : State) (q : Nat) : Prop where
  present : s.dbg.present = true
  powered : s.md.powered = true
  ready : s.md.svcReady = true
  fresh : ∀ k r, s.dbg.lastReq = some (k, r) → k ≠ q
  free : ¬(s.dbg.hold.isSome = true ∧ q = s.dbg.holdSeq)
  mode : s.md.mode ≠ .powerStandby
  policy : s.cfg.dbgPolicy ≠ 0

/-- The debug port's answer to a request, as the state keeps it (R487). -/
def State.answered (s : State) (q type status : Nat) (payload : List Nat) : Prop :=
  s.dbg.lastReq = some (q, { seq := q, type := type, status := status, payload := payload })

/-- The packet is received: its class is checked, its sequence recorded and its cells leave the sink (R62, R305). -/
def State.took (s : State) (h : Hdr) (ty : Nat) (a : Assoc) : State :=
  sinkCells a.id h.seq (receive h ty (if h.cls == permittedClass ty h.cls then s
    else updParser h.port (fun p => { p with badClass := p.badClass + 1 }) s))

/-- The state in which a stitch is replayed: its credits are freed, the stream has moved on, and its time is compared (R276, R283). -/
def State.stitched (s : State) (h : StHdr) (body : Nat) : State :=
  followTime h ((yarnFreed 7 (32 + body) s).onPair fun p => { p with rxStitch := p.rxStitch + 1 })

/-- The stitch of header h and body size is the next of the partner's stream, no cast-on is in progress, and this unit does not act on its
array (R276, R281). -/
structure State.Replays (s : State) (h : StHdr) (body : Nat) : Prop where
  yarn : s.yarnUp = true
  open_ : s.replays = true
  next : h.num = s.pair.rxStitch
  settled : (s.stitched h body).pair.castOn = none
  theirs : h.arr < 8 → ((s.stitched h body).lease h.arr).acting = false

/-- The replay has ended: the lag is judged, the stitch acknowledged, and a digest sent where a block is complete (R276, R282, R291). -/
def replayed (h : StHdr) (s : State) : State := sendDigest (ackStitch (judgeLag h s))

/-- The rows of the catalogue: the frame and the command (R453). -/
def catalogued : Sys2Proof.Instr → Option (MbF × MbCmd)
  | .getSetting f grp sid inst => some (f, .getSetting grp sid inst)
  | .setSetting f grp sid inst val => some (f, .setSetting grp sid inst val)
  | .unitIdentify f => some (f, .unitIdentify)
  | .getAlarms f => some (f, .getAlarms)
  | .clearConfigurationAlarm f => some (f, .clearConfigurationAlarm)
  | .changeMode f req => some (f, .changeMode req)
  | .moduleReset f => some (f, .moduleReset)
  | .controllerReset f => some (f, .controllerReset)
  | .operationStatus f op => some (f, .operationStatus op)
  | .operationCancel f op => some (f, .operationCancel op)
  | .setPortAddresses f port addrs => some (f, .setPortAddresses port addrs)
  | .writeIndirectionTable f mask entries => some (f, .writeIndirectionTable mask entries)
  | .writeDscpTables f mask rx tx => some (f, .writeDscpTables mask rx tx)
  | .associationReset f assoc => some (f, .associationReset assoc)
  | .listAssociations f first => some (f, .listAssociations first)
  | .principalCreate f r => some (f, .principalCreate r)
  | .principalModify f r => some (f, .principalModify r)
  | .principalRemove f idx => some (f, .principalRemove idx)
  | .principalList f first => some (f, .principalList first)
  | .generateUnitKey f => some (f, .generateUnitKey)
  | .installUnitCertificate f len cert key => some (f, .installUnitCertificate len cert key)
  | .setOutboundCredential f cred len psk ident => some (f, .setOutboundCredential cred len psk ident)
  | .arrayCreate f arr lay n shift bays => some (f, .arrayCreate arr lay n shift bays)
  | .arrayDelete f arr => some (f, .arrayDelete arr)
  | .assignDrive f bay role => some (f, .assignDrive bay role)
  | .markMemberFailed f arr pos => some (f, .markMemberFailed arr pos)
  | .arrayStatus f arr => some (f, .arrayStatus arr)
  | .listLostBlocks f arr first => some (f, .listLostBlocks arr first)
  | .listPatrolReports f arr first => some (f, .listPatrolReports arr first)
  | .importArray f mask => some (f, .importArray mask)
  | .volumeCreate f vol arr kind flags size allot => some (f, .volumeCreate vol arr kind flags size allot)
  | .volumeDelete f vol => some (f, .volumeDelete vol)
  | .volumeResize f vol size => some (f, .volumeResize vol size)
  | .copyStart f vol dstVol cred gate dst => some (f, .copyStart vol dstVol cred gate dst)
  | .copyCutover f op => some (f, .copyCutover op)
  | .listMapInconsistencies f vol first => some (f, .listMapInconsistencies vol first)
  | .writeGateList f list base change entries => some (f, .writeGateList list base change entries)
  | .readGateList f list => some (f, .readGateList list)
  | .setPolicyRecord f target idx p => some (f, .setPolicyRecord target idx p)
  | .clearQueueRecords f cls inst => some (f, .clearQueueRecords cls inst)
  | .setWitnessAddress f addr => some (f, .setWitnessAddress addr)
  | .setWitnessKey f key => some (f, .setWitnessKey key)
  | .handover f arr => some (f, .handover arr)
  | .startProofRun f => some (f, .startProofRun)
  | .clearNoClaimMarks f mask => some (f, .clearNoClaimMarks mask)
  | .readDivergenceSnapshot f off len => some (f, .readDivergenceSnapshot off len)
  | .pairStatus f => some (f, .pairStatus)
  | .bayPower f bay action => some (f, .bayPower bay action)
  | .removalRequest f bay step => some (f, .removalRequest bay step)
  | .locate f bay on => some (f, .locate bay on)
  | .powerStateRequest f ps => some (f, .powerStateRequest ps)
  | .powerStatus f => some (f, .powerStatus)
  | .exportSwatch f => some (f, .exportSwatch)
  | .writeSwatchEntry f check entry val => some (f, .writeSwatchEntry check entry val)
  | .readAuditEntries f first n => some (f, .readAuditEntries first n)
  | .exportAuditLog f first last => some (f, .exportAuditLog first last)
  | .sealAuditLog f last => some (f, .sealAuditLog last)
  | .readObject f addr off len => some (f, .readObject addr off len)
  | .freeze f us => some (f, .freeze us)
  | .releaseFreeze f => some (f, .releaseFreeze)
  | .stageSegment f off len ident => some (f, .stageSegment off len ident)
  | .verifyStagedImage f len => some (f, .verifyStagedImage len)
  | .activate f => some (f, .activate)
  | .discardStagedImage f => some (f, .discardStagedImage)
  | .takeOutOfService f cls inst => some (f, .takeOutOfService cls inst)
  | .returnToService f cls inst => some (f, .returnToService cls inst)
  | .runOnlineTest f cls inst code => some (f, .runOnlineTest cls inst code)
  | .engineRecall f cls inst => some (f, .engineRecall cls inst)
  | .setTime f t => some (f, .setTime t)
  | .getTime f => some (f, .getTime)
  | .installUnlockKey f idx principal key => some (f, .installUnlockKey idx principal key)
  | .removeUnlockKey f idx => some (f, .removeUnlockKey idx)
  | .debugPortPolicy f p => some (f, .debugPortPolicy p)
  | .revokeUnlock f => some (f, .revokeUnlock)
  | _ => none

/-- The slot record of a received frame (R439, R441). -/
def mbSlotOf (f : MbF) (c : MbCmd) (p : Nat) : Slot :=
  { path := f.path, slot := f.slot, tag := f.tag, opcode := mbOpcode c, principal := p, session := f.session, force := f.force }

/-- The state in which a frame is checked: its session is not idle (R436), and its slot is taken (R441). -/
def State.framed (s : State) (f : MbF) (x : Slot) : State := s.onMbx fun m => { m with
  sessions := if f.path == 1 then updWhere (fun e => e.id == f.session) (fun e => { e with idleAt := s.now + 600 * sec }) m.sessions else m.sessions
  slots := m.slots ++ [x] }

/-- The slot record of a command that executes: of scope S in a pair its result leaves as a stitch (R445); the object and its digest before
the change are noted (R456). -/
def mbHeld (f : MbF) (c : MbCmd) (p : Nat) (s : State) : Slot :=
  let x := { mbSlotOf f c p with shelf := mbShelf c && s.stitching }
  { x with obj := (s.framed f x).mbObj c, old := (s.framed f x).mbDigest c }

/-- The state in which a command of the catalogue takes effect. -/
def State.posted (s : State) (f : MbF) (c : MbCmd) (p : Nat) : State := s.framed f (mbHeld f c p s)

/-- A frame of principal p is taken up and passes every check of R442, and this unit executes it: the service domain runs, the path carries
frames, the slot is free, and, of scope S in a pair, the yarn is up and the command is not the other unit's to decide (R445). -/
structure State.Takes (s : State) (f : MbF) (c : MbCmd) (p : Nat) : Prop where
  powered : s.md.powered = true
  ready : s.md.svcReady = true
  sender : s.mbPrincipal f = some p
  free : s.slot? f.path f.slot = none
  passes : (s.framed f (mbSlotOf f c p)).mbCheck f.path p (some c) f.fieldsOk = none
  here : mbShelf c = true → (s.paired = true → s.inStep = true) ∧ s.proposes c = false

/-- The command has ended in the state t with the answer r: audit entry, stitch of the result, result frame (R441, R443, R445). -/
def State.ended (s : State) (f : MbF) (c : MbCmd) (p : Nat) (r : MbRes) (t : State) : State :=
  mbFinish { mbHeld f c p s with new := t.mbDigest c } r t

/-- The command is done: g has taken effect, and the result frame carries the payload. -/
def State.does (s : State) (f : MbF) (c : MbCmd) (p : Nat) (payload : List Nat) (g : State → State) : State :=
  s.ended f c p { payload := payload } (g (s.posted f c p))

/-- An operation has begun (R444): it has the next ID, which the result with code 1 carries, and g of that ID has taken effect. -/
def State.begins (s : State) (f : MbF) (c : MbCmd) (p obj : Nat) (g : Nat → State → State) : State :=
  s.ended f c p { code := 1, payload := bytesLE 8 s.mbx.nextOp } (g s.mbx.nextOp ((s.posted f c p).onMbx fun m => { m with
    opers := m.opers ++ [{ id := s.mbx.nextOp, opcode := mbOpcode c, started := s.time.dev, obj := obj }], nextOp := s.mbx.nextOp + 1 }))

/-- An operation may begin: fewer than 64 run (R444). -/
def State.mayBegin (s : State) : Prop := (s.mbx.opers.filter fun o => o.st == 0).length < 64

/-- The command waits in its slot: for the end of commands that it reset, or for drive writes (R453). -/
def mbWaits (f : MbF) (c : MbCmd) (await : Nat × Nat) (dcs : List Nat) (t : State) : State :=
  settleSlots (updSlot f.path f.slot (fun y => { y with new := t.mbDigest c, await := await, dcs := dcs }) t)

/-- The result follows the drive writes issued since the command took effect, at once where there is none. -/
def State.written (s : State) (f : MbF) (c : MbCmd) (p : Nat) (ids : List Nat) (t : State) : State :=
  if ids = [] then s.ended f c p {} t else mbWaits f c (0, 0) ids t

end Sys2Proof.Machine
end

