-- ==== Sys2Proof/Certificates/Slice0/Obligations.lean ====
section
/-! DEFINITION. The statements for the provers, each with the rules of the spec that it rests on. -/

open Sys2Proof Sys2Proof.Machine

/-- With commands waiting, a step runs the front command on the queue's rest; what is answered is what the command answers. -/
def Obligations.StepRunsFront : Prop :=
  (∀ (c : Instr) (q : List Instr) (s : State), step { s with pending := c :: q } = exec c { s with pending := q })
  ∧ (∀ (nbits w : Nat) (s : State), s.withFetchWord nbits w = s)

/-- With no command waiting, one CLK_TIME tick of 4 ns passes: elapsed time gains it, device time gains it while the module is powered
(R422), and nothing changes but time and the transistor model of the bays. That a step on an empty queue is a tick is the model's choice
(log 3). -/
def Obligations.IdleTick : Prop :=
  ∀ s : State, s.pending = [] → ∃ t, step s = .next t ∧ t.time.now = s.time.now + 4
    ∧ (s.md.powered = false → t.time.dev = s.time.dev) ∧ (s.md.powered = true → s.time.adj = 0 → t.time.dev = s.time.dev + 4 + s.time.frac / 1000000)
    ∧ t = { s with time := t.time, bays := t.bays } ∧ t.bays = { s.bays with ch := t.bays.ch }
    ∧ (s.md.powered = false → t.bays = s.bays)

/-- What reset leaves: no command waits, the audit log is empty and its next sequence is 1 (R455), every setting has its default (R452), the
swatch is as shipped (R462), no alarm of the configuration. That reset is the unit in POWER-STANDBY with a factory-fresh vault is the
model's choice (log 1). -/
def Obligations.ResetHolds : Prop :=
  State.reset.pending = [] ∧ State.reset.md.mode = .powerStandby ∧ State.reset.md.svcReady = false ∧ State.reset.audit.log = []
  ∧ State.reset.audit.next = 1 ∧ State.reset.audit.swEntries = swatchFactory ∧ State.reset.cfg.set = []
  ∧ (∀ sid inst, State.reset.setting sid inst = settingDefault sid inst) ∧ State.reset.io.assocs = [] ∧ State.reset.io.cmds = []
  ∧ State.reset.io.wb = [] ∧ State.reset.dbg.session = false ∧ State.reset.dbg.unlocked = none ∧ State.reset.pair.credits = 64

/-- At reset the numbered tables have their sizes, the audit log is whole, the debug memories are canonical, and PERST# is asserted at every
channel without power-good. -/
def Obligations.InvariantAtReset : Prop :=
  State.reset.Sized ∧ State.reset.audit.Whole ∧ State.reset.dbg.Canonical ∧ State.reset.bays.Powered

/-- Every step keeps the numbered tables: 24 bay channels and bays, 8 leases, 36 cores. -/
def Obligations.StepKeepsTables : Prop := ∀ s t : State, s.Sized → step s = .next t → t.Sized

/-- Every step, whatever the command, keeps the audit log whole: its entries are numbered without a gap up to the next sequence, each is
chained to its predecessor by SHA-256, and none is beyond the ring's capacity; and the next sequence never falls, resets of every kind
included (R455, R457). -/
def Obligations.StepKeepsAuditWhole : Prop :=
  ∀ s t : State, s.audit.Whole → step s = .next t → t.audit.Whole ∧ s.audit.next ≤ t.audit.next

/-- Every step keeps the memories that the debug port reads and writes in their canonical form (R499). -/
def Obligations.StepKeepsDebugMemories : Prop := ∀ s t : State, s.dbg.Canonical → step s = .next t → t.dbg.Canonical

/-- The module never releases PERST# while power-good is withdrawn: every step keeps PERST# asserted wherever power-good is withdrawn. When
power-good falls the release is cancelled, and the wait of 100 ms starts again after the next qualification (R379). -/
def Obligations.PerstNeedsPowerGood : Prop :=
  (∀ s t : State, s.bays.Powered → step s = .next t → t.bays.Powered)
  ∧ (∀ (bay : Nat) (s t : State), bay < 24 → s.bays.ch.length = 24 → (s.chan bay).st = .on → (s.chan bay).faultAt = none →
      exec (.powerGoodLoss bay) s = .next t → (t.chan bay).pg = false ∧ (t.chan bay).perst = true ∧ (t.chan bay).perstAt = none)
  ∧ (∀ (bay : Nat) (s : State), bay < 24 → (s.chan bay).pg = false → exec (.perstRelease bay) s = .next s)
  ∧ (∀ (bay q : Nat) (s : State), bay < 24 → s.bays.ch.length = 24 → (s.chan bay).st = .qualify → (s.chan bay).faultAt = none →
      (s.chan bay).qualAt = some q → q ≤ s.now →
      exec (.qualificationComplete bay) s
        = .next (rebudget (updChan bay (fun x => { x with
          st := .on, pg := true, atRisk := false, qualAt := none, onSince := some s.now
          perstAt := some (s.now + 100 * ms), vout := 12000 }) s)))

/-- No command changes the queue of waiting commands or elapsed time, none gives back a free value or an audit sequence already used. -/
def Obligations.ExecKeepsQueueAndTime : Prop :=
  ∀ (c : Instr) (s t : State), exec c s = .next t →
    t.pending = s.pending ∧ t.time.now = s.time.now ∧ s.free ≤ t.free ∧ s.audit.next ≤ t.audit.next

/-- Every command answers a next state in every state, unless it names a bay, port, cage or core that the unit does not have; such a command
faults, in every state. No command is refused. -/
def Obligations.CommandsComplete : Prop :=
  ∀ (c : Instr) (s : State), (hasPart c = true → ∃ t, exec c s = .next t) ∧ (hasPart c = false → ∃ f, exec c s = .fault f)

/-- Bytes stored in a memory read back, whatever the memory held, and every byte outside them is as it was. -/
def Obligations.MemoryReadsBack : Prop :=
  ∀ (m : Memory) (a k : Nat) (l : List Nat),
    (m.store a l).load k a l.length = l.map (· % 256)
    ∧ (∀ b, b < a ∨ a + l.length ≤ b → (m.store a l).get b = m.get b) ∧ (m.wf = true → Memory.wf (m.store a l) = true)

/-- A MEM WRITE to space 1 followed by a MEM READ of the same place, sent under another sequence, answers the bytes written (R499). -/
def Obligations.DebugWriteThenRead : Prop :=
  ∀ (q r core addr : Nat) (bytes : List Nat) (s t : State), s.Hears q → q ≠ r → ¬(s.dbg.hold.isSome = true ∧ r = s.dbg.holdSeq) →
    s.dbg.unlocked.isSome = true → spaceOk 1 core bytes.length 0 addr = true → s.md.mode = .maintenance →
    exec (.ddpMemWrite q 1 core 0 addr bytes) s = .next t →
    ∃ u, exec (.ddpMemRead r 1 core bytes.length 0 addr) t = .next u ∧ u.answered r 0x0B 0 (bytes.map (· % 256))

/-- The chain of an audit entry: 8 bytes of SHA-256 over the predecessor's 8 stored chain bytes and bytes 00h to 37h of the entry; the chain
before the first entry is 0 (R457). -/
def Obligations.AuditChain : Prop :=
  ∀ (e : AEntry) (s : State), s.audit.log.length < 16777216 → ∃ x : AEntry, (auditWrite e s).audit.log = x :: s.audit.log
    ∧ x.chain = Config.sha256 (bytesLE 8 ((s.audit.log.head?.map (·.chain)).getD 0) ++ x.bytes.take 56) % 2 ^ 64
    ∧ x.bytes.length = 64 ∧ x.seq = s.audit.next

/-- An audit entry is written, counted or preceded by a gap entry as the unsealed entries stand (R458). -/
def Obligations.AuditFills : Prop :=
  ∀ (e : AEntry) (s : State), s.audit.log.length + 2 ≤ 16777216 →
    (16777216 ≤ s.unsealed → (auditPush e s).audit.log = s.audit.log ∧ (auditPush e s).audit.leftOut = s.audit.leftOut + 1
      ∧ (auditPush e s).audit.gapDue = s.audit.gapDue + 1 ∧ (auditPush e s).audit.next = s.audit.next)
    ∧ (s.unsealed < 16777216 → s.audit.gapDue = 0 → ∃ x, (auditPush e s).audit.log = x :: s.audit.log ∧ x.kind = e.kind ∧ x.detail = e.detail
      ∧ (auditPush e s).audit.next = s.audit.next + 1)
    ∧ (s.unsealed < 16777216 → s.audit.gapDue ≠ 0 → ∃ x g, (auditPush e s).audit.log = x :: g :: s.audit.log ∧ x.kind = e.kind
      ∧ g.kind = 3 ∧ g.origin = 7 ∧ g.detail = s.audit.gapDue ∧ (auditPush e s).audit.gapDue = 0 ∧ (auditPush e s).audit.next = s.audit.next + 2)

/-- The state record of a core is 16 bytes: running or halted, the reason, the index, five reserved bytes of 0, the PC (R498). -/
def Obligations.CoreStateRecord : Prop :=
  ∀ c : Core, (coreRecord c).length = 16 ∧ (coreRecord c).getD 0 0 = (if c.halted then 1 else 0) ∧ (coreRecord c).getD 1 0 = c.reason
    ∧ (coreRecord c).getD 2 0 = c.idx ∧ (∀ i, 3 ≤ i → i < 8 → (coreRecord c).getD i 0 = 0)
    ∧ (∀ i, i < 8 → (coreRecord c).getD (8 + i) 0 = c.regs.getD 32 0 / 256 ^ i % 256)

/-- After 3 failed UNLOCKs within 60 s the port refuses UNLOCK for 60 s with status 08h; a port whose policy is disabled answers CONNECT and
DISCONNECT, with status 09h, and nothing else; no unlock succeeds at a key index with no key installed (R494). -/
def Obligations.UnlockLimits : Prop :=
  (∀ (q key t1 t2 : Nat) (s : State), s.Hears q → s.dbg.lockAt = none → key < 4 → s.dbg.fails = [t1, t2] → s.now < t1 + 60 * sec → s.now < t2 + 60 * sec →
    t1 ≤ s.now → t2 ≤ s.now →
    ∃ t, exec (.ddpUnlock q key false) s = .next t ∧ t.dbg.lockAt = some (s.now + 60 * sec))
  ∧ (∀ (q key t0 : Nat) (ok : Bool) (s : State), s.Hears q → key < 4 → s.dbg.lockAt = some t0 → s.now < t0 →
    ∃ t, exec (.ddpUnlock q key ok) s = .next t ∧ t.answered q 2 8 [] ∧ t.dbg.unlocked = s.dbg.unlocked)
  ∧ (∀ (q key : Nat) (ok : Bool) (s : State), s.Hears q → s.cfg.unlockKeys.getD key none = none →
    ∃ t, exec (.ddpUnlock q key ok) s = .next t ∧ t.dbg.unlocked = s.dbg.unlocked)
  ∧ (∀ (q : Nat) (s : State), s.dbg.present = true → s.md.powered = true → s.md.svcReady = true → s.cfg.dbgPolicy = 0 → s.dbg.hold = none →
      s.dbg.lastReq = none → s.md.mode ≠ .powerStandby →
    (∃ t, exec (.ddpConnect q) s = .next t ∧ t.answered q 1 9 []) ∧ (∃ t, exec (.ddpDisconnect q) s = .next t ∧ t.answered q 0x10 9 [])
    ∧ (∀ key ok, exec (.ddpUnlock q key ok) s = .next s) ∧ (∀ core, exec (.ddpHalt q core) s = .next s)
    ∧ (∀ core idx, exec (.ddpRegRead q core idx) s = .next s) ∧ (∀ core, exec (.ddpState q core) s = .next s))

/-- A packet that fails the GCM check is discarded and counted; it is not acknowledged and changes nothing else (R57). -/
def Obligations.FailedTagChangesNothing : Prop :=
  ∀ (h : Hdr) (a : Assoc) (s t : State), s.holdUp = false → s.serves = true →
    (s.io.assocs.find? fun a => a.id == h.assoc && a.src == h.src && !a.tcp) = some a → a.st = .live → h.phase = a.rxPhase → h.gcmOk = false →
    t = updParser h.port (fun p => { p with badTag := p.badTag + 1 }) s →
    (∀ q data ranges frame, exec (.cmd h q data ranges frame) s = .next t) ∧ (∀ data, exec (.push h data) s = .next t)
    ∧ exec (.ack h) s = .next t ∧ (∀ reason ranges, exec (.nak h reason ranges) s = .next t)
    ∧ (∀ id covered, exec (.vdtFlush h id covered) s = .next t) ∧ (∀ id status, exec (.flushAck h id status) s = .next t)
    ∧ (∀ reason offType len offSeq key off row, exec (.violation h reason offType len offSeq key off row) s = .next t)
    ∧ (∀ release, exec (.keepalive h release) s = .next t)

/-- The revoked-key list holds the 64 most recently revoked keys, newest first; a 65th drops the oldest; registering or granting a key removes
it from the list (R99). -/
def Obligations.RevokedKeys : Prop :=
  (∀ (k : Nat) (a : Assoc), (revokeKey k a).revoked = (k :: a.revoked.filter (· != k)).take 64)
  ∧ (∀ (k : Nat) (a : Assoc), a.revoked.length = 64 → k ∉ a.revoked → (revokeKey k a).revoked = k :: a.revoked.dropLast)
  ∧ (∀ (k : Nat) (a : Assoc), a.revoked.length ≤ 64 → (revokeKey k a).revoked.length ≤ 64)
  ∧ (∀ (k n : Nat) (a : Assoc), k ∉ (grantZone k n a).revoked)
  ∧ (∀ (id row : Nat) (a b : Assoc) (c : Cmd) (s t : State), s.windowReady id row 0xD0 = some (a, c) → c.sqe.key ≠ 0 → 4096 ≤ c.sqe.wlen →
      c.sqe.wlen ≤ 2 ^ 57 → c.sqe.wlen % 4096 = 0 → a.windows.any (·.key == c.sqe.key) = false → a.windows.length < 256 →
      exec (.windowRegister id row) s = .next (finishAdm c scOk (a.windows.length + 1) 0 t) → t = updAssoc id (fun x => { x with
        windows := x.windows ++ [{ key := c.sqe.key, len := c.sqe.wlen }], revoked := x.revoked.filter (· != c.sqe.key) }) s →
      t.assoc? id = some b → c.sqe.key ∉ b.revoked)

/-- In a parity layout the p parity strips and the N − p data strips of every row lie on N different member positions, one on each (R172). -/
def Obligations.RowPositionsDistinct : Prop :=
  ∀ p n r : Nat, p ≤ n → 0 < n →
    List.Perm ((List.range p).map (parityPos p n r) ++ (List.range (n - p)).map (dataPos p n r)) (List.range n)

/-- CONNECT, UNLOCK, DISCONNECT, packets that are not executed, the link, presence and the port's timers (R486 to R495, R489). -/
def Obligations.DebugSession : Prop :=
  (∀ (q : Nat) (s : State), s.Hears q → ∃ t, exec (.ddpConnect q) s = .next t ∧ t.dbg.session = true
    ∧ t.dbg.chal = some (s.freeVal % 2 ^ 256, s.now + 30 * sec) ∧ t.dbg.cores = s.dbg.cores ∧ t.dbg.unlocked = s.dbg.unlocked
    ∧ t.io = s.io ∧ t.pair = s.pair ∧ t.bays = s.bays ∧ t.audit = s.audit)
  ∧ (∀ (q key principal pk c until_ : Nat) (s : State), s.Hears q → key < 4 → (∀ t, s.dbg.lockAt = some t → t ≤ s.now) → s.dbg.session = true
      → s.dbg.chal = some (c, until_) → s.now < until_ → s.cfg.unlockKeys.getD key none = some (principal, pk) →
    ∃ t, exec (.ddpUnlock q key true) s = .next t ∧ t.dbg.unlocked = some (key, principal) ∧ t.dbg.chal = none
      ∧ t.answered q 2 0 (bytesLE 2 principal ++ zeros 6))
  ∧ (∀ (q key : Nat) (s : State), s.Hears q → key < 4 → (∀ t, s.dbg.lockAt = some t → t ≤ s.now) →
    ∃ t, exec (.ddpUnlock q key false) s = .next t ∧ t.dbg.unlocked = s.dbg.unlocked ∧ t.dbg.chal = none ∧ t.answered q 2 7 [])
  ∧ (∀ (q : Nat) (s : State), s.Hears q → exec (.ddpDisconnect q) s = .next (ddpAnswer q 0x10 0 [] (endSession s)))
  ∧ (∀ (q type : Nat) (s : State), s.Hears q → s.dbg.unlocked.isSome = true →
    ∃ t, exec (.ddpBadPacket q type true) s = .next t ∧ t.answered q type 5 [])
  ∧ (∀ (q type : Nat) (s : State), s.Hears q → exec (.ddpBadPacket q type false) s
      = .next { s with dbg := { s.dbg with out := s.dbg.out ++ [{ seq := q, type := type, status := 2 }] } })
  ∧ (∀ s : State, exec .linkReset s = .next s)
  ∧ (∀ s : State, exec (.debugPresenceChange true) s = .next { s with dbg := { s.dbg with present := true } })
  ∧ (∀ s : State, exec (.debugPresenceChange false) s = .next { endSession s with dbg := { (endSession s).dbg with present := false } })
  ∧ (∀ (t : Nat) (s : State), s.dbg.lockAt = some t → t ≤ s.now →
    exec .unlockLockoutExpiry s = .next { s with dbg := { s.dbg with lockAt := none } })
  ∧ (∀ (c t : Nat) (s : State), s.dbg.chal = some (c, t) → t ≤ s.now →
    exec .challengeExpiry s = .next { s with dbg := { s.dbg with chal := none } })
  ∧ (∀ (char : Nat) (s : State), exec (.consoleReceive char) s = .next { s with dbg := { s.dbg with crx := s.dbg.crx + 1 } })

/-- Halting, resuming, stepping and reading the state of a core, break- and watchpoints, the debug reset and the ends of a debug hold
(R496 to R503). -/
def Obligations.DebugCores : Prop :=
  (∀ (q core : Nat) (s : State), s.Hears q → s.dbg.unlocked.isSome = true → core < 36 → s.dbg.cores.length = 36 → s.md.mode = .maintenance →
    ∃ t, exec (.ddpHalt q core) s = .next t ∧ (t.dbg.cores.getD core {}).halted = true
      ∧ t.answered q 3 0 (coreRecord (t.dbg.cores.getD core {})))
  ∧ (∀ (q core : Nat) (s : State), s.Hears q → s.dbg.unlocked.isSome = true → core < 4 → s.md.mode = .solo →
    ∃ t, exec (.ddpHalt q core) s = .next t ∧ t.answered q 3 3 [] ∧ t.dbg.cores = s.dbg.cores)
  ∧ (∀ (q core : Nat) (s : State), s.Hears q → s.dbg.unlocked.isSome = true → core < 36 → (s.dbg.cores.getD core {}).halted = true →
    exec (.ddpResume q core) s = .next (ddpAnswer q 4 0 [] (releaseHeld (resumeCore core s))))
  ∧ (∀ (q core : Nat) (s : State), s.Hears q → s.dbg.unlocked.isSome = true → core < 36 → (s.dbg.cores.getD core {}).halted = true →
    s.dbg.cores.length = 36 →
    ∃ t, exec (.ddpStep q core) s = .next t ∧ (t.dbg.cores.getD core {}).halted = true ∧ (t.dbg.cores.getD core {}).reason = 2
      ∧ t.answered q 5 0 (coreRecord (t.dbg.cores.getD core {})))
  ∧ (∀ (q core : Nat) (s : State), s.Hears q → s.dbg.unlocked.isSome = true → core < 36 → (s.dbg.cores.getD core {}).halted = true →
    ∃ t, exec (.ddpState q core) s = .next t ∧ t.answered q 6 0 (coreRecord (s.dbg.cores.getD core {})) ∧ t.dbg.cores = s.dbg.cores)
  ∧ (∀ (q core idx addr : Nat) (s : State), s.Hears q → s.dbg.unlocked.isSome = true → core < 36 → s.dbg.cores.length = 36 → idx < 8 →
    ∃ t, exec (.ddpSetBreak q core idx true addr) s = .next t ∧ (idx, addr) ∈ (t.dbg.cores.getD core {}).brk
      ∧ (t.dbg.cores.getD core {}).regs = (s.dbg.cores.getD core {}).regs ∧ t.answered q 7 0 [])
  ∧ (∀ (q core idx access shift addr : Nat) (s : State), s.Hears q → s.dbg.unlocked.isSome = true → core < 36 → s.dbg.cores.length = 36 →
    idx < 4 → shift < 13 → access ≠ 0 →
    ∃ t, exec (.ddpSetWatch q core idx access shift addr) s = .next t
      ∧ (idx, access, shift, addr / 2 ^ shift * 2 ^ shift) ∈ (t.dbg.cores.getD core {}).wat ∧ t.answered q 8 0 [])
  ∧ (∀ (q core : Nat) (s : State), s.Hears q → s.dbg.unlocked.isSome = true → core < 4 → s.md.mode = .maintenance →
    ∃ t, exec (.ddpDebugReset q core) s = .next t
      ∧ t = ddpAnswer q 0x0F 0 [] (releaseHoldOf core (updCore core (fun _ => { reason := 5 })
          (debugEntry 0x4005 s.unlockKey (coreObj core) s))))
  ∧ (∀ (core idx addr : Nat) (s : State), core < 36 → s.dbg.cores.length = 36 → (s.dbg.cores.getD core {}).halted = false →
    (s.dbg.cores.getD core {}).brk = [(idx, addr)] → s.md.mode = .maintenance →
    ∃ t, exec (.breakpointHit core idx) s = .next t ∧ (t.dbg.cores.getD core {}).halted = true ∧ (t.dbg.cores.getD core {}).reason = 3
      ∧ (t.dbg.cores.getD core {}).idx = idx ∧ (t.dbg.cores.getD core {}).regs.getD 32 0 = addr)
  ∧ (∀ (core idx access shift addr : Nat) (s : State), core < 36 → s.dbg.cores.length = 36 → (s.dbg.cores.getD core {}).halted = false →
    (idx, access, shift, addr) ∈ (s.dbg.cores.getD core {}).wat → s.md.mode = .maintenance →
    ∃ t, exec (.watchpointHit core idx) s = .next t ∧ (t.dbg.cores.getD core {}).halted = true ∧ (t.dbg.cores.getD core {}).reason = 4
      ∧ (t.dbg.cores.getD core {}).idx = idx)
  ∧ (∀ (core idx : Nat) (s : State), 36 ≤ core →
    exec (.breakpointHit core idx) s = .fault .noSuchCore ∧ exec (.watchpointHit core idx) s = .fault .noSuchCore)
  ∧ (∀ (t : Nat) (s : State), s.dbg.held = some t → s.dbg.cores.any (·.halted) = false → s.dbg.session = false →
    exec .debugHoldEnd s = .next (releaseHold s))
  ∧ (∀ (core d : Nat) (s : State), s.dbg.hold = some (core, d) → d ≤ s.now → exec .debugHoldDeadline s = .next (debugHoldFails s))

/-- Registers and the address spaces of the debug port: what a read answers, and which bytes a write changes (R495, R496, R499). -/
def Obligations.DebugMemory : Prop :=
  (∀ (q core idx : Nat) (s : State), s.Hears q → s.dbg.unlocked.isSome = true → core < 36 → idx < 35 → (s.dbg.cores.getD core {}).halted = true →
    ∃ t, exec (.ddpRegRead q core idx) s = .next t ∧ t.answered q 9 0 (bytesLE 8 ((s.dbg.cores.getD core {}).regs.getD idx 0))
      ∧ t.dbg.cores = s.dbg.cores)
  ∧ (∀ (q core idx val : Nat) (s : State), s.Hears q → s.dbg.unlocked.isSome = true → core < 36 → idx < 35 → s.dbg.cores.length = 36 →
    (s.dbg.cores.getD core {}).halted = true →
    ∃ t, exec (.ddpRegWrite q core idx val) s = .next t
      ∧ (t.dbg.cores.getD core {}).regs = (s.dbg.cores.getD core {}).regs.set idx (val % 2 ^ 64)
      ∧ (∀ k, k ≠ core → t.dbg.cores.getD k {} = s.dbg.cores.getD k {}) ∧ t.dbg.tagMem = s.dbg.tagMem ∧ t.dbg.hbm = s.dbg.hbm)
  ∧ (∀ (q core idx val : Nat) (s : State), s.Hears q → s.dbg.unlocked.isSome = true → core < 36 → idx < 35 →
    (s.dbg.cores.getD core {}).halted = false →
    ∃ t, exec (.ddpRegWrite q core idx val) s = .next t ∧ t.answered q 0x0A 4 [] ∧ t.dbg.cores = s.dbg.cores)
  ∧ (∀ (q core len addr : Nat) (s : State), s.Hears q → s.dbg.unlocked.isSome = true → spaceOk 1 core len 0 addr = true →
    ∃ t, exec (.ddpMemRead q 1 core len 0 addr) s = .next t ∧ t.answered q 0x0B 0 (s.dbg.tagMem.load s.free addr len)
      ∧ t.dbg.tagMem = s.dbg.tagMem ∧ t.dbg.hbm = s.dbg.hbm)
  ∧ (∀ (q core addr : Nat) (bytes : List Nat) (s : State), s.Hears q → s.dbg.unlocked.isSome = true →
    spaceOk 0 core bytes.length 0 addr = true → (s.dbg.cores.getD core {}).halted = true → s.dbg.cores.length = 36 →
    ∃ t, exec (.ddpMemWrite q 0 core 0 addr bytes) s = .next t
      ∧ (∀ i (h : i < bytes.length), (t.dbg.cores.getD core {}).mem.get (addr + i) = some (BitVec.ofNat 8 bytes[i]))
      ∧ (∀ a, a < addr ∨ addr + bytes.length ≤ a → (t.dbg.cores.getD core {}).mem.get a = (s.dbg.cores.getD core {}).mem.get a)
      ∧ (∀ k, k ≠ core → t.dbg.cores.getD k {} = s.dbg.cores.getD k {}) ∧ t.dbg.tagMem = s.dbg.tagMem ∧ t.dbg.hbm = s.dbg.hbm)
  ∧ (∀ (q core addr : Nat) (bytes : List Nat) (s : State), s.Hears q → s.dbg.unlocked.isSome = true →
    spaceOk 1 core bytes.length 0 addr = true → s.md.mode = .maintenance ∨ s.md.mode = .safe →
    ∃ t, exec (.ddpMemWrite q 1 core 0 addr bytes) s = .next t
      ∧ (∀ i (h : i < bytes.length), t.dbg.tagMem.get (addr + i) = some (BitVec.ofNat 8 bytes[i]))
      ∧ (∀ a, a < addr ∨ addr + bytes.length ≤ a → t.dbg.tagMem.get a = s.dbg.tagMem.get a)
      ∧ t.dbg.hbm = s.dbg.hbm ∧ t.dbg.cores = s.dbg.cores)
  ∧ (∀ (q core addr : Nat) (bytes : List Nat) (s : State), s.Hears q → s.dbg.unlocked.isSome = true →
    spaceOk 2 core bytes.length 0 addr = true → s.md.mode = .maintenance ∨ s.md.mode = .safe →
    ∃ t, exec (.ddpMemWrite q 2 core 0 addr bytes) s = .next t
      ∧ (∀ i (h : i < bytes.length), t.dbg.hbm.get (addr + i) = some (BitVec.ofNat 8 bytes[i]))
      ∧ (∀ a, a < addr ∨ addr + bytes.length ≤ a → t.dbg.hbm.get a = s.dbg.hbm.get a)
      ∧ t.dbg.tagMem = s.dbg.tagMem ∧ t.dbg.cores = s.dbg.cores)
  ∧ (∀ (q core off addr : Nat) (bytes : List Nat) (s : State), s.Hears q → s.dbg.unlocked.isSome = true →
    ∃ t, exec (.ddpMemWrite q 3 core off addr bytes) s = .next t ∧ t.answered q 0x0C 3 [] ∧ t.dbg.cores = s.dbg.cores
      ∧ t.dbg.tagMem = s.dbg.tagMem ∧ t.dbg.hbm = s.dbg.hbm)
  ∧ (∀ (q slot : Nat) (f : MbFrame) (s : State), s.Hears q → s.dbg.unlocked.isSome = true → slot < 16 → f.ok = true →
    exec (.ddpMailbox q slot f) s = .next (ddpAnswer q 0x0D 0 [] (mbReceive
      { path := 4, slot := slot, tag := f.tag, opcode := f.opcode, principal := (s.dbg.unlocked.map (·.2)).getD 0, force := f.force }
      f.cmd f.fieldsOk s)))
  ∧ (∀ (q slot code seq : Nat) (x : Slot) (payload : List Nat) (s : State), s.Hears q → s.dbg.unlocked.isSome = true → slot < 16 →
    s.slot? 4 slot = some x → x.ready = some (code, seq, payload) →
    exec (.ddpMailboxResult q slot) s = .next (ddpAnswer q 0x0E 0 (resultFrame x code seq payload) (takeResult 4 slot s)))

/-- Handshakes, and what a host sends beside commands: acknowledgements, repeats, flushes, refusals of data, release (R46 to R68, R94, R95). -/
def Obligations.HostPackets : Prop :=
  (∀ (h : Hello) (s : State), s.lockedOut h.src = false → s.holdUp = false → s.md.mode = .solo → helloOk h = true →
    (s.io.assocs.find? fun a => a.src == h.src && a.hello == h.ident && a.st == .halfOpen) = none →
    (s.io.assocs.filter (·.st == .halfOpen)).length < 256 → (s.io.assocs.filter (·.st != .halfOpen)).length < 4096 →
    s.inBucket (bucketOf h.src s.newId) < 4 →
    ∃ t a, exec (.hello1 h) s = .next t ∧ t.io.assocs = s.io.assocs ++ [a] ∧ a.id = s.newId ∧ a.src = h.src ∧ a.st = .halfOpen
      ∧ a.ctx = s.newCtx ∧ a.maxPayload = min h.maxPayload (s.settingN 0x0287) ∧ a.created = s.now)
  ∧ (∀ (h : Hello) (a : Assoc) (s : State), s.lockedOut h.src = false → s.holdUp = false → s.serves = true → helloOk h = true →
    (s.io.assocs.find? fun a => a.id == h.resumed && a.src == h.src && a.st != .halfOpen && !a.tcp) = some a → a.resuming = true →
    a.hello = h.ident → exec (.hello1Resume h) s = .next (sendHello2 h.port a s))
  ∧ (∀ (h : Hdr) (a : Assoc) (s : State), (s.io.assocs.find? fun a => a.id == h.assoc && a.src == h.src && !a.tcp) = some a →
    s.serves = true → a.st = .halfOpen → keys3Stop a h s = none →
    exec (.keys3 h false true true) s = .next (freeAssoc a.id (failHandshake a.src s)))
  ∧ (∀ (h : Hdr) (a : Assoc) (s : State), (s.io.assocs.find? fun a => a.id == h.assoc && a.src == h.src && !a.tcp) = some a →
    s.serves = true → a.st = .halfOpen → keys3Stop a h s = none → a.authMode = 1 → s.authOk a = true → s.paired = false →
    ∃ t, exec (.keys3 h true false false) s = .next t ∧ ∃ s1, t = sendKeys4 a.id s1
      ∧ ∀ x, s1.assoc? a.id = some x → x.st = .live ∧ x.txNext = 1 ∧ x.resuming = false)
  ∧ (∀ (h : Hdr) (a : Assoc) (s : State), arrivalCheck h 5 s = .go a → exec (.ack h) s = .next (s.took h 5 a))
  ∧ (∀ (h : Hdr) (reason : Nat) (ranges : List (Nat × Nat)) (a : Assoc) (s : State), arrivalCheck h 6 s = .go a → reason ≠ 1 →
    exec (.nak h reason ranges) s = .next (s.took h 6 a))
  ∧ (∀ (h : Hdr) (ranges : List (Nat × Nat)) (a : Assoc) (s : State), arrivalCheck h 6 s = .go a →
    exec (.nak h 1 ranges) s = .next ((((((s.took h 6 a).assoc? a.id).elim [] (·.unacked)).filter fun p =>
      p.sentAt.isSome && (ranges.take 64).any (fun r => decide (r.1 ≤ p.seq) && decide (p.seq ≤ r.2))
        && !(p.lastRetx.any fun t => decide (s.now < t + a.srtt.getD a.rto))).map (·.seq)).foldl (fun st q => retransmit a.id q st) (s.took h 6 a)))
  ∧ (∀ (h : Hdr) (id covered : Nat) (a : Assoc) (s : State), arrivalCheck h 7 s = .go a →
    exec (.vdtFlush h id covered) s = .next (answerFlushes a.id
      (updAssoc a.id (fun x => { x with hostFlushes := x.hostFlushes ++ [(id, covered)] }) (s.took h 7 a))))
  ∧ (∀ (h : Hdr) (id status : Nat) (a : Assoc) (c : Cmd) (s : State), arrivalCheck h 8 s = .go a →
    ((s.took h 8 a).io.cmds.find? fun c => c.assoc == a.id && c.st == .placing && (c.flushSeq.map (·.1)) == some id) = some c →
    c.relayTo = false → c.matchAt = none →
    exec (.flushAck h id status) s = .next (let sc := if status == 1 && c.refused then scPlacement else c.sc
      finishVia 14 [c.row, sc] c sc c.dw0 c.dw1 c.more (s.took h 8 a)))
  ∧ (∀ (h : Hdr) (reason offType len offSeq key off row : Nat) (a : Assoc) (s : State), arrivalCheck h 9 s = .go a →
    exec (.violation h reason offType len offSeq key off row) s = .next (issueStitch 19 255 a.id row [reason, key, off, row, len]
      (updCmd a.id row (fun c => if c.st == .placing && offType != 0 && offSeq != 0 then { c with refused := true } else c)
        (recordViolation a.id reason key row (s.took h 9 a)))))
  ∧ (∀ (h : Hdr) (a : Assoc) (s : State), arrivalCheck h 12 s = .go a → exec (.keepalive h false) s = .next (s.took h 12 a))
  ∧ (∀ (h : Hdr) (data : Nat) (a : Assoc) (s : State), arrivalCheck h 2 s = .go a → zoneReason a h.key h.off h.len = none →
    h.row < a.floor → exec (.push h data) s = .next (s.took h 2 a))
  ∧ (∀ (h : Hdr) (data : Nat) (a : Assoc) (s : State), arrivalCheck h 2 s = .go a → zoneReason a h.key h.off h.len = none →
    a.floor ≤ h.row → a.doneRows.contains h.row = false → s.paired = false →
    (s.took h 2 a).paired = false →
    exec (.push h data) s = .next (confirmWrite a.id h.row (updAssoc a.id (fun x => { x with
      zone := x.zone.map fun (z : Zone) => { z with held := z.held ++ [{ row := h.row, off := h.off, len := h.len, data := data }] } })
      (s.took h 2 a))))
  ∧ (∀ (h : Hdr) (q : Sqe) (data : Nat) (ranges : List (Nat × Nat)) (frame : Option MbFrame) (a b : Assoc) (s : State),
    arrivalCheck h 1 s = .go a → h.row ≠ 0 → h.row ≤ a.floor + 65535 → a.floor ≤ h.row → a.doneRows.contains h.row = false →
    (s.took h 1 a).cmd? a.id h.row = none → a.releasing = false →
    (updAssoc a.id (rowArrived h.row) (s.took h 1 a)).assoc? a.id = some b →
    exec (.cmd h q data ranges frame) s
      = .next (acceptCmd b (cmdOf h q data ranges frame (s.took h 1 a)) (updAssoc a.id (rowArrived h.row) (s.took h 1 a))))

/-- The timers of an association and of the violation log act when their time has come (R52, R54, R58, R59, R63 to R68, R104). -/
def Obligations.TransportTimers : Prop :=
  (∀ (src : Nat) (s : State), exec (.helloLockoutExpiry src) s = .next { s with io := { s.io with
      lockouts := s.io.lockouts.filter fun l => !(l.1 == src && decide (l.2 ≤ s.now)) } })
  ∧ (∀ (id : Nat) (a : Assoc) (s : State), s.assoc? id = some a → a.st = .halfOpen → a.created + sec ≤ s.now →
    exec (.halfOpenExpiry id) s = .next (freeAssoc id s))
  ∧ (∀ (id t : Nat) (a : Assoc) (s : State), s.assoc? id = some a → a.st = .live → 0 < a.rxNew → a.rxOldest = some t → t ≤ s.now →
    exec (.acknowledgementDelayExpiry id) s = .next (sendAck id s))
  ∧ (∀ (id t : Nat) (a : Assoc) (s : State), s.assoc? id = some a → a.st = .live → a.gapSince = some t →
    a.lastNak.getD t + a.gapDelay ≤ s.now →
    exec (.gapDelayExpiry id) s = .next (sendNak id 1 ((gapRanges (a.rxSet.length + 1) (a.rxCum + 1) (sortNat a.rxSet)).take 64)
      (updAssoc id (fun x => { x with lastNak := some s.now }) s)))
  ∧ (∀ (id seq t : Nat) (a : Assoc) (p : TxPkt) (s : State), s.assoc? id = some a → a.unacked.find? (·.seq == seq) = some p → a.st = .live →
    p.timer = some t → t ≤ s.now → p.attempt < 16 →
    exec (.retransmissionTimerExpiry id seq) s
      = .next (retransmit id seq (updAssoc id (fun x => { x with rto := max x.rto (min (2 * p.armed) (10 * ms)) }) s)))
  ∧ (∀ (id seq t : Nat) (a : Assoc) (p : TxPkt) (s : State), s.assoc? id = some a → a.unacked.find? (·.seq == seq) = some p → a.st = .live →
    p.timer = some t → t ≤ s.now → 16 ≤ p.attempt → exec (.retransmissionTimerExpiry id seq) s = .next (suspend id s))
  ∧ (∀ (id : Nat) (a : Assoc) (s : State), s.assoc? id = some a → a.st = .suspended → a.releasing = false → a.suspAt + a.resumeWin ≤ s.now →
    exec (.resumeWindowExpiry id) s = .next (releaseAssoc id s))
  ∧ (∀ (id : Nat) (a : Assoc) (s : State), s.assoc? id = some a → a.st = .live → a.tcp = false → a.lastAct + a.keepalive ≤ s.now →
    exec (.keepaliveIntervalExpiry id) s
      = .next (sendSeq id 5 (.keepalive false) (updAssoc id (fun x => { x with lastAct := s.now }) s)))
  ∧ (∀ (id : Nat) (a : Assoc) (s : State), s.assoc? id = some a → a.st = .live → a.txPhaseAt + a.phaseTime ≤ s.now →
    ∃ t, exec (.keyPhaseTimeout id) s = .next t ∧ (∀ b, t.assoc? id = some b → b.txPhase = (a.txPhase + 1) % 256 ∧ b.txPhaseAt = s.now)
      ∧ (t.assoc? id).isSome = true ∧ t = { s with io := t.io })
  ∧ (∀ (id : Nat) (a : Assoc) (s : State), s.assoc? id = some a → a.rxPrevKey = true → a.rxPrevUntil ≤ s.now →
    exec (.previousKeyDiscard id) s = .next (updAssoc id (fun x => { x with rxPrevKey := false }) s))
  ∧ (∀ s : State, s.audit.violEnd ≤ s.now → s.audit.violOut = 0 → exec .violationIntervalEnd s
      = .next { s with audit := { s.audit with violN := 0, violOut := 0, violEnd := s.audit.violEnd + sec } })
  ∧ (∀ s : State, s.audit.violEnd ≤ s.now → s.audit.violOut ≠ 0 → exec .violationIntervalEnd s
      = .next (auditPush { kind := 5, origin := 7, detail := s.audit.violOut }
        { s with audit := { s.audit with violN := 0, violOut := 0, violEnd := s.audit.violEnd + sec } }))

/-- Window and zone commands, and the ends of their drains (R82 to R90, R96, R97). -/
def Obligations.WindowsAndZones : Prop :=
  (∀ (id row : Nat) (a : Assoc) (c : Cmd) (s : State), s.windowReady id row 0xD0 = some (a, c) → c.sqe.key ≠ 0 → 4096 ≤ c.sqe.wlen →
    c.sqe.wlen ≤ 2 ^ 57 → c.sqe.wlen % 4096 = 0 → a.windows.any (·.key == c.sqe.key) = false → a.windows.length < 256 →
    exec (.windowRegister id row) s = .next (finishAdm c scOk (a.windows.length + 1) 0 (updAssoc id (fun x => { x with
      windows := x.windows ++ [{ key := c.sqe.key, len := c.sqe.wlen }], revoked := x.revoked.filter (· != c.sqe.key) }) s)))
  ∧ (∀ (id row : Nat) (a : Assoc) (c : Cmd) (s : State), s.windowReady id row 0xD0 = some (a, c) → c.sqe.key ≠ 0 → 4096 ≤ c.sqe.wlen →
    c.sqe.wlen ≤ 2 ^ 57 → c.sqe.wlen % 4096 = 0 → a.windows.any (·.key == c.sqe.key) = false → 256 ≤ a.windows.length →
    exec (.windowRegister id row) s = .next (finishAdm c scWindowFull 0 0 s))
  ∧ (∀ (id row : Nat) (a : Assoc) (c : Cmd) (w : Window) (s : State), s.windowReady id row 0xD1 = some (a, c) →
    a.windows.find? (·.key == c.sqe.key) = some w → w.closing = true →
    exec (.windowRevoke id row) s = .next (updAssoc id (fun x => { x with
      windows := updWhere (·.key == c.sqe.key) (fun y => { y with revokeRows := y.revokeRows ++ [row] }) x.windows })
      (updCmd id row (fun x => { x with st := .waiting }) s)))
  ∧ (∀ (id row : Nat) (a : Assoc) (c : Cmd) (w : Window) (s : State), s.windowReady id row 0xD1 = some (a, c) →
    a.windows.find? (·.key == c.sqe.key) = some w → w.closing = false →
    (s.io.cmds.filter fun x => x.assoc == id && x.row != row && s.usesWindow x c.sqe.key && !x.dispatched && x.st != .placing
      && x.st != .waitStitch && (!s.inStep || s.ordersCmd a x)) = [] →
    exec (.windowRevoke id row) s = .next (updAssoc id (fun x => { x with
      windows := updWhere (·.key == c.sqe.key) (fun y => { y with closing := true, revokeRows := [row], cancelled := 0 }) x.windows })
      (updCmd id row (fun x => { x with st := .waiting }) s)))
  ∧ (∀ (id key : Nat) (a : Assoc) (w : Window) (s : State), s.assoc? id = some a →
    a.windows.find? (fun w => w.key == key && w.closing) = some w →
    (s.io.cmds.any fun x => x.assoc == id && s.usesWindow x key && !w.revokeRows.contains x.row) = false →
    exec (.windowDrainEnd id key) s = .next (endRevokes id w.revokeRows w.cancelled
      (updAssoc id (fun x => revokeKey key { x with windows := x.windows.filter (·.key != key) }) s)))
  ∧ (∀ (id row : Nat) (a : Assoc) (c : Cmd) (s : State), s.windowReady id row 0xD2 = some (a, c) → a.zone = none →
    s.inStep = false → 1 ≤ s.zoneFree →
    exec (.zoneGrant id row) s = .next (finishVia 18 [row, c.sqe.key, min (bits c.sqe.cdw12 4 0) s.zoneFree] c scOk
      (min (bits c.sqe.cdw12 4 0) s.zoneFree) 0 false (updAssoc id (grantZone c.sqe.key (min (bits c.sqe.cdw12 4 0) s.zoneFree)) s)))
  ∧ (∀ (id row : Nat) (a : Assoc) (c : Cmd) (z : Zone) (s : State), s.windowReady id row 0xD3 = some (a, c) → a.zone = some z →
    z.key = c.sqe.key → ∃ f, exec (.zoneRelease id row) s = .next (updAssoc id (fun x => { x with zone := x.zone.map f })
      (updCmd id row (fun x => { x with st := .waiting }) s)) ∧ (∀ y : Zone, (f y).closing = true) ∧ (∀ y : Zone, row ∈ (f y).releaseRows))
  ∧ (∀ (id : Nat) (a : Assoc) (z : Zone) (s : State), s.assoc? id = some a → a.zone = some z → z.closing = true → z.closedAt + 10 * ms ≤ s.now →
    (s.io.cmds.filter fun x => x.assoc == id && zoneWrite a x && x.key == z.key && (x.st == .accepted || x.st == .needData)
      && !s.writeComplete a x && (!s.inStep || s.ordersCmd a x)) = [] →
    exec (.zoneDataWaitExpiry id) s = .next (updAssoc id (fun x => { x with zone := x.zone.map fun (y : Zone) => { y with
      cancelled := y.cancelled + 0, held := y.held.filter fun _ => true } }) s))
  ∧ (∀ (id : Nat) (a : Assoc) (c : Cmd) (z : Zone) (s : State), s.assoc? id = some a → a.zone = some z → z.closing = true →
    z.closedAt + 10 * ms ≤ s.now → s.paired = false → s.inStep = false →
    (s.io.cmds.filter fun x => x.assoc == id && zoneWrite a x && x.key == z.key && (x.st == .accepted || x.st == .needData)
      && !s.writeComplete a x && (!s.inStep || s.ordersCmd a x)) = [c] →
    ∃ f, exec (.zoneDataWaitExpiry id) s = .next (cancelRevoked a (updAssoc id (fun x => { x with zone := x.zone.map f }) s) c)
      ∧ ∀ y : Zone, (f y).cancelled = y.cancelled + 1)
  ∧ (∀ (id : Nat) (a : Assoc) (z : Zone) (s : State), s.assoc? id = some a → a.zone = some z → z.closing = true →
    (s.io.cmds.any fun x => x.assoc == id && zoneWrite a x && x.key == z.key) = false →
    exec (.zoneDrainEnd id) s = .next (endRevokes id z.releaseRows z.cancelled (updAssoc id (fun x => revokeKey z.key { x with zone := none }) s)))

/-- The admin commands of the command service (R116 to R158). -/
def Obligations.AdminCommands : Prop :=
  (∀ (id row : Nat) (a : Assoc) (c : Cmd) (s : State), s.adminReady id row 0x02 = some (a, c) → bit c.sqe.cdw10 15 = true →
    exec (.getLogPage id row) s
      = .next (placeAdmin c c.sqe.logLen (((s.logBytes a c.sqe.lid c.sqe.nsid).drop c.sqe.logOff).take c.sqe.logLen) s.drawn))
  ∧ (∀ (id row : Nat) (a : Assoc) (c : Cmd) (s : State), s.adminReady id row 0x06 = some (a, c) → bits c.sqe.cdw10 7 0 = 1 →
    exec (.identify id row) s = .next (placeAdmin c 4096 (identController s) s))
  ∧ (∀ (id row : Nat) (a : Assoc) (c : Cmd) (s : State), s.adminReady id row 0x06 = some (a, c) → bits c.sqe.cdw10 7 0 = 2 →
    exec (.identify id row) s = .next (placeAdmin c 4096 (identList c.sqe.nsid s) s))
  ∧ (∀ (id row : Nat) (a : Assoc) (c : Cmd) (s : State), s.adminReady id row 0x08 = some (a, c) → row ≤ a.arrFloor → s.inStep = false →
    (s.io.cmds.find? fun k => k.assoc == id && k.row != row && k.sqe.qid == bits c.sqe.cdw10 15 0 && k.sqe.cid == bits c.sqe.cdw10 31 16) = none →
    exec (.abort id row) s = .next (endAbort id row 1 s))
  ∧ (∀ (id row : Nat) (a : Assoc) (c k : Cmd) (s : State), s.adminReady id row 0x08 = some (a, c) → row ≤ a.arrFloor → s.inStep = false →
    (s.io.cmds.find? fun k => k.assoc == id && k.row != row && k.sqe.qid == bits c.sqe.cdw10 15 0 && k.sqe.cid == bits c.sqe.cdw10 31 16) = some k →
    s.ordersCmd a k = true →
    exec (.abort id row) s = .next (reachMatch id k.row (some row) false false (updCmd id row (fun k => { k with st := .waiting }) s)))
  ∧ (∀ (id row : Nat) (a : Assoc) (c : Cmd) (s : State), s.adminReady id row 0x09 = some (a, c) → c.sqe.fid = 0x07 →
    (s.io.cmds.any fun k => k.assoc == id && decide (min 32 (bits c.sqe.cdw11 15 0 + 1) < k.sqe.qid)) = false →
    exec (.setFeatures id row) s = .next (finishAdm c scOk ((min 32 (bits c.sqe.cdw11 15 0 + 1) - 1) * 65537) 0
      (updAssoc id (fun a => { a with ioQueues := min 32 (bits c.sqe.cdw11 15 0 + 1) }) s)))
  ∧ (∀ (id row : Nat) (a : Assoc) (c : Cmd) (s : State), s.adminReady id row 0x09 = some (a, c) → c.sqe.fid = 0x0F →
    exec (.setFeatures id row) s = .next (let k := ceilDiv c.sqe.cdw11 100 * 100
      finishAdm c scOk 0 0 (updAssoc id (fun a => { a with kato := k, katoAt := if k == 0 then none else some (s.now + k * ms) }) s)))
  ∧ (∀ (id row : Nat) (a : Assoc) (c : Cmd) (s : State), s.adminReady id row 0x0A = some (a, c) →
    exec (.getFeatures id row) s = .next (finishAdm c scOk (featureDw0 a c.sqe.fid c.sqe.cdw11 (bits c.sqe.cdw10 10 8 == 1)) 0 s))
  ∧ (∀ (id row : Nat) (a : Assoc) (c : Cmd) (e : Event) (rest : List Event) (s : State), s.adminReady id row 0x0C = some (a, c) →
    a.events = e :: rest → exec (.asynchronousEventRequest id row) s
      = .next (finishAdm c scOk (e.etype + e.info * 256 + e.page * 65536) 0 (updAssoc id (fun x => { x with events := rest }) s)))
  ∧ (∀ (id row : Nat) (a : Assoc) (c : Cmd) (s : State), s.adminReady id row 0x0C = some (a, c) → a.events = [] →
    exec (.asynchronousEventRequest id row) s = .next (updCmd id row (fun k => { k with st := .waiting }) s))
  ∧ (∀ (id row : Nat) (a : Assoc) (c : Cmd) (s : State), s.adminReady id row 0x14 = some (a, c) → bits c.sqe.cdw10 3 0 ≠ 15 → s.io.st = none →
    exec (.deviceSelfTest id row) s = .next (finishAdm c scOk 0 0 ((s.selfTestBays c.sqe.nsid).foldl
      (fun st b => issueDc b 6 .selfTest 0 0 .selfTest [] st) (s.onIo fun i => { i with st := some {
        assoc := id, code := bits c.sqe.cdw10 3 0, nsid := c.sqe.nsid
        paused := s.io.cmds.any fun k => !(k.assoc == id && k.row == row) && !(k.admin && k.sqe.opcode == 0x0C) } }))))
  ∧ (∀ (id row : Nat) (a : Assoc) (c : Cmd) (s : State), s.adminReady id row 0x14 = some (a, c) → bits c.sqe.cdw10 3 0 = 15 →
    exec (.deviceSelfTest id row) s = .next (finishAdm c scOk 0 0 (abortSelfTest (fun _ => true) 1 s)))
  ∧ (∀ (t : SelfTest) (s : State), s.io.st = some t → t.paused = true → s.io.cmds = [] → t.idleAt.getD s.now + 10 * ms ≤ s.now →
    exec .selfTestResume s = .next { s with io := { s.io with st := some { t with paused := false } } })
  ∧ (∀ (result segment : Nat) (t : SelfTest) (s : State), s.io.st = some t → t.paused = false →
    exec (.selfTestEnd result segment) s = .next { s with io := { s.io with st := none },
                                                          audit := { s.audit with selfRes := ((t.code, result, segment) :: s.audit.selfRes).take 20 } })
  ∧ (∀ (id row : Nat) (a : Assoc) (c : Cmd) (s : State), s.adminReady id row 0x18 = some (a, c) →
    exec (.keepAlive id row) s = .next (finishAdm c scOk 0 0 s))
  ∧ (∀ (id t : Nat) (a : Assoc) (s : State), s.assoc? id = some a → a.kato ≠ 0 → s.activationHold = false → s.inStep = false →
    a.katoAt = some t → t ≤ s.now → exec (.katoExpiry id) s
      = .next (assocReset id (issueStitch 13 255 id 0 [0, 3, 0] (issueStitch 3 255 id 0 [4, id] s))))

/-- The I/O commands: what each does when it may execute (R71, R120 to R136, R288, R309, R361). -/
def Obligations.IoCommands : Prop :=
  (∀ (id row : Nat) (c : Cmd) (s : State), s.ready id row .accepted = some c → c.admin = false → c.sqe.opcode = 0 →
    ((s.flushArrs c).any fun n => (s.arr? n).elim false Arr.offline) = false →
    exec (.flush id row) s = .next (settleMedia (updCmd id row (fun k => { k with st := .waitMedia, dispatched := true }) s)))
  ∧ (∀ (id row : Nat) (a : Assoc) (c : Cmd) (v : Volume) (ar : Arr) (s : State), s.ioReady id row 0x01 .accepted = some (a, c, v, ar) →
    ar.offline = false → a.tcp = false → exec (.write id row) s = .next (updCmd id row (fun k => { k with st := .needData }) s))
  ∧ (∀ (id row : Nat) (a : Assoc) (c : Cmd) (v : Volume) (ar : Arr) (s : State), s.ioReady id row 0x01 .accepted = some (a, c, v, ar) →
    ar.offline = false → a.tcp = true → c.inl = false → exec (.write id row) s
      = .next (enqueue (s.netPort a) (s.settingN 0x028D) 80 (.tcpR2t id row (transferLen v c.sqe)) (updCmd id row (fun k => { k with st := .needData }) s)))
  ∧ (∀ (id row : Nat) (a : Assoc) (c : Cmd) (v : Volume) (ar : Arr) (s : State), s.ioReady id row 0x01 .needData = some (a, c, v, ar) →
    s.writeComplete a c = true → ar.offline = false → piErrors v c.sqe 0 (writeBlocks a c v) = none →
    exec (.writeExecutable id row) s
      = .next (makeExecutable c (((List.range (writeBlocks a c v).length).map (· + c.sqe.slba)).zip (writeBlocks a c v)) s))
  ∧ (∀ (id row sc : Nat) (a : Assoc) (c : Cmd) (v : Volume) (ar : Arr) (s : State), s.ioReady id row 0x01 .needData = some (a, c, v, ar) →
    s.writeComplete a c = true → ar.offline = false → piErrors v c.sqe 0 (writeBlocks a c v) = some sc →
    exec (.writeExecutable id row) s = .next (endIo c sc 0 0 false (dropPush id row s)))
  ∧ (∀ (id row : Nat) (c : Cmd) (s : State), s.ready id row .executable = some c → s.mayStart c = true →
    exec (.writeStart id row) s = .next (startWrite c s))
  ∧ (∀ (id row : Nat) (c : Cmd) (s : State), s.ready id row .executable = some c → s.mayStart c = false →
    exec (.writeStart id row) s = .next s)
  ∧ (∀ (id row : Nat) (a : Assoc) (c : Cmd) (v : Volume) (ar : Arr) (s : State), s.ioReady id row 0x02 .accepted = some (a, c, v, ar) →
    ar.offline = false → exec (.read id row) s
      = .next (updCmd id row (fun k => { k with st := .waitAdmission, wait := .admission, relayTo := c.source == 1 && a.singleSided }) s))
  ∧ (∀ (id row : Nat) (a : Assoc) (c : Cmd) (v : Volume) (ar : Arr) (s : State), s.ioReady id row 0x02 .waitAdmission = some (a, c, v, ar) →
    c.wait = .admission → ar.offline = false → s.admits (s.readPort a c) (s.readClass v.no) (transferLen v c.sqe) = true →
    a.policy.shaperOn = false → exec (.readAdmission id row) s = .next (startRead c s))
  ∧ (∀ (id row : Nat) (a : Assoc) (c : Cmd) (v : Volume) (ar : Arr) (s : State), s.ioReady id row 0x02 .waitAdmission = some (a, c, v, ar) →
    c.wait = .admission → ar.offline = false → s.admits (s.readPort a c) (s.readClass v.no) (transferLen v c.sqe) = false →
    exec (.readAdmission id row) s = .next (updPort (s.readPort a c) (s.readClass v.no) (fun r => { r with defer := r.defer + 1 })
      (updCmd id row (fun k => { k with wait := .deferred }) s)))
  ∧ (∀ (id : Nat) (a b : Assoc) (k c : Cmd) (v : Volume) (ar : Arr) (s : State), s.assoc? id = some a →
    (s.io.cmds.filter fun k => k.assoc == id && k.wait == .shaper) = [k] → s.ioReady id k.row 0x02 .waitAdmission = some (b, c, v, ar) →
    0 ≤ shaperNow a s.now → s.admits (s.readPort a c) (s.readClass v.no) (transferLen v c.sqe) = true →
    ∃ f, exec (.shaperRelease id) s = .next (startRead { c with wait := .none } (updAssoc id f s))
      ∧ ∀ x, (f x).shaper = { credit := creditSpend (shaperNow a s.now) (s.placeCost a (transferLen v c.sqe)) a.policy.lo, t := s.now, waiting := false })
  ∧ (∀ (id row : Nat) (a : Assoc) (c : Cmd) (v : Volume) (ar : Arr) (s : State), s.ioReady id row 0x08 .accepted = some (a, c, v, ar) →
    ar.offline = false → v.prot = false → c.sqe.deac = false → exec (.writeZeroes id row) s
      = .next (makeExecutable c ((List.range c.sqe.nlb).map fun i => (c.sqe.slba + i, zeroBlk v)) s.drawn))
  ∧ (∀ (id row : Nat) (a : Assoc) (c : Cmd) (v : Volume) (ar : Arr) (s : State), s.ioReady id row 0x09 .accepted = some (a, c, v, ar) →
    ar.offline = false → bit c.sqe.cdw11 2 = false → exec (.datasetManagement id row) s = .next (endIo c scOk 0 0 false s))
  ∧ (∀ (id row : Nat) (a : Assoc) (c : Cmd) (v : Volume) (ar : Arr) (s : State), s.ioReady id row 0x09 .accepted = some (a, c, v, ar) →
    ar.offline = false → bit c.sqe.cdw11 2 = true → ∃ c2, c2 = { c with ranges := c.ranges.take (bits c.sqe.cdw10 7 0 + 1) } ∧
    exec (.datasetManagement id row) s = .next (makeExecutable c2
      (c2.ranges.flatMap fun r => (List.range r.2).map fun i => (r.1 + i, zeroBlk v)) (c2.ranges.foldl (fun st r => deallocRows v ar r.1 r.2 st) s)))
  ∧ (∀ (id row : Nat) (a : Assoc) (c : Cmd) (v : Volume) (ar : Arr) (s : State), s.ioReady id row 0x0C .accepted = some (a, c, v, ar) →
    ar.offline = false → exec (.verify id row) s = .next (startRead c s))
  ∧ (∀ (id row : Nat) (op : Nat → Nat → Instr) (a : Assoc) (c : Cmd) (v : Volume) (ar : Arr) (s : State),
    op = Instr.read → s.ioReady id row 0x02 .accepted = some (a, c, v, ar) → ar.offline = true →
    exec (op id row) s = .next (endIo c scInternal 0 0 true s))

/-- NVMe/TCP: connections, capsules, data and closing (R159 to R162). -/
def Obligations.NvmeTcp : Prop :=
  (∀ (src port p qid id : Nat) (r : Principal) (a : Assoc) (s : State), s.md.mode = .solo → s.principal? p = some r → 3 ≤ p → bit r.auth 0 = true →
    s.tcpOpen < 256 → s.assoc? id = some a → a.tcp = true → a.src = src → a.principal = p → qid ≠ 0 → qid ≤ a.ioQueues →
    a.tcpConns.contains qid = false → exec (.nvmeTcpConnection src port true (some p) (some id) qid) s
      = .next (enqueue port (s.settingN 0x028D) 80 (.tcpAccept src port qid)
        (updAssoc id (fun x => { x with tcpConns := x.tcpConns ++ [qid], lastAct := s.now }) s)))
  ∧ (∀ (src port qid : Nat) (p c : Option Nat) (s : State), s.md.mode = .solo →
    exec (.nvmeTcpConnection src port false p c qid) s = .next (enqueue port (s.settingN 0x028D) 80 (.tcpRefuse src port) s))
  ∧ (∀ (id len data : Nat) (q : Sqe) (ranges : List (Nat × Nat)) (a b : Assoc) (s : State), s.assoc? id = some a → a.tcp = true → s.serves = true →
    a.releasing = false → a.tcpConns.contains q.qid = true → 8192 < len →
    (updAssoc id (fun x => rowArrived a.arrFloor { x with lastAct := s.now }) s).assoc? id = some b →
    ∃ s1, exec (.nvmeTcpCommandCapsule id q len data ranges) s = .next (finish id a.arrFloor scField 0 0 false s1))
  ∧ (∀ (id data : Nat) (q : Sqe) (ranges : List (Nat × Nat)) (a b : Assoc) (s : State), s.assoc? id = some a → a.tcp = true → s.serves = true →
    a.releasing = false → a.tcpConns.contains q.qid = true →
    (updAssoc id (fun x => rowArrived a.arrFloor { x with lastAct := s.now }) s).assoc? id = some b →
    exec (.nvmeTcpCommandCapsule id q 0 data ranges) s = .next (acceptCmd b
      { assoc := id, row := a.arrFloor, sqe := q, cls := s.settingN 0x028D, xlen := 64, source := 2, ranges := ranges, inl := false, blocks := [] }
      (updAssoc id (fun x => rowArrived a.arrFloor { x with lastAct := s.now }) s)))
  ∧ (∀ (id row off len data : Nat) (a : Assoc) (c : Cmd) (s : State), s.assoc? id = some a → s.cmd? id row = some c → a.tcp = true →
    c.isWrite = true → c.inl = false → c.dispatched = false → s.paired = false → exec (.nvmeTcpH2cData id row off len data) s
      = .next (updAssoc id (fun x => { x with lastAct := s.now })
        (updCmd id row (fun k => { k with h2c := k.h2c ++ [{ row := row, off := off, len := len, data := data }] }) s)))
  ∧ (∀ (id : Nat) (a : Assoc) (s : State), s.assoc? id = some a → a.tcp = true → a.tcpConns.contains 0 = true →
    exec (.nvmeTcpConnectionClose id 0) s = .next (releaseAssoc id (updAssoc id (fun x => { x with tcpConns := [] })
      (updAssoc id (fun x => { x with tcpConns := x.tcpConns.filter (· != 0) }) s))))
  ∧ (∀ (id qid : Nat) (a : Assoc) (s : State), s.assoc? id = some a → a.tcp = true → qid ≠ 0 → a.tcpConns.contains qid = true →
    exec (.nvmeTcpConnectionClose id qid) s = .next (((s.io.cmds.filter fun c => c.assoc == id && c.sqe.qid == qid).map (·.row)).foldl
      (resetCommand id true) (updAssoc id (fun x => { x with tcpConns := x.tcpConns.filter (· != qid) }) s)))

/-- Drive commands of this unit: their completion, time-outs and orphans, and what a member's drive does to its position
(R151, R186, R188, R280, R393, R474 to R476). -/
def Obligations.DriveCommands : Prop :=
  (∀ (dc status : Nat) (ok fatal : Bool) (blocks : List Blk) (d : DrvCmd) (s : State), s.dc? dc = some d →
    exec (.driveCompletion dc ok status fatal blocks) s = .next (removalFlush d.bay (driveEnds dc ok status fatal blocks s)))
  ∧ (∀ (dc status : Nat) (blocks : List Blk) (d : DrvCmd) (s : State), s.dc? dc = some d → d.subAt ≠ none → d.op = .write → d.retry = false →
    driveEnds dc false status false blocks s
      = stitchDrive d 1 status (updDc dc (fun x => { x with subAt := none, abortAt := none, retry := true, queued := s.now }) s))
  ∧ (∀ (dc status : Nat) (blocks : List Blk) (d : DrvCmd) (s : State), s.dc? dc = some d → d.subAt ≠ none → d.op = .read →
    driveEnds dc true status false blocks s = afterDrive d true blocks (stitchDrive d 0 status (removeDc dc s)))
  ∧ (∀ (dc t : Nat) (d : DrvCmd) (s : State), s.dc? dc = some d → d.abortAt = some t → t ≤ s.now →
    exec (.orphanTimerExpiry dc) s = .next (removalFlush d.bay (orphanDc d s)))
  ∧ (∀ (dc t : Nat) (d : DrvCmd) (s : State), s.dc? dc = some d → d.subAt = some t → d.abortAt = none → t + 8 * sec ≤ s.now →
    exec (.driveCommandTimeout dc) s
      = .next (issueDc d.bay 6 (.abort dc) 0 0 .other [] (updDc dc (fun x => { x with abortAt := some (s.now + ms) }) s)))
  ∧ (∀ (bay t : Nat) (d : Drive) (s : State), bay < 24 → s.drive? bay = some d → d.resetting = some t → t ≤ s.now →
    exec (.driveReadyTimeout bay) s = .next (failBay bay (updDrive bay (fun x => { x with resetting := none }) s)))
  ∧ (∀ (arr pos : Nat) (a : Arr) (x : Pos) (s : State), s.arr? arr = some a → a.pos[pos]? = some x → s.acts arr = true → memberGone x.st = false →
    (s.chan x.bay).present = false → exec (.memberAbsent arr pos) s = .next (endDcs (fun d => d.bay == x.bay) (absentMember arr pos s)))
  ∧ (∀ (arr pos bay : Nat) (a : Arr) (d : Drive) (l : DriveLabel) (s : State), bay < 24 → s.arr? arr = some a → s.drive? bay = some d → d.label = some l →
    s.acts arr = true → d.ready = true → d.downAt = none → d.ok = true → l.arr = arr → l.pos = pos → l.arrayId = a.id → l.spare = false →
    (a.pos.getD pos {}).bay ≠ bay → (s.chan bay).remStep = 0 →
    exec (.memberReturn arr pos bay) s = .next (returnMember arr pos bay l.gen d.serial s))
  ∧ (∀ (arr pos t : Nat) (a : Arr) (x : Pos) (s : State), s.arr? arr = some a → a.pos[pos]? = some x → x.st = .absent → s.acts arr = true →
    x.graceAt = some t → t ≤ s.now → exec (.returnGraceExpiry arr pos) s = .next (failMember arr pos (issueStitch 3 arr 0 0 [3, pos] s)))
  ∧ (∀ (arr pos : Nat) (s : State), s.acts arr = true → exec (.keeperCopyComplete arr pos) s
      = .next (stitchMember arr pos (updArr arr (fun a => { a with keepers := updWhere (·.pos == pos) (fun k => { k with live := true }) a.keepers }) s)))
  ∧ (∀ (arr : Nat) (vols : List ImpVol) (a : Arr) (s : State), s.arr? arr = some a → a.importing = true →
    (ledgerNow arr (relabel arr (superblockNow arr (vols.foldl (importVolume arr) (updArr arr (fun x => { x with importing := false }) s))))).mbx.opers = [] →
    exec (.importEnd arr vols) s = .next (ledgerNow arr (relabel arr (superblockNow arr
      (vols.foldl (importVolume arr) (updArr arr (fun x => { x with importing := false }) s))))))
  ∧ (∀ (bay arr pos : Nat) (s : State), 24 ≤ bay → exec (.driveReadyTimeout bay) s = .fault .noSuchBay
      ∧ exec (.memberReturn arr pos bay) s = .fault .noSuchBay)

/-- Drains of direct rows, the dirty-region bitmap, and the work on rows: resynchronisation, rebuild and patrol (R177 to R199). -/
def Obligations.RowWork : Prop :=
  (∀ (arr vol row : Nat) (a : Arr) (v : Volume) (s : State), s.arr? arr = some a → s.vol? vol = some v → v.packed = false → v.arr = arr →
    s.acts arr = true → a.offline = false → a.jobs = [] → a.drains = [] → a.resync = [] →
    ((s.rowBlocks a v row).any fun x => some x.1.order == s.oldestDirty arr) = true →
    ∃ s1 d, exec (.drainRow arr vol row) s = .next (drainIssue arr row s1) ∧ d.row = row ∧ d.vol = vol
      ∧ d.orders = (s.rowBlocks a v row).map (fun x => x.1.order) ∧ ∃ s2, s1 = updArr arr (fun x => { x with drains := x.drains ++ [d] }) s2)
  ∧ (∀ (arr row : Nat) (a : Arr) (d : Drain) (s : State), s.arr? arr = some a → a.drains.find? (·.row == row) = some d → d.issued = true →
    d.writes = [] → parityStrips a.layout = 2 → a.rowMissing d = [] → d.methods = [] →
    ∃ s1, exec (.drainRowComplete arr row) s = .next (settleMedia (cleanOrders d.orders s1)))
  ∧ (∀ (arr region : Nat) (a : Arr) (s : State), s.arr? arr = some a → a.bitWait.contains region = true →
    (s.io.dcs.any fun d => d.why == .metaData arr) = false → (s.pair.stitches.any fun x => x.kind == 5 && x.arr == arr) = false →
    s.acts arr = true → a.drains = [] →
    exec (.bitmapSetRecorded arr region) s = .next (updArr arr (fun x => { x with
      bitWait := x.bitWait.filter (· != region), bitsLed := (region :: x.bitsLed).eraseDups
      bitsPart := if s.shadowed arr then (region :: x.bitsPart).eraseDups else x.bitsPart
      drains := x.drains.map fun d => { d with regions := d.regions.filter (· != region) } }) s))
  ∧ (∀ (arr region : Nat) (a : Arr) (s : State), s.arr? arr = some a → a.bits.contains region = true → a.bitWait.contains region = false →
    a.resync.contains region = false → s.acts arr = true → s.regionIdle a region = true →
    (assocGet region a.regAct).getD 0 + 5 * sec ≤ s.now →
    ∃ s1, exec (.bitmapIdleExpiry arr region) s = .next (writeBits arr 0 region
        (issueStitch 5 arr 0 0 [0, region] (issueStitch 3 arr 0 0 [2, region] s1)))
      ∧ ∀ b, s1.arr? arr = some b → region ∉ b.bits ∧ region ∉ b.bitsVault ∧ region ∉ b.bitsLed ∧ region ∉ b.bitsPart)
  ∧ (∀ (arr row : Nat) (a : Arr) (s : State), s.arr? arr = some a → s.acts arr = true → a.offline = false → a.drains = [] → a.jobs = [] →
    a.nextResync = some row → a.resyncTouched.contains row = false →
    exec (.resyncRow arr row) s = .next (startJob arr { row := row, kind := 0 } s))
  ∧ (∀ (arr row r0 : Nat) (a : Arr) (s : State), s.arr? arr = some a → a.rebuildRow = some r0 → a.allocRow r0 = row → row < a.passLimit →
    s.acts arr = true → a.offline = false → a.drains = [] → a.jobs = [] →
    exec (.rebuildRow arr row) s = .next (startJob arr { row := row, kind := 2 } s))
  ∧ (∀ (arr row r0 : Nat) (a : Arr) (s : State), s.arr? arr = some a → a.rebuildRow = some r0 → a.passLimit ≤ a.allocRow r0 →
    s.acts arr = true → a.offline = false → a.drains = [] → a.jobs = [] → exec (.rebuildRow arr row) s = .next (passEnd arr s))
  ∧ (∀ (arr row : Nat) (a : Arr) (s : State), s.arr? arr = some a → s.acts arr = true → a.offline = false → a.drains = [] → a.jobs = [] →
    s.io.wb = [] → a.allocRow a.patrolRow = row → row < a.rowEnd →
    exec (.patrolRow arr row []) s = .next (ledgerSoon arr (updArr arr (fun x =>
      if x.rowEnd ≤ x.allocRow x.patrolRow && x.patrolSkip.isEmpty then { x with patrolRow := 0, patrolStart := s.time.dev } else x)
      (updArr arr (fun x => { x with patrolRow := row + 1, patrolSkip := x.patrolSkip })
        (updArr arr (fun x => { x with patrolRep := x.patrolRep.filter fun r => !(r.row == row && r.reported) }) s)))))

/-- Copies of a volume: passes, the final pass, and the packets of the copy's association (R202 to R204). -/
def Obligations.VolumeCopies : Prop :=
  (∀ (op : Nat) (c : Copy) (s : State), s.copy? op = some c → c.todo = [] → c.rows = [] → c.final = none →
    exec (.copyPassEnd op) s = .next (copyFeed op (updCopy op (fun x => { x with
      pass := x.pass + 1, lastBytes := x.bytes, lastDone := true, bytes := 0, todo := sortNat x.changed, changed := [] })
      (issueStitch 22 (s.arrOf c.vol) 0 0 [op, c.pass, 0xFFFFFFFF] s))))
  ∧ (∀ (op t : Nat) (c : Copy) (s : State), s.copy? op = some c → c.todo = [] → c.rows = [] → c.final = some t → s.now ≤ t → c.cutTag = none →
    exec (.copyFinalPassEnd op) s = .next (startHeld (endOper op 1 0 ((stitchCopyEnd c 0 s).onIo fun i => { i with
      copies := i.copies.filter (·.op != op), wtHold := i.wtHold.filter (· != c.vol) }))))
  ∧ (∀ (op t : Nat) (c : Copy) (s : State), s.copy? op = some c → c.final = some t → t ≤ s.now → c.cutTag = none →
    exec (.copyFinalPassTimeout op) s = .next (copyFeed op (startHeld (updCopy op (fun x => { x with final := none, cutTag := none })
      (s.onIo fun i => { i with wtHold := i.wtHold.filter (· != c.vol) })))))
  ∧ (∀ (op a : Nat) (paired : Bool) (c : Copy) (s : State), s.copy? op = some c → c.assocSt = 1 →
    exec (.copyAssociationPacket op (.hello2 true a paired)) s
      = .next (copySend 512 (.copyKeys op a) (updCopy op (fun x => { x with assocSt := 2, assocId := a, twin := paired }) s)))
  ∧ (∀ (op a : Nat) (paired : Bool) (c : Copy) (s : State), s.copy? op = some c → c.assocSt = 1 →
    exec (.copyAssociationPacket op (.hello2 false a paired)) s = .next (failCopy op 0x0104 s))
  ∧ (∀ (op q row range : Nat) (c : Copy) (s : State), s.copy? op = some c → c.assocSt = 3 → c.rxSeqs.contains q = false →
    assocGet row c.rows = some range →
    ∃ s1, exec (.copyAssociationPacket op (.resp q row 0)) s
      = .next (copyFeed op (issueStitch 22 (s.arrOf c.vol) 0 0 [op, c.pass, range] (updCopy op (fun x => { x with
        rows := x.rows.filter (·.1 != row), todo := x.todo.filter (· != range), last := some range, bytes := x.bytes + 1048576 }) s1))))

/-- Packed volumes: chunks, rows, checkpoints, frogging and the map cache (R210 to R234, R250). -/
def Obligations.PackedVolumes : Prop :=
  (∀ (vol chunk engine len crc : Nat) (v : Volume) (a : Arr) (s : State), s.vol? vol = some v → s.arr? v.arr = some a → a.offline = false →
    v.packed = true → v.prot = true → s.acts v.arr = true → s.chunkOrders v chunk ≠ [] → s.inService 0x3002 engine = true →
    s.chunkDealloc v chunk = false → ∀ zero, exec (.chunkCompressed vol chunk engine len crc zero) s
      = .next (placeChunk vol
        { chunk := chunk, cnt := chunkGranules true len, check := crc % 64, t := s.now, orders := s.chunkOrders v chunk, engine := engine } false s))
  ∧ (∀ (vol chunk engine len crc : Nat) (v : Volume) (a : Arr) (s : State), s.vol? vol = some v → s.arr? v.arr = some a → a.offline = false →
    v.packed = true → v.prot = false → s.acts v.arr = true → s.chunkOrders v chunk ≠ [] → s.inService 0x3002 engine = true →
    exec (.chunkCompressed vol chunk engine len crc true) s = .next (zeroChunk vol chunk (s.chunkOrders v chunk) s))
  ∧ (∀ (vol t : Nat) (v : Volume) (s : State), s.vol? vol = some v → s.acts v.arr = true → oldestAsm v.asm = some t →
    t + s.settingN 0x0586 vol * ms ≤ s.now →
    exec (.rowTimeout vol false) s = .next (forceRow vol false (issueStitch 3 v.arr 0 0 [1, vol] s)))
  ∧ (∀ (vol skein row : Nat) (v : Volume) (a : Arr) (w : RowW) (s : State), s.vol? vol = some v → s.arr? v.arr = some a →
    v.rows.find? (fun r => r.skein == skein && r.row == row) = some w → s.acts v.arr = true → w.writes = [] →
    (v.rows.any fun r => r.skein == skein && decide (r.row < row) && skein != 65535) = false → w.failed = 0 → w.jour = true → a.jWait = [] →
    ∃ s3, exec (.rowCommit vol skein row) s = .next (checkJournal v.arr (checkFreed vol (settleMedia (finishClose vol skein s3))))
      ∧ ∃ data, s3 = issueStitch 10 v.arr 0 0 ([vol, skein, row] ++ data)
        (w.chunks.foldl (commitChunk vol skein) (updVol vol (fun x => { x with rows := x.rows.filter (· != w) }) s)))
  ∧ (∀ (arr : Nat) (a : Arr) (s : State), s.arr? arr = some a → s.acts arr = true → a.offline = false →
    (s.io.vols.any fun v => v.arr == arr && v.packed) = true → a.ckptAt + 60 * sec ≤ s.now →
    exec (.checkpointIntervalExpiry arr) s = .next (startCheckpoint arr s))
  ∧ (∀ (arr q : Nat) (a : Arr) (s : State), s.arr? arr = some a → a.ckptRun = some q → (s.io.dcs.any fun d => d.why == .metaData arr) = false →
    a.jWait = [] → s.acts arr = true →
    ∃ s2, exec (.checkpointEnd arr) s = .next (issueStitch 11 arr 0 0 [a.ckpt + 1, 1] (ledgerNow arr (updArr arr (fun x => { x with
      ckpt := a.ckpt + 1, replay := q, ckptRun := none, jRecs := x.jRecs.filter fun r => decide (q ≤ r.blk) })
      (journal arr [{ kind := 3, value := a.ckpt + 1 }] s2)))))
  ∧ (∀ (vol skein : Nat) (v : Volume) (a : Arr) (s : State), s.vol? vol = some v → s.arr? v.arr = some a → v.frog = none → s.acts v.arr = true →
    a.offline = false → s.frogUrgent v = true → s.frogCandidates v a = [skein] → (a.ext.getD skein {}).index2 = [] →
    exec (.frogSelect vol skein) s = .next (checkFreed vol (issueStitch 12 v.arr 0 0 [vol, 1, skein, 0]
      (updVol vol (fun w => { w with frog := some skein, frogLast := 0 }) (updExt v.arr skein (fun x => { x with skein := .frogging }) s)))))
  ∧ (∀ (vol page : Nat) (entries : List (Nat × Nat)) (v : Volume) (s : State), s.vol? vol = some v → v.packed = true →
    s.pageCached vol page = false →
    ∃ (s1 : State) (l : List Cmd), exec (.mapPageFetch vol page entries) s = .next (l.foldl (fun st c => startRead c st) s1)
      ∧ s1 = cachePage vol page (updVol vol (fun w => { w with
        map := (entries.filter fun e => e.1 / 512 == page && e.2 != 0) ++ w.map.filter fun e => e.1 / 512 != page }) s))

/-- A grant that answers a request of this unit, refusals, records, renewals and stop points (R262 to R273, R402). -/
def Obligations.WitnessAndLeases : Prop :=
  (∀ (m : WMsg) (s : State), s.takesWitness m = true → exec (.grant m) s = .next (renewTies (granted m (noteWitness m m.holder s))))
  ∧ (∀ (m : WMsg) (s : State), m.valid = false → m.unit = s.md.slot → exec (.grant m) s = .next s ∧ exec (.refuse m) s = .next s
    ∧ exec (.state m) s = .next s)
  ∧ (∀ (m : WMsg) (r : WReq) (s : State), s.takesWitness m = true → s.request? m.echo = some r → r.kind = 1 →
    exec (.refuse m) s = .next (answered m.arr m.echo (noteWitness m m.holder s)))
  ∧ (∀ (m : WMsg) (r : WReq) (s : State), s.takesWitness m = true → s.request? m.echo = some r → r.kind = 3 →
    exec (.refuse m) s = .next (handFailed m.arr false (answered m.arr m.echo (noteWitness m m.holder s))))
  ∧ (∀ (m : WMsg) (r : WReq) (s : State), s.takesWitness m = true → s.request? m.echo = some r → r.kind ≠ 4 →
    exec (.state m) s = .next (renewTies (settleRecord m.arr m.holder m.epoch (answered m.arr m.echo (noteWitness m m.holder s)))))
  ∧ (∀ (arr t : Nat) (s : State), (s.lease arr).acting = true → (s.lease arr).renewAt = some t → t ≤ s.now → (s.lease arr).tie = false →
    t + (s.lease arr).dur / 4 < (s.lease arr).ts + (s.lease arr).dur →
    exec (.leaseRenewalTimer arr) s = .next (renew arr (updLease arr (fun x => { x with
      missed := (s.pair.wreqs.filter fun r => r.arr == arr && r.kind == 1).length, renewAt := some (t + (s.lease arr).dur / 4) }) s)))
  ∧ (∀ (m : OutMsg) (rest : List OutMsg) (s : State), s.pair.busQ = m :: rest → exec .witnessPoll s
      = .next { s with pair := { s.pair with busQ := rest }, sw := { s.sw with wire := s.sw.wire ++ [(48, m)] } })
  ∧ (∀ s : State, s.pair.busQ = [] → exec .witnessPoll s = .next s)
  ∧ (∀ (arr : Nat) (s : State), (s.lease arr).acting = true → (s.lease arr).tie = false → s.stopPoint arr ≤ s.now →
    (stopActing arr (s.onPair fun p => { p with hand := p.hand.filter (·.arr != arr) })).pair.tieLoser = false →
    exec (.stopPoint arr) s = .next (stopActing arr (s.onPair fun p => { p with hand := p.hand.filter (·.arr != arr) })))
  ∧ (∀ (arr : Nat) (s : State), (s.lease arr).acting = true → s.now < s.stopPoint arr → exec (.stopPoint arr) s = .next s)
  ∧ (∀ (m : WMsg) (s : State), s.yarnUp = true → exec (.relay false m true) s
      = .next (putWitness (fun path => .witness path 1 m.arr m.ctr m.epoch m.dur m.shadowed)
        (s.onPair fun p => { p with relayed := (m.ctr, m.arr) :: p.relayed })))
  ∧ (∀ (m : WMsg) (s : State), s.yarnUp = true → exec (.relay false m false) s = .next (sendYarn 7 64 (.promise m.arr (s.time.dev + m.dur * us))
      (updLease m.arr (fun l => { l with promised := some (s.now + m.dur * us + 500 * us + m.dur * us / 5000), claimed := false }) s)))
  ∧ (∀ (arr expiry : Nat) (r : WReq) (s : State), (s.pair.wreqs.filter fun r => r.arr == arr && r.kind == 1) = [r] → (s.lease arr).acting = true →
    s.time.dev ≤ expiry → s.now < r.t + actFor (s.lease arr).dur →
    exec (.promise arr expiry) s = .next (updLease arr (fun x => { x with byPromise := true })
      (gainLease arr (s.lease arr).epoch (s.lease arr).shadowed r.t (s.lease arr).dur (answered arr r.ctr s))))
  ∧ (∀ (arr t : Nat) (s : State), s.yarnUp = false → s.pair.tieWinner = true → (s.lease arr).acting = false → (s.lease arr).promised = some t →
    t ≤ s.now → exec (.promiseExpiry arr) s = .next (checkSolo (takeOver arr (s.lease arr).marion (updLease arr (fun x => { x with
      acting := true, tie := true, shadowed := false, marion := false, promised := none, ts := s.now, dur := s.leaseDur
      renewAt := some (s.now + s.leaseDur / 4) }) s))))
  ∧ (∀ (arr t : Nat) (s : State), (s.lease arr).acting = false → (s.lease arr).claimed = false → (s.lease arr).noClaim = false → s.md.mode = .solo →
    (s.lease arr).waitAt = some t → t ≤ s.now → exec (.claimWaitExpiry arr) s = .next (claim arr (s.lease arr).partEpoch true s))
  ∧ (∀ (t : Nat) (s : State), s.md.mode = .solo → s.pair.soloNoLease = true → s.pair.queryAt = some t → t ≤ s.now →
    exec .witnessQueryRepeat s = .next (queryAll (s.onPair fun p => { p with queryAt := some (s.now + sec) })))

/-- The yarn's links, heartbeats, stitch acknowledgements, forwarded copies and digests (R274 to R276, R284 to R292, R298). -/
def Obligations.YarnTraffic : Prop :=
  (∀ (link : Nat) (s : State), link < 2 → s.pair.links.getD link false = true → s.pair.lastRx.getD link 0 + 200 * us ≤ s.now →
    (s.onPair fun p => { p with links := p.links.set link false }).yarnUp = false →
    exec (.yarnLinkDown link) s = .next (yarnLost (s.onPair fun p => { p with links := p.links.set link false })))
  ∧ (∀ (link : Nat) (s : State), link < 2 → s.pair.links.getD link false = false → s.inService 0x3008 link = true → s.pair.hbSince.getD link 0 ≠ 0 →
    s.now < s.pair.lastRx.getD link 0 + 200 * us → s.pair.hbSince.getD link 0 + ms ≤ s.now → s.yarnUp = true →
    exec (.yarnLinkUp link) s = .next { s with pair := { s.pair with links := s.pair.links.set link true } })
  ∧ (∀ (link : Nat) (s : State), link < 2 → s.md.fw = true → s.md.held = 0 → s.md.powered = true → s.pair.lastTx.getD link 0 + 10 * us ≤ s.now →
    exec (.heartbeatTimer link) s = .next (jointYield ((s.onPair fun p => { p with lastTx := p.lastTx.set link s.now }).onSw fun w => { w with
      wire := w.wire ++ [(32 + link, OutMsg.heartbeat link s.md.mode s.md.mains (s.pair.txStitch - 1) s.img.dialect (s.md.shelf.getD 0) s.cfg.poolUse
        s.md.slot (s.md.mode == .boot && s.md.assembled) (s.time.st == 3))] })))
  ∧ (∀ (link high dialect shelf pool slot : Nat) (mode : Mode) (mains endBoot locked : Bool) (s : State), link < 2 → s.md.fw = true →
    slot ≠ s.md.slot → s.md.mode = .solo →
    ∃ f, exec (.heartbeat link mode mains high dialect shelf pool slot endBoot locked) s = .next (jointYield (s.onPair f))
      ∧ (f s.pair).pMode = some mode ∧ (f s.pair).pMains = mains ∧ (f s.pair).pHigh = high ∧ (f s.pair).pDialect = some dialect
      ∧ (f s.pair).lastRx = s.pair.lastRx.set link s.now ∧ (f s.pair).leases = s.pair.leases)
  ∧ (∀ (num : Nat) (x : Stitch) (s : State), s.pair.stitches.find? (·.num == num) = some x → x.t + 20 * us ≤ s.now → s.yarnUp = true →
    exec (.stitchRetransmitTimer num) s = .next (resendStitch (if s.pair.links.getD (1 - x.link) false then 1 - x.link else x.link) s x))
  ∧ (∀ (num credits : Nat) (s : State), num < s.pair.txStitch → s.stitching = true → s.io.cmds = [] → s.io.assocs = [] → s.pair.credits ≠ 0 →
    ∃ s1, exec (.stitchAck num credits) s = .next (checkDigests s1) ∧ s1.pair.credits = credits ∧ ∀ x ∈ s1.pair.stitches, num < x.num)
  ∧ (∀ (id row : Nat) (s : State), (updAssoc id (fun a => { a with missSince := none, missCount := 0 }) (yarnFreed 7 64 s)).cmd? id row = none →
    exec (.confirm id row) s = .next (updAssoc id (fun a => { a with missSince := none, missCount := 0 }) (yarnFreed 7 64 s)))
  ∧ (∀ (id row : Nat) (c : Cmd) (s : State),
    (updAssoc id (fun a => { a with missSince := none, missCount := 0 }) (yarnFreed 7 64 s)).cmd? id row = some c → c.st = .waitConfirm →
    exec (.confirm id row) s = .next (checkDigests (markAcked id row (finish id row scOk 0 0 false
      (updCmd id row (fun k => { k with confirmed := true, missed := false })
        (updAssoc id (fun a => { a with missSince := none, missCount := 0 }) (yarnFreed 7 64 s)))))))
  ∧ (∀ (id row : Nat) (a : Assoc) (c : Cmd) (s s1 : State),
    s1 = updAssoc id (fun a => { a with missSince := some (a.missSince.getD s.now), missCount := a.missCount + 1 }) (yarnFreed 7 64 s) →
    s1.assoc? id = some a → s1.cmd? id row = some c →
    exec (.missing id row) s = .next (sendForward a c (updCmd id row (fun k => { k with missed := true }) s1)))
  ∧ (∀ (id row cls key off : Nat) (q : Sqe) (blocks : List Blk) (a : Assoc) (s s0 : State), s0 = yarnFreed 3 (128 + 4112 * blocks.length) s →
    s0.assoc? id = some a → row < a.floor → exec (.forward id row cls key off q blocks) s = .next s0)
  ∧ (∀ (id row cls key off : Nat) (q : Sqe) (a b : Assoc) (s s0 : State), s0 = yarnFreed 3 128 s → s0.assoc? id = some a → a.floor ≤ row →
    a.doneRows.contains row = false → s0.cmd? id row = none → (updAssoc id (rowArrived row) s0).assoc? id = some b → q.opcode = 0x02 → q.qid ≠ 0 →
    ∃ c, exec (.forward id row cls key off q []) s = .next (acceptCmd b c (updAssoc id (rowArrived row) s0))
      ∧ c.assoc = id ∧ c.row = row ∧ c.sqe = q ∧ c.cls = cls ∧ c.key = key ∧ c.off = off ∧ c.source = 1)
  ∧ (∀ (id row t : Nat) (a : Assoc) (c : Cmd) (s : State), s.assoc? id = some a → s.cmd? id row = some c → c.twinWait = some t → t ≤ s.now →
    s.inStep = true → c.hostCopy = false →
    exec (.twinWaitExpiry id row) s = .next (sendYarn 7 64 (.missing id row) (updCmd id row (fun k => { k with twinWait := none }) s)))
  ∧ (∀ (id : Nat) (a : Assoc) (s : State), s.assoc? id = some a → s.inStep = false → a.singleSided = false → a.st = .live → s.io.cmds = [] →
    ∃ (s1 : State) (l : List Cmd), exec (.singleSidedEntry id) s = .next (l.foldl (fun st (c : Cmd) => forwardCmd id c.row (tryOrder id c.row
        (updCmd id c.row (fun k => { k with twinHold := none }) st))) s1)
      ∧ s1 = issueStitch 17 255 id 0 [2] (updAssoc id (fun x => { x with singleSided := true }) s))
  ∧ (∀ (id row t : Nat) (a : Assoc) (c : Cmd) (s : State), s.assoc? id = some a → s.cmd? id row = some c → c.twinHold = some t → t ≤ s.now →
    s.inStep = false → exec (.twinlessHoldExpiry id row) s
      = .next (finish id row scTwin 0 0 false (updCmd id row (fun _ => { c with twinHold := none, ordered := true }) s)))
  ∧ (∀ (id row status : Nat) (c : Cmd) (s : State), (yarnFreed 2 64 s).cmd? id row = some c → c.relayTo = true → c.st = .waitStitch →
    exec (.relayRead id row status []) s = .next (finishVia 14 [row, status] c status 0 0 false
      (updCmd id row (fun k => { k with relayTo := false }) (yarnFreed 2 64 s))))
  ∧ (∀ (block value : Nat) (s : State), s.yarnUp = true → s.paired = true →
    exec (.digest block value true) s = .next (checkDigests ((yarnFreed 7 64 s).onPair fun p => { p with digWait := p.digWait ++ [(block, value)] })))
  ∧ (∀ (block value : Nat) (s s1 : State), s.yarnUp = true → s.paired = true → s1 = yarnFreed 7 64 s →
    exec (.digest block value false) s
      = .next (withdraw (pairFault (saveSnapshot block (digestOf block s1.pair.digAccRx) value s1.pair.digAccRx s1))))
  ∧ (∀ (id row status dw0 dw1 : Nat) (s : State), s.pair.warm = true →
    exec (.warm id row status dw0 dw1) s = .next (finish id row status dw0 dw1 false (yarnFreed 7 64 s)))

/-- Handovers, proof runs and the joint start (R293 to R295, R406). -/
def Obligations.Handovers : Prop :=
  (∀ (arr : Nat) (h : Handover) (s : State), (s.pair.hand.find? fun h => h.arr == arr) = some h → h.sent = false → h.t0 + 800 * us ≤ s.now →
    s.arrOutstanding arr = true → exec (.handoverDrainDeadline arr) s = .next (handFailed arr true s))
  ∧ (∀ (arr : Nat) (h : Handover) (s : State), (s.pair.hand.find? fun h => h.arr == arr) = some h → h.sent = false → h.t0 + 800 * us ≤ s.now →
    s.arrOutstanding arr = false → s.pair.stitches.any (·.arr == arr) = false →
    exec (.handoverDrainDeadline arr) s = .next (requestHandover arr s))
  ∧ (∀ (arr : Nat) (h : Handover) (s : State), (s.pair.hand.find? fun h => h.arr == arr) = some h → h.sent = true → h.resendAt ≤ s.now →
    exec (.handoverResendTimer arr) s = .next (requestHandover arr s))
  ∧ (∀ s : State, s.proofPeriod ≠ 0 → s.pair.proofLast = none → s.utcMinute = s.settingN 0x0786 → s.allShadowed = true → s.pair.proof = none →
    exec .proofRunStart s = .next { s with pair := { s.pair with
      proof := some { op := none, todo := sortNat s.arrNos, nextAt := s.now, back := false }, proofLast := some s.time.dev } })
  ∧ (∀ (p : Proof) (n : Nat) (rest : List Nat) (s s1 : State), s.pair.proof = some p → p.nextAt ≤ s.now → p.todo = n :: rest →
    s1 = (s.onPair fun x => { x with proof := some { p with todo := rest, nextAt := s.now + sec } }) →
    (∀ vectors, exec (.proofRunNext false vectors) s = .next (pairFault (fwEvent 0x0A 1 (ssAddr 3 n 0) s1)))
      ∧ exec (.proofRunNext true false) s = .next (pairFault (fwEvent 0x0A 2 (ssAddr 3 n 0) s1))
      ∧ ((s1.lease n).acting = true → exec (.proofRunNext true true) s = .next (startHandover n none s1).1)
      ∧ ((s1.lease n).acting = false → exec (.proofRunNext true true) s = .next s1))
  ∧ (∀ (p : Proof) (labels vectors : Bool) (s : State), s.pair.proof = some p → p.nextAt ≤ s.now → p.todo = [] → p.back = true →
    exec (.proofRunNext labels vectors) s = .next (endProof 1 0 s))
  ∧ (∀ (arrs : List Nat) (s : State), s.md.mode = .boot → s.pair.joint = true → s.pair.leases.any (·.noClaim) = false →
    exec (.jointStartYield arrs) s = .next ((s.arrNos.filter fun n => !(s.lease n).acting).foldl
      (fun st n => if (st.lease n).noClaim then st else claim n (st.lease n).partEpoch false st)
      (enterSolo ((takePool s).onMd fun m => { m with boot := 0 }))))

/-- The stitches of the partner: each that is next in its stream is replayed with its own effect, and acknowledged (R276 to R283, R291). -/
def Obligations.StitchesReplayed : Prop :=
  (∀ (h : StHdr) (row qid cid opcode lane disp source nsid blocks slba status : Nat) (s : State), s.Replays h 40 →
    exec (.arrivalStitch h row qid cid opcode lane disp source nsid blocks slba status) s
      = .next (replayed h (playArrival h row qid cid opcode lane disp source nsid blocks slba status (s.stitched h 40))))
  ∧ (∀ (h : StHdr) (row dc bay outcome status lba : Nat) (s : State), s.Replays h 24 →
    exec (.driveStitch h row dc bay outcome status lba) s = .next (replayed h (playDrive h row dc bay outcome status (s.stitched h 24))))
  ∧ (∀ (h : StHdr) (code obj : Nat) (s : State), s.Replays h 16 →
    exec (.timerStitch h code obj) s = .next (replayed h (playTimer code obj (s.stitched h 16))))
  ∧ (∀ (h : StHdr) (row vol method engine : Nat) (dcs : List (Nat × Nat)) (s : State), s.Replays h (32 + 8 * dcs.length) →
    exec (.writePlanStitch h row vol method engine dcs) s
      = .next (replayed h (playWritePlan h row vol method engine dcs (s.stitched h (32 + 8 * dcs.length)))))
  ∧ (∀ (h : StHdr) (isSet : Bool) (regions : List Nat) (s : State), s.Replays h (16 * regions.length) →
    exec (.bitmapStitch h isSet regions) s = .next (replayed h (playBitmap h isSet regions (s.stitched h (16 * regions.length)))))
  ∧ (∀ (h : StHdr) (pos gen bay : Nat) (st : MemberState) (keepers : List Nat) (s : State), s.Replays h 48 →
    exec (.memberStitch h pos st gen bay keepers) s = .next (replayed h (playMember h pos st gen bay keepers (s.stitched h 48))))
  ∧ (∀ (h : StHdr) (row pos reason first cnt time : Nat) (s : State), s.Replays h 32 →
    exec (.lostStitch h row pos reason first cnt time) s = .next (replayed h (playLost h row pos reason first cnt time (s.stitched h 32))))
  ∧ (∀ (h : StHdr) (row blk mask : Nat) (reported : Bool) (s : State), s.Replays h 32 →
    exec (.patrolStitch h row blk mask reported) s = .next (replayed h (playPatrol h row blk mask reported (s.stitched h 32))))
  ∧ (∀ (h : StHdr) (vol skein row : Nat) (chunks : List (Nat × Nat × Nat × Nat)) (s : State), s.Replays h (16 + 16 * chunks.length) →
    exec (.rowStitch h vol skein row chunks) s = .next (replayed h (playRow h vol skein row chunks (s.stitched h (16 + 16 * chunks.length)))))
  ∧ (∀ (h : StHdr) (vol skein row : Nat) (entries : List (Nat × Nat × Nat)) (s : State), s.Replays h (16 + 24 * entries.length) →
    exec (.commitStitch h vol skein row entries) s
      = .next (replayed h (playCommit h vol skein row entries (s.stitched h (16 + 24 * entries.length)))))
  ∧ (∀ (h : StHdr) (n : Nat) (isEnd : Bool) (s : State), s.Replays h 16 →
    exec (.checkpointStitch h n isEnd) s = .next (replayed h (playCheckpoint h n isEnd (s.stitched h 16))))
  ∧ (∀ (h : StHdr) (vol kind skein chunk : Nat) (s : State), s.Replays h 32 →
    exec (.frogStitch h vol kind skein chunk) s = .next (replayed h (playFrog h vol kind skein (s.stitched h 32))))
  ∧ (∀ (h : StHdr) (row kind abortRow : Nat) (s : State), s.Replays h 24 →
    exec (.abortStitch h row kind abortRow) s = .next (replayed h (playAbort h row kind abortRow (s.stitched h 24))))
  ∧ (∀ (h : StHdr) (row status : Nat) (s : State), s.Replays h 16 →
    exec (.deliveredStitch h row status) s = .next (replayed h (playDelivered h row status (s.stitched h 16))))
  ∧ (∀ (h : StHdr) (seq lba nsid cnt row cause : Nat) (s : State), s.Replays h 48 →
    exec (.deferredStitch h seq lba nsid cnt row cause) s = .next (replayed h (playDeferred h lba nsid cnt row cause (s.stitched h 48))))
  ∧ (∀ (h : StHdr) (kind : Nat) (c : AssocCtx) (s : State), s.Replays h 528 →
    exec (.assocStitch h kind c) s = .next (replayed h (playAssoc h kind c (s.stitched h 528))))
  ∧ (∀ (h : StHdr) (kind : Nat) (s : State), s.Replays h 16 →
    exec (.assocStateStitch h kind) s = .next (replayed h (playAssocState h kind (s.stitched h 16))))
  ∧ (∀ (h : StHdr) (row key mib : Nat) (s : State), s.Replays h 16 →
    exec (.zoneStitch h row key mib) s = .next (replayed h (playZone h row key mib (s.stitched h 16))))
  ∧ (∀ (h : StHdr) (reason key off row len : Nat) (s : State), s.Replays h 40 →
    exec (.violationStitch h reason key off row len) s = .next (replayed h (recordViolation h.assoc reason key row (s.stitched h 40))))
  ∧ (∀ (h : StHdr) (epoch successor : Nat) (shadowed : Bool) (s : State), s.Replays h 24 →
    exec (.leaseStitch h epoch shadowed successor) s = .next (replayed h (playLease h epoch shadowed successor (s.stitched h 24))))
  ∧ (∀ (h : StHdr) (proposal result internal : Bool) (path principal code kind value : Nat) (f : MbFrame) (s : State),
    s.Replays h (if internal then 32 else 48) →
    exec (.settingStitch h proposal result internal path principal f code kind value) s
      = .next (replayed h (playSetting h proposal internal path principal f code kind value (s.stitched h (if internal then 32 else 48)))))
  ∧ (∀ (h : StHdr) (op pass range : Nat) (s : State), s.Replays h 32 →
    exec (.copyStitch h op pass range) s = .next (replayed h (playCopy op pass range (s.stitched h 32))))
  ∧ (∀ (h : StHdr) (n : Nat) (isEnd : Bool) (s : State), s.yarnUp = true → s.replays = true → h.num ≠ s.pair.rxStitch →
    exec (.checkpointStitch h n isEnd) s = .next (ackStitch (yarnFreed 7 48 s)))

/-- The cast-on: its start at both units, its steps, what the joiner takes, its deadline and its retry (R260, R296, R297). -/
def Obligations.CastOnSteps : Prop :=
  (∀ s : State, s.mayJoin = true → s.castOnRefused = none → s.pair.pDialect = some s.img.dialect →
    exec (.castOnStart true) s = .next (queryAll ((adoptShelf s).onPair fun p => { p with
      castOn := some { joiner := true, step := 1, t0 := s.now }, castRetry := none, warm := false })))
  ∧ (∀ s : State, s.mayServe = true → s.castOnRefused = none → s.pair.pDialect = some s.img.dialect →
    exec (.castOnStart false) s = .next (queryAll ((adoptShelf s).onPair fun p => { p with
      castOn := some { joiner := false, step := 1, t0 := s.now }, castRetry := none, warm := false })))
  ∧ (∀ (k : Nat) (s : State), s.mayJoin = true → s.castOnRefused = some k →
    exec (.castOnStart true) s = .next ((fwEvent 8 k unitObj s).onPair fun p => { p with castRetry := some (s.now + 60 * sec) }))
  ∧ (∀ (c : CastOn) (seg : CastSeg) (num : Nat) (s : State), s.pair.castOn = some c → s.yarnUp = true → c.joiner = true → 3 ≤ c.step →
    exec (.cast seg num) s = .next (takeCast seg num (yarnFreed 1 4096 s)))
  ∧ (∀ (c : CastOn) (num : Nat) (s : State), s.pair.castOn = some c → s.yarnUp = true → c.joiner = false →
    exec (.cast .restart num) s = .next (newStreams ((yarnFreed 1 4096 s).onPair fun p => { p with
      castOn := some { c with step := 3, restarts := c.restarts + 1 } })))
  ∧ (∀ (c : CastOn) (ok : Bool) (s : State), s.pair.castOn = some c → s.yarnUp = true → c.step = 1 → s.pair.witOk = true →
    exec (.castOnStepComplete ok) s = .next { s with pair := { s.pair with castOn := some { c with step := 2 } } })
  ∧ (∀ (c : CastOn) (ok : Bool) (s : State), s.pair.castOn = some c → s.yarnUp = true → c.step = 2 → c.joiner = true →
    exec (.castOnStepComplete ok) s = .next (putStep 3 c (newStreams (clearPicture s))))
  ∧ (∀ (c : CastOn) (ok : Bool) (s : State), s.pair.castOn = some c → s.yarnUp = true → c.step = 3 → c.joiner = false →
    exec (.castOnStepComplete ok) s = .next (putStep 4 c (sendContexts s)))
  ∧ (∀ (c : CastOn) (ok : Bool) (s : State), s.pair.castOn = some c → s.yarnUp = true → c.step = 4 → c.joiner = false → s.relinked = true →
    exec (.castOnStepComplete ok) s = .next (putStep 5 c (sendPicture s)))
  ∧ (∀ (c : CastOn) (ok : Bool) (s : State), s.pair.castOn = some c → s.yarnUp = true → c.step = 5 → c.joiner = true → c.queue = [] →
    exec (.castOnStepComplete ok) s = .next (putStep 6 c s))
  ∧ (∀ (c : CastOn) (s : State), s.pair.castOn = some c → s.yarnUp = true → c.step = 6 →
    exec (.castOnStepComplete false) s = .next (abandonCastOn (pairFault (fwEvent 0x0A 1 (ssAddr 3 0 0) s))))
  ∧ (∀ (c : CastOn) (s : State), s.pair.castOn = some c → s.yarnUp = true → c.step = 6 → c.joiner = false →
    exec (.castOnStepComplete true) s = .next (endServing c s))
  ∧ (∀ (c : CastOn) (s : State), s.pair.castOn = some c → s.yarnUp = true → c.step = 6 → c.joiner = true →
    (s.arrNos.all fun n => (s.lease n).marion) = true → s.pair.pMode = some .paired →
    ∃ t, exec (.castOnStepComplete true) s = .next t ∧ t.md.mode = .paired ∧ t.pair.castOn = none ∧ t.pair.apart = false
      ∧ (∀ l ∈ t.pair.leases, l.noClaim = false) ∧ t.bays = s.bays ∧ t.audit = s.audit ∧ t.cfg = s.cfg)
  ∧ (∀ (c : CastOn) (s : State), s.pair.castOn = some c → c.t0 + 90 * sec ≤ s.now → c.step ≠ 7 →
    exec .castOnDeadline s = .next (abandonCastOn s))
  ∧ (∀ (c : CastOn) (s : State), s.pair.castOn = some c → s.now < c.t0 + 90 * sec → exec .castOnDeadline s = .next s)
  ∧ (∀ s : State, s.mayJoin = true → exec .castOnRetry s = .next (beginCastOn true s))

/-- Frames at the ports: what the MAC drops, what is parsed or held, misses of the context cache, the slow path and bank swaps (R329 to R348).
A frame at a port that does not exist faults. -/
def Obligations.FramesAndBanks : Prop :=
  (∀ (f : Frame) (k : Nat) (s : State), parserLink f.port = some k → s.sw.linkUp.getD k false = true → f.fcsOk = false →
    exec (.frameReceive f) s = .next (updParser f.port (fun p => { p with macD := p.macD + 1 }) s))
  ∧ (∀ (f : Frame) (k : Nat) (s : State), parserLink f.port = some k → s.sw.linkUp.getD k false = true → f.fcsOk = true → f.ownMac = true →
    s.sw.pausedBy.contains (f.port, s.wirePrio f) = false → (s.parser f.port).swap ≠ 2 → (s.parser f.port).stalled = [] →
    exec (.frameReceive f) s = .next (parseFrame f s))
  ∧ (∀ (f : Frame) (k : Nat) (s : State), parserLink f.port = some k → s.sw.linkUp.getD k false = true → f.fcsOk = true → f.ownMac = true →
    s.sw.pausedBy.contains (f.port, s.wirePrio f) = false → (s.parser f.port).swap = 2 →
    exec (.frameReceive f) s = .next (updParser f.port (fun x => { x with stalled := x.stalled ++ [f] }) s))
  ∧ (∀ (f : Frame) (s : State), 8 ≤ f.port → f.port ≠ 47 → exec (.frameReceive f) s = .fault .noSuchPort)
  ∧ (∀ (id : Nat) (f : Frame) (a : Assoc) (s s1 : State), (s.sw.parsers.flatMap fun p => p.missQ.filter fun f => f.h.assoc == id) = [f] →
    s1 = useContext id (s.onSw fun w => { w with parsers := w.parsers.map fun p => { p with missQ := p.missQ.filter fun f => f.h.assoc != id } }) →
    s1.assoc? id = some a →
    ∃ s2 : State, s2 = authenticate f (s1.wirePrio f) (meterFrame f a s1).1 (meterFrame f a s1).2
      ∧ exec (.contextFetchComplete id) s = .next ((s2.sw.parsers.map (·.port)).foldl
          (fun st p => resumeStalled p (st.parser p).stalled.length st) s2))
  ∧ (∀ (f : SlowFrame) (rest : List SlowFrame) (prof : Nat) (s : State), s.sw.slowQ = f :: rest → f.punt = some prof →
    exec .slowPathFrame s = .next (updParser f.port (fun p => { p with capture := ((prof, f.ident) :: p.capture).take 256 })
      (s.onSw fun w => { w with slowQ := rest })))
  ∧ (∀ (f : SlowFrame) (rest : List SlowFrame) (s : State), s.sw.slowQ = f :: rest → f.punt = none → f.frag = false → f.kind = .echo →
    s.moduleAddr f.port f.dst = true → s.sw.echoRate = [] →
    exec .slowPathFrame s = .next (enqueue f.port 6 64 (.echoReply f.ident)
      (s.onSw fun w => { w with slowQ := rest, echoRate := [(f.port, s.now)] })))
  ∧ (∀ (port : Nat) (s : State), port < 8 → (s.parser port).standby = true → (∀ x ∈ s.sw.parsers, x.swap = 0) →
    ∃ t, exec (.bankSwapPause port) s = .next t ∧ t.sw.pauseTx = s.sw.pauseTx ++ (List.range 8).map (fun c => (port, c, 65535))
      ∧ ∃ f, t.sw.parsers = updWhere (·.port == port) f s.sw.parsers ∧ ∀ x : Parser, (f x).swap = 1 ∧ (f x).swapAt = s.now
        ∧ (f x).bankNext = some x.nextBank ∧ (f x).lanes = x.lanes ∧ (f x).stalled = x.stalled)
  ∧ (∀ (port : Nat) (s : State), port < 8 → (s.parser port).swap = 1 → (s.parser port).swapAt + 4784 ≤ s.now →
    exec (.parserStop port) s = .next (updParser port (fun x => { x with swap := 2 }) s))
  ∧ (∀ (port : Nat) (s : State), port < 8 → (s.parser port).swap = 2 → (s.parser port).missQ = [] → (s.parser port).swapAt + 6 * us ≤ s.now →
    ∃ (f : Parser → Parser) (s2 : State), exec (.bankSwap port) s = .next (resumeStalled port (s2.parser port).stalled.length s2)
      ∧ s2.sw.parsers = (updParser port f s).sw.parsers
      ∧ (∀ (x : Parser) (n : Bank), x.bankNext = some n → (f x).lanes = n.lanes ∧ (f x).dscp = n.dscp ∧ (f x).swap = 0 ∧ (f x).swaps = x.swaps + 1
        ∧ (f x).bankNext = none ∧ (f x).stalled = x.stalled))

/-- Flow control between ports and links: pauses and yarn credits (R313 to R315, R326). -/
def Obligations.FlowControl : Prop :=
  (∀ (port prio t : Nat) (s : State), (s.sw.pauseRep.find? fun x => x.1 == port && x.2.1 == prio) = some (port, prio, t) → t ≤ s.now →
    exec (.pauseRepeatTimer port prio) s = .next (updPort port prio (fun c => { c with pSent := c.pSent + 1 }) (s.onSw fun w => { w with
      pauseTx := w.pauseTx ++ [(port, prio, 65535)]
      pauseRep := updWhere (fun x => x.1 == port && x.2.1 == prio) (fun x => (x.1, x.2.1, s.now + 20 * us)) w.pauseRep })))
  ∧ (∀ (port k cls quanta : Nat) (s : State), parserLink port = some k → quanta ≠ 0 →
    exec (.pauseFrame port cls quanta) s = .next (updPort port cls (fun r => { r with pRecv := r.pRecv + 1 }) ((closePause port cls s).onSw fun w => { w with
      pauseRx := w.pauseRx ++ [(port, cls, s.now + quanta * 64 * nano / s.sw.rate.getD k 1, s.now)] })))
  ∧ (∀ (port k cls : Nat) (s : State), parserLink port = some k → exec (.pauseFrame port cls 0) s = .next (closePause port cls s))
  ∧ (∀ (port cls quanta : Nat) (s : State), 8 ≤ port → port ≠ 47 → exec (.pauseFrame port cls quanta) s = .fault .noSuchPort)
  ∧ (∀ (port cls till t0 : Nat) (s : State), (s.sw.pauseRx.find? fun x => x.1 == port && x.2.1 == cls) = some (port, cls, till, t0) → till ≤ s.now →
    exec (.pauseExpiry port cls) s = .next (updPort port cls (fun r => { r with pTime := r.pTime + (till - t0) })
      (s.onSw fun w => { w with pauseRx := w.pauseRx.filter fun y => !(y.1 == port && y.2.1 == cls) })))
  ∧ (∀ (link cls n t : Nat) (s : State), (s.sw.credRx.find? fun x => x.1 == link && x.2.1 == cls) = some (link, cls, n, t) → 64 ≤ n ∨ t + us ≤ s.now →
    exec (.creditReturnTimer link cls) s = .next { s with sw := { s.sw with
      credRx := s.sw.credRx.filter fun y => !(y.1 == link && y.2.1 == cls)
      wire := s.sw.wire ++ [(32 + link, OutMsg.yarnCredit link cls n)] } })
  ∧ (∀ (link cls n t : Nat) (s : State), (s.sw.credRx.find? fun x => x.1 == link && x.2.1 == cls) = some (link, cls, n, t) → n < 64 → s.now < t + us →
    exec (.creditReturnTimer link cls) s = .next s)
  ∧ (∀ (link cls cells : Nat) (s : State), ∃ t, exec (.yarnCredit link cls cells) s = .next t
    ∧ t.credSpent link cls = s.credSpent link cls - cells ∧ (∀ l c, l ≠ link ∨ c ≠ cls → t.credSpent l c = s.credSpent l c)
    ∧ t = { s with sw := { s.sw with credTx := t.sw.credTx } })

/-- Departures, ageing, plane failures, gate lists, samples, and drive submission (R309, R312, R318 to R324, R351 to R371, R478). -/
def Obligations.SwitchAndSchedulers : Prop :=
  (∀ (port c : Nat) (q : QItem) (s : State), 34 ≤ port → port < 47 → c < 8 → s.headOf port c = some q → (∀ d, c < d → d < 8 → s.headOf port d = none) →
    exec (.egressSelect port) s = .next (depart q s))
  ∧ (∀ (port : Nat) (s : State), port < 48 → s.portUp port = false → s.aged (· == port) = [] → exec (.egressSelect port) s = .next s)
  ∧ (∀ (port : Nat) (s : State), 48 ≤ port → exec (.egressSelect port) s = .fault .noSuchPort)
  ∧ (∀ s : State, exec .ageingSweep s = .next ((s.aged fun _ => true).foldl ageItem s))
  ∧ (∀ s : State, s.sw.egress = [] → exec .ageingSweep s = .next s)
  ∧ (∀ (plane : Nat) (s : State), plane < 4 → s.sw.planes.getD plane false = true →
    exec (.planeFailure plane []) s = .next (partFails 0x3001 plane (s.onSw fun w => { w with
      planes := w.planes.modify plane fun _ => false, planeDrops := w.planeDrops
      egress := w.egress.filter fun _ => true })))
  ∧ (∀ (list : Nat) (g : Gate) (e : List (Nat × Nat)) (s : State), s.sw.gates.getD list {} = g → g.started = false → g.newE = some e → g.newBase ≤ s.time.dev →
    exec (.gateIntervalEnd list) s = .next (s.onSw fun w => { w with
      gates := w.gates.modify list fun _ => gateAt { g with newE := none } e g.newBase s.time.dev }))
  ∧ (∀ (list : Nat) (g : Gate) (s : State), s.sw.gates.getD list {} = g → g.started = true → g.newE = none → g.curEnd ≤ s.time.dev →
    exec (.gateIntervalEnd list) s = .next (s.onSw fun w => { w with gates := w.gates.modify list fun _ => gateAt g g.entries g.base s.time.dev }))
  ∧ (∀ s : State, ∃ t, exec .queueSample s = .next t ∧ t.sw.qrecs.map (·.q) = List.range 384 ++ (List.range 192).map (· + 2048)
    ∧ t = { s with sw := { s.sw with qrecs := t.sw.qrecs } })
  ∧ (∀ (bay : Nat) (d : DrvCmd) (s : State), bay < 24 → s.bayOpen bay = true → s.gateOf 11 = none → s.bayHead bay 7 = some d →
    (∀ c, c < 7 → s.bayHead bay c = none) → d.op ≠ .write →
    ∃ s1, exec (.driveSubmission bay) s = .next (updDc d.id (fun x => { x with subAt := some s.now }) s1)
      ∧ s1.io = s.io ∧ s1.bays = s.bays ∧ s1.audit = s.audit)
  ∧ (∀ (bay : Nat) (s : State), bay < 24 → s.bayOpen bay = false → exec (.driveSubmission bay) s = .next s)
  ∧ (∀ (bay : Nat) (s : State), 24 ≤ bay → exec (.driveSubmission bay) s = .fault .noSuchBay)

/-- The bay channels: insertion, removal, ramp, qualification, trips, cool-down, relink, links and readiness of the drive (R374 to R381, R407).
A bay that does not exist faults (CommandsComplete). -/
def Obligations.BayChannels : Prop :=
  (∀ (bay : Nat) (d : DriveInfo) (s : State), bay < 24 → (s.chan bay).present = false → s.md.modPres = true → s.powersBays = false →
    (s.chan bay).removedAt = none →
    ∃ drv : Drive, exec (.bayInsert bay d) s = .next (updChan bay (fun x => { x with st := .off, budget := 3 })
        (updChan bay (fun x => { x with present := true }) (s.onBays fun b => { b with drives := b.drives.set bay (some drv) })))
      ∧ drv.serial = d.serial ∧ drv.cap = d.cap ∧ drv.ready = false)
  ∧ (∀ (bay : Nat) (d : DriveInfo) (s : State), bay < 24 → (s.chan bay).present = true → exec (.bayInsert bay d) s = .next s)
  ∧ (∀ (bay : Nat) (s : State), bay < 24 → (s.chan bay).present = true → s.md.modPres = true →
    exec (.bayRemove bay) s = .next (rebudget ((gateOff bay (updChan bay (fun x => { x with
      st := .empty, present := false, switchedOff := false, removedAt := some s.now, removedIn := (s.chan bay).st, prep := none, remStep := 0
      locate := false, refusedAt := none }) s)).onBays fun b => { b with drives := b.drives.set bay none })))
  ∧ (∀ (bay : Nat) (s : State), bay < 24 → (s.chan bay).st = .ramp → (s.chan bay).faultAt = none →
    exec (.outputReachesThreshold bay) s = .next (updChan bay (fun x => { x with
      st := .qualify, rampAt := none, vout := 11000, qualAt := some (s.now + ms) }) s))
  ∧ (∀ (bay t : Nat) (s : State), bay < 24 → (s.chan bay).st = .ramp → (s.chan bay).rampAt = some t → t + (s.settingN 0x0880 bay + 5) * ms ≤ s.now →
    exec (.rampTimeout bay) s = .next (trip bay 3 s))
  ∧ (∀ (bay : Nat) (s : State), bay < 24 → (s.chan bay).st = .on → (s.chan bay).faultAt = none →
    exec (.faultTimerStart bay) s = .next (updChan bay (fun x => { x with faultAt := some s.now, qualAt := none, atRisk := true, cur := 4500 }) s))
  ∧ (∀ (bay t : Nat) (s : State), bay < 24 → (s.chan bay).st = .qualify → (s.chan bay).faultAt = some t →
    exec (.faultTimerClear bay) s = .next (updChan bay (fun x => { x with faultAt := none, atRisk := false, qualAt := some (s.now + ms) }) s))
  ∧ (∀ (bay t : Nat) (s : State), bay < 24 → (s.chan bay).st = .on → (s.chan bay).faultAt = some t → t + s.settingN 0x0881 bay * ms ≤ s.now →
    exec (.faultTimerExpiry bay) s = .next (trip bay 1 s))
  ∧ (∀ (bay t : Nat) (s : State), bay < 24 → (s.chan bay).st = .on → (s.chan bay).faultAt = some t → s.now < t + s.settingN 0x0881 bay * ms →
    exec (.faultTimerExpiry bay) s = .next s)
  ∧ (∀ (bay : Nat) (s : State), bay < 24 → (s.chan bay).st = .on → exec (.modelOverTemperature bay) s = .next (trip bay 2 s))
  ∧ (∀ (bay : Nat) (s : State), bay < 24 → (s.chan bay).st = .off → exec (.modelOverTemperature bay) s = .next s)
  ∧ (∀ (bay t : Nat) (temp : Int) (s : State), bay < 24 → (s.chan bay).st = .coolDown → temp < 90 → (s.chan bay).coolAt = some t → t ≤ s.now →
    1 ≤ (s.chan bay).budget → exec (.coolDownEnd bay temp) s = .next (startRamp bay (updChan bay (fun x => { x with budget := x.budget - 1 })
      (updChan bay (fun x => { x with temp := temp * 10, coolAt := none }) s))))
  ∧ (∀ (bay t : Nat) (temp : Int) (s : State), bay < 24 → (s.chan bay).st = .coolDown → temp < 90 → (s.chan bay).coolAt = some t → t ≤ s.now →
    (s.chan bay).budget = 0 → exec (.coolDownEnd bay temp) s = .next (updChan bay (fun x => { x with st := .latched })
      (updChan bay (fun x => { x with temp := temp * 10, coolAt := none }) s)))
  ∧ (∀ (bay t : Nat) (s : State), bay < 24 → (s.chan bay).st = .on → (s.chan bay).onSince = some t → t + 60 * sec ≤ s.now →
    exec (.retryBudgetRestore bay) s = .next (updChan bay (fun x => { x with budget := 3 }) s))
  ∧ (∀ (bay : Nat) (s : State), bay < 24 → (s.chan bay).st = .on → (s.chan bay).perst = false → (s.chan bay).x4 = false → s.md.pSlot = false →
    s.md.pEmptyAt = none → (∀ n, n < 24 → (s.chan n).relink = none) →
    exec (.bayRelink bay) s = .next (bayDown bay true (updChan bay (fun x => { x with
      perst := true, x4 := true, relink := some (s.now + 250 * ms), perstAt := some (s.now + 100 * ms) }) s)))
  ∧ (∀ (bay : Nat) (d : Drive) (s : State), bay < 24 → s.drive? bay = some d → exec (.bayLinkStateChange bay false) s = .next (bayDown bay false s))
  ∧ (∀ (bay : Nat) (d : Drive) (s : State), bay < 24 → s.drive? bay = some d → (s.chan bay).st = .on → (s.chan bay).perst = false →
    (s.part 0x3007 bay).st ≠ 3 →
    exec (.bayLinkStateChange bay true) s = .next (updDrive bay (fun x => { x with linkUp := true, downAt := none }) s))
  ∧ (∀ (bay t : Nat) (s : State), bay < 24 → (s.chan bay).readyAt = some t → t ≤ s.now →
    (updChan bay (fun c => { c with readyAt := none }) s).memberAt bay = none →
    exec (.driveReadyWaitExpiry bay) s = .next (updChan bay (fun c => { c with readyAt := none }) s))
  ∧ (∀ (bay : Nat) (d : Drive) (s : State), bay < 24 → s.drive? bay = some d → (s.chan bay).st = .on → (s.chan bay).perst = false → d.ok = true →
    d.resetting = none → exec (.driveReady bay none) s = .next (placeState true bay (updDrive bay (fun x => { x with
      ready := true, linkUp := true, downAt := none, resetting := none, notified := false, role := .unassigned, label := none, pstate := 0, foreign := false })
      (updChan bay (fun c => { c with readyAt := none }) s))))

/-- Removal by request, the bay buttons, the service key and the display (R392 to R396). -/
def Obligations.RemovalsAndPanel : Prop :=
  (∀ (bay t : Nat) (s : State), bay < 24 → (s.chan bay).prep = some t → t ≤ s.now →
    exec (.removalPreparationLapse bay) s = .next (updChan bay (fun c => { c with prep := none }) s))
  ∧ (∀ (bay : Nat) (s : State), bay < 24 → (s.chan bay).remStep = 1 → (s.chan bay).flushDone = true →
    ∃ s1, exec (.removalFlushDeadline bay) s = .next (issueDc bay 6 .shutdown 0 0 .other [] (updChan bay (fun x => { x with remStep := 2 }) s1))
      ∧ ∀ d ∈ s1.io.dcs, d.bay ≠ bay)
  ∧ (∀ (bay : Nat) (s : State), bay < 24 → (s.chan bay).remStep = 1 → (s.chan bay).flushDone = false → s.now < (s.chan bay).remAt + sec →
    exec (.removalFlushDeadline bay) s = .next s)
  ∧ (∀ (bay : Nat) (s : State), bay < 24 → (s.chan bay).remStep = 2 →
    exec (.removalShutdownDeadline bay true) s = .next (rebudget ((gateOff bay (updChan bay (fun x => { x with st := .off, remStep := 3 }) s)).onIo
      fun i => { i with dcs := i.dcs.filter fun d => d.bay != bay })))
  ∧ (∀ (bay : Nat) (s : State), bay < 24 → s.responsible bay = true → (s.chan bay).prep = none →
    exec (.bayButtonPress bay) s = .next (mailbox { path := 5, slot := s.bays.panelSlot } (.removalRequest bay 0)
      (s.onBays fun b => { b with panelSlot := (b.panelSlot + 1) % 16 })))
  ∧ (∀ (bay t : Nat) (s : State), bay < 24 → s.responsible bay = true → (s.chan bay).prep = some t → s.now ≤ t →
    exec (.bayButtonPress bay) s = .next (panelPost (.removalRequest bay 1) s))
  ∧ (∀ (bay : Nat) (s : State), bay < 24 → s.responsible bay = false →
    exec (.bayButtonPress bay) s = .next s ∧ exec (.bayButtonHeld bay) s = .next s)
  ∧ (∀ (bay : Nat) (s : State), bay < 24 → s.responsible bay = true → exec (.bayButtonHeld bay) s = .next (panelPost (.removalRequest bay 2) s))
  ∧ (∀ s : State, s.md.powered = true → exec .serviceKeyTouch s
    = .next { s with bays := { s.bays with page := (s.bays.page + 1) % 5, lightAt := some (s.now + 60 * sec) } })
  ∧ (∀ s : State, s.md.powered = true → s.md.mode = .powerStandby → exec .serviceKeyHold s = .next (panelPost (.changeMode 0) (lightUp s)))
  ∧ (∀ s : State, s.md.powered = true → s.md.mode ≠ .powerStandby → s.bays.modLocate = false →
    exec .serviceKeyHold s = .next (panelPost (.locate 255 1) (lightUp s)))
  ∧ (∀ s : State, s.md.powered = true → exec .serviceKeyLongHold s = .next (panelPost .moduleReset (lightUp s)))
  ∧ (∀ s : State, s.md.powered = false →
    exec .serviceKeyTouch s = .next s ∧ exec .serviceKeyHold s = .next s ∧ exec .serviceKeyLongHold s = .next s)
  ∧ (∀ (t : Nat) (s : State), s.bays.lightAt = some t → t ≤ s.now → exec .backlightTimeout s = .next { s with bays := { s.bays with lightAt := none } })

/-- The power path: line voltage, budget, measurement, mains, hold-up, fans, OSFP cages and port links (R382 to R391, R351). -/
def Obligations.PowerPath : Prop :=
  (∀ (volts : Nat) (s : State), exec (.lineVoltageChange volts) s = .next (refreshBudget (s.onBays fun b => { b with volts := volts })))
  ∧ (∀ (b : Int) (t : Nat) (s : State), s.bays.rise = some (b, t) → t ≤ s.now →
    exec .budgetRiseHold s = .next (rebudget (s.onBays fun x => { x with budget := b, rise := none })))
  ∧ (∀ (powers : List Nat) (s : State), (powers.take 24).sum ≤ s.watts → s.bays.overSince = none →
    ∃ t, exec (.powerMeasurementCheck powers) s = .next t ∧ t.bays.overSince = some s.now ∧ t.bays.ch.length = s.bays.ch.length
      ∧ (∀ n, n < s.bays.ch.length → (t.chan n).power = powers.getD n 0 ∧ (t.chan n).st = (s.chan n).st ∧ (t.chan n).allot = (s.chan n).allot)
      ∧ t.bays.drives = s.bays.drives ∧ t.io = s.io)
  ∧ (∀ s : State, s.md.mains = true → s.md.powered = true → s.bays.hold = none → s.paired = false →
    ∃ t, exec .mainsLoss s = .next t ∧ t.md.mains = false ∧ t.time.saved = t.time.dev ∧ t.io = ((cancelTests (fun _ => true) (resumeCores (·.halted) s))).io
      ∧ ∃ h, t.bays.hold = some h ∧ h.t0 = s.now ∧ h.phase = 0 ∧ h.handing = false ∧ h.back = false ∧ h.runs = [])
  ∧ (∀ s : State, s.md.mains = false → exec .mainsLoss s = .next s)
  ∧ (∀ (h : HoldUp) (s : State), s.bays.hold = some h → h.handing = false → h.phase = 0 → h.t0 + 2 * ms ≤ s.now →
    ∃ t, exec .holdUpDriveDeadline s = .next t ∧ t.io.dcs = [] ∧ (∃ k, t.bays.hold = some k ∧ k.phase = 1 ∧ k.t0 = h.t0 ∧ k.back = h.back)
      ∧ t.io.wb = s.io.wb ∧ t.io.assocs = s.io.assocs)
  ∧ (∀ (done : List Nat) (h : HoldUp) (s : State), s.bays.hold = some h → h.handing = false → h.phase = 1 → h.back = false →
    ∃ t, exec (.holdUpDumpEnd done) s = .next t ∧ t.time.saved = s.time.dev ∧ t.bays.dumpDir = h.runs.mapIdx (fun n r => { r with done := done.contains n })
      ∧ (∃ k, t.bays.hold = some k ∧ k.phase = 2) ∧ t.io = s.io)
  ∧ (∀ (h : HoldUp) (s : State), s.bays.hold = some h → h.phase = 2 → h.back = false → exec .holdUpEnd s = .next (powerOff s))
  ∧ (∀ (h : HoldUp) (s : State), s.bays.hold = some h → h.phase = 2 → h.back = true → exec .holdUpEnd s = .next (resumeService s))
  ∧ (∀ s : State, s.bays.hold = none → exec .mainsReturn s = .next { s with md := { s.md with mains := s.md.powered } })
  ∧ (∀ (h : HoldUp) (s : State), s.bays.hold = some h → h.handing = false → h.phase = 0 → s.now < h.t0 + 2 * ms →
    exec .mainsReturn s = .next (resumeService (s.onMd fun m => { m with mains := m.powered })))
  ∧ (∀ (h : HoldUp) (s : State), s.bays.hold = some h → h.handing = false → h.phase = 1 →
    exec .mainsReturn s = .next ((s.onMd fun m => { m with mains := m.powered }).onBays fun b => { b with hold := some { h with back := true } }))
  ∧ (∀ (arr rate : Nat) (s : State), s.acts arr = true →
    exec (.dumpRateMeasurement arr rate) s = .next (startHeld (updArr arr (fun a => { a with dumpRate := rate }) s)))
  ∧ (∀ (ns : Nat) (s : State), exec (.holdUpTimeMeasurement ns) s
    = .next (startHeld ((s.onBays fun b => { b with th := ns }).onIo fun i => { i with gradeDump := decide (ns < 20000000) })))
  ∧ (∀ (sensors : List Int) (drives tachs : List Nat) (s : State), s.io.assocs = [] →
    ∃ t, exec (.fanLoop sensors drives tachs []) s = .next t ∧ t.bays.sensors = sensors ∧ t.bays.fans.length = s.bays.fans.length
      ∧ (∀ f ∈ t.bays.fans, 30 ≤ f.duty ∧ f.duty ≤ 100) ∧ (s.md.mode = .safe → ∀ f ∈ t.bays.fans, f.duty = 100)
      ∧ ((s.bays.fans.any (·.failed)) = true → ∀ f ∈ t.bays.fans, f.duty = 100) ∧ t.bays.ch = s.bays.ch)
  ∧ (∀ (fan : Nat) (s : State), fan < 6 → (s.bays.fans.getD fan {}).failed = false → s.bays.fanAlarm = false →
    exec (.fanFailure fan) s = .next (alarmEvent 1 true (s.onBays fun b => { b with
      fans := b.fans.mapIdx fun n f => if n == fan then { f with failed := true } else { f with duty := 100 }
      fanAlarm := true, page := 0, lightAt := some (s.now + 60 * sec) })))
  ∧ (∀ (cage watts : Nat) (s : State), cage < 8 →
    exec (.osfpPresence cage false watts) s = .next (refreshBudget (portDown cage (s.onBays fun b => { b with osfp := b.osfp.set cage {} }))))
  ∧ (∀ (cage watts : Nat) (s : State), cage < 8 → 180 < watts →
    exec (.osfpPresence cage true watts) s = .next (refreshBudget (fwEvent 0x12 cage (ssAddr 0x3006 cage 0)
      (portDown cage (s.onBays fun b => { b with osfp := b.osfp.set cage { present := true, watts := watts } })))))
  ∧ (∀ (cage : Nat) (temp : Int) (s : State), cage < 8 → (s.bays.osfp.getD cage {}).present = true →
    exec (.osfpMonitor cage temp true) s = .next (portDown cage (s.onBays fun b => { b with osfp := b.osfp.modify cage fun o => { o with shut := true } })))
  ∧ (∀ (port rate : Nat) (s : State), port < 8 → exec (.portLinkStateChange port false rate) s = .next (portDown port s))
  ∧ (∀ (rate : Nat) (s : State), s.md.powered = true → exec (.portLinkStateChange 47 true rate) s
    = .next { s with sw := { s.sw with linkUp := s.sw.linkUp.set 8 true, rate := s.sw.rate.set 8 rate } })

/-- Start-up, changes of mode, resets by the unit's protection, presence (R403 to R421, R508 to R512). -/
def Obligations.StartUpAndModes : Prop :=
  (∀ s : State, s.md.powered = false → ∃ t, exec .mainsApplied s = .next t ∧ t.md.powered = true ∧ t.md.mains = true ∧ t.md.mode = .powerStandby
    ∧ t.md.t0 = s.now ∧ t.md.svcReady = false ∧ (∀ f ∈ t.bays.fans, f.duty = 30) ∧ t.io = s.io ∧ t.audit = s.audit ∧ t.cfg = s.cfg)
  ∧ (∀ s : State, s.md.powered = true → exec .mainsApplied s = .next s)
  ∧ (∀ (slotOpen swatchOk : Bool) (s : State), s.md.powered = true → s.md.svcReady = false → s.settingN 0x0180 = 2 →
    exec (.serviceDomainReady slotOpen swatchOk true) s = .next ((s.onMd fun m => { m with
      svcReady := true, slot := if slotOpen then 1 else 0, slotIn := if slotOpen then 1 else 0 }).onAudit fun a => { a with swOk := swatchOk }))
  ∧ (∀ (slotOpen swatchOk : Bool) (s : State), s.md.powered = true → s.md.svcReady = false → s.settingN 0x0180 ≠ 2 →
    exec (.serviceDomainReady slotOpen swatchOk true) s = .next (beginBoot 1 ((s.onMd fun m => { m with
      svcReady := true, slot := if slotOpen then 1 else 0, slotIn := if slotOpen then 1 else 0 }).onAudit fun a => { a with swOk := swatchOk })))
  ∧ (∀ s : State, s.md.mode = .boot → s.md.held = 0 → s.md.svcReady = true →
    exec .rootLock s = .next { s with md := { s.md with rootLock := true }, time := { s.time with clkRoot := true } })
  ∧ (∀ (volts : Nat) (s : State), s.md.mode = .boot → s.md.rootLock = true → s.md.fw = false →
    exec (.managementFirmwareRunning false volts) s
      = .next (enterSafe 1 ((s.onMd fun m => { m with fw := true }).onImg fun i => { i with slotsOk := false })))
  ∧ (∀ (volts : Nat) (s : State), s.md.mode = .boot → s.md.rootLock = true → s.md.fw = false → s.audit.swOk = true → s.md.wdResets = [] → s.md.boot = 1 →
    ∃ s1 : State, exec (.managementFirmwareRunning true volts) s = .next (queryAll (s1.onMd fun m => { m with bayNext := 0, bayAt := some s.now }))
      ∧ s1.md = { s.md with fw := true } ∧ s1.bays.volts = volts ∧ s1.bays.drvBudget = s1.bays.budget ∧ s1.io = s.io)
  ∧ (∀ (t : Nat) (s : State), s.powersBays = true → s.md.bayAt = some t → t ≤ s.now →
    (∀ n, n < 24 → (s.chan n).present = false) →
    exec .bayGroupTimer s = .next (rebudget (s.onMd fun m => { m with bayNext := 24, bayAt := none })))
  ∧ (∀ (bitmaps : List (Nat × List Nat)) (bad : List Nat) (th : Nat) (s : State), s.md.mode = .boot → s.md.fw = true → s.md.assembled = false →
    s.baysSettled = true → s.md.boot = 1 →
    exec (.arraysAssembled bitmaps bad th) s = .next (remakeMedia (dropMissing (bootEnd true (putHoldUpTime (th * 1000000)
      (placeMembers (unionBitmaps bitmaps (reloadDump bad (s.onMd fun m => { m with assembled := true })))))))))
  ∧ (∀ (bitmaps : List (Nat × List Nat)) (bad : List Nat) (th : Nat) (s : State), s.md.mode = .boot → s.md.fw = true → s.md.assembled = false →
    s.baysSettled = true → s.md.boot = 2 →
    exec (.arraysAssembled bitmaps bad th) s = .next (remakeMedia (dropMissing (bootEnd true (putHoldUpTime (th * 1000000)
      (placeMembers (unionBitmaps bitmaps (dropBadRuns bad (s.onMd fun m => { m with assembled := true })))))))))
  ∧ (∀ (op : Nat) (s : State), s.md.drain = some (2, op) → s.io.wb = [] → s.pair.hand = [] → s.pair.handQ = [] → s.pair.after = [] → s.md.standbyAt = none →
    s.paired = false →
    exec .modeDrainComplete s = .next (endOper op 1 0 ((dropHosts (releaseLeases ((s.io.assocs.map (·.id)).foldl (fun st id => releaseAssoc id st) s))).onMd
      fun m => { m with mode := .maintenance, drain := none })))
  ∧ (∀ (op : Nat) (x : WbBlk) (s : State), s.md.drain = some (2, op) → s.io.wb = [x] → x.dirty = true → exec .modeDrainComplete s = .next s)
  ∧ (∀ (t req op : Nat) (s : State), s.md.standbyAt = some t → s.md.drain = some (req, op) → t ≤ s.now →
    exec .standbyShutdownDeadline s = .next (endOper op 1 0 (enterStandby s)))
  ∧ (∀ s : State, s.packageOn = true → s.md.fw = true → s.md.mode = .solo → exec .watchdogLapse s = .next (protectReset 1 s))
  ∧ (∀ s : State, s.packageOn = true → s.md.fw = true → s.md.mode = .maintenance → (s.dbg.cores.take 4).any (·.halted) = true →
    exec .watchdogLapse s = .next s)
  ∧ (∀ s : State, s.packageOn = true → s.holdUp = false →
    exec .rootLockLoss s = .next ((protectReset 2 s).onTime fun x => { x with clkRoot := false }))
  ∧ (∀ s : State, s.md.powered = true → s.md.mode ≠ .powerStandby → s.md.held ≠ 3 →
    ∃ t, exec .thermalLimit s = .next t ∧ t.md.held = 3 ∧ (∀ f ∈ t.bays.fans, f.duty = 100))
  ∧ (∀ s : State, s.md.held = 3 → exec .thermalRecovery s = .next (protectReset 3 s))
  ∧ (∀ s : State, s.md.held ≠ 3 → exec .thermalRecovery s = .next s)
  ∧ (∀ s : State, s.md.pSlot = true →
    exec (.partnerPresenceChange false) s = .next { s with md := { s.md with pSlot := false, pEmptyAt := some (s.now + 60 * sec) } })
  ∧ (∀ s : State, s.md.pSlot = false → exec (.partnerPresenceChange true) s = .next { s with md := { s.md with pSlot := true, pEmptyAt := none } })
  ∧ (∀ (t : Nat) (s : State), s.md.pSlot = false → s.md.pEmptyAt = some t → t ≤ s.now → s.paired = false →
    exec .partnerSlotEmptyTimeout s = .next { s with md := { s.md with pEmptyAt := none } })
  ∧ (∀ s : State, s.md.modPres = true → (∀ n, n < 24 → (s.chan n).live = false) →
    exec .modPresBreak s = .next (stopDump (s.onMd fun m => { m with modPres := false })))
  ∧ (∀ s : State, s.md.modPres = false → exec .modPresBreak s = .next s)

/-- Device time, PTP, leap seconds and the power states (R422 to R433). The size of a slew is a free value (log 7): what is stated holds for
every value of it. -/
def Obligations.TimeAndPowerStates : Prop :=
  (∀ (gm : Nat) (interval : Nat) (leap : Option (Nat × Int)) (s : State), s.md.fw = true → s.sw.linkUp.getD 8 false = true → s.time.st = 0 →
    exec (.ptpMessage (.announce gm none leap interval)) s = .next (s.onTime fun t => { t with
      st := 2, good := 0, gm := gm, leap := leap, annAt := some (t.now + interval * s.settingN 0x0E84), utcPtp := false }))
  ∧ (∀ (off : Int) (s : State), s.md.fw = true → s.sw.linkUp.getD 8 false = true → s.time.st = 3 → 0 < off → off ≤ s.settingN 0x0E85 * 1000 →
    ∃ t, exec (.ptpMessage (.sync off)) s = .next t ∧ t.time.lastOff = off ∧ t.time.st = 3 ∧ t.time.dev = s.time.dev ∧ t.time.now = s.time.now
      ∧ 0 ≤ t.time.adj ∧ t.time.adj ≤ 200)
  ∧ (∀ (off : Int) (s : State), s.md.fw = true → s.sw.linkUp.getD 8 false = true → s.time.st = 3 → s.settingN 0x0E85 * 1000 < off → s.bays.hold = none →
    ∃ s1, exec (.ptpMessage (.sync off)) s = .next (ptpStep off s1) ∧ s1.time.dev = s.time.dev ∧ s1.time.lastOff = off ∧ s1.io = s.io)
  ∧ (∀ (m : PtpMsg) (s : State), s.md.fw = false → exec (.ptpMessage m) s = .next s)
  ∧ (∀ (t : Nat) (s : State), s.time.annAt = some t → t ≤ s.now → s.time.st ≠ 3 →
    exec .announceReceiptTimeout s = .next { s with time := { s.time with annAt := none, gm := 0 } })
  ∧ (∀ s : State, s.md.powered = true → s.time.saveAt ≤ s.now →
    exec .deviceTimeSave s = .next { s with time := { s.time with saved := s.time.dev, saveAt := s.now + 60 * sec } })
  ∧ (∀ s : State, s.md.powered = true → s.now < s.time.saveAt → exec .deviceTimeSave s = .next s)
  ∧ (∀ (t : Nat) (ch : Int) (s : State), s.time.leap = some (t, ch) → t ≤ s.time.dev →
    exec .leapSecond s = .next (setUtc (s.setting 0x0E80 0 + ch) (s.onTime fun x => { x with leap := none })))
  ∧ (∀ (t : Nat) (ch : Int) (s : State), s.time.leap = some (t, ch) → s.time.dev < t → exec .leapSecond s = .next s)
  ∧ (∀ (load : Nat) (idle : List Nat) (s : State), s.psMode = true → s.settingN 0x0884 = 0 → s.md.ps = 0 → s.md.psIn = 0 → s.md.psLeft = 0 →
    load < s.settingN 0x0885 * 7680000000 → exec (.ps1Entry load idle) s = .next (enterPs1 idle (stitchPs 1 s)))
  ∧ (∀ (load : Nat) (idle : List Nat) (s : State), s.psMode = true → s.settingN 0x0884 = 0 → s.settingN 0x0885 * 7680000000 ≤ load →
    exec (.ps1Entry load idle) s = .next s)
  ∧ (∀ s : State, s.md.psReq = none → s.psMode = true → s.settingN 0x0884 = 0 → s.settingN 0x0886 ≠ 0 → s.md.ps ≠ 2 → s.md.psIn = 0 → s.hostWork = false →
    s.md.idleAt + s.settingN 0x0886 * sec ≤ s.now → exec .ps2IdleExpiry s = .next (requestPs2 none s))
  ∧ (∀ s : State, s.md.psReq = none → s.hostWork = true → exec .ps2IdleExpiry s = .next s)
  ∧ (∀ s : State, s.md.psIn ≠ 0 → s.hostWork = true → exec .ps2SafePoint s = .next (exitPs (stitchPs 0 s)))
  ∧ (∀ s : State, s.md.psIn = 2 → s.hostWork = false → exec .ps2SafePoint s = .next { s with md := { s.md with psIn := 3 } })
  ∧ (∀ s : State, s.md.psIn = 3 → s.hostWork = false → exec .ps2SafePoint s = .next (answerPs 0 (s.onMd fun m => { m with ps := 2, psIn := 0 })))
  ∧ (∀ (why : Nat) (s : State), s.md.ps = 1 → why = 0 ∨ why = 1 ∨ why = 4 → exec (.powerStateExit why) s = .next (exitPs (stitchPs 0 s)))
  ∧ (∀ (why : Nat) (s : State), s.md.ps = 2 → why = 2 ∨ why = 3 ∨ why = 4 → exec (.powerStateExit why) s = .next (exitPs (stitchPs 0 s)))
  ∧ (∀ (why : Nat) (s : State), s.md.ps = 0 → exec (.powerStateExit why) s = .next s)
  ∧ (∀ (t : Nat) (mb : Option (Nat × Nat)) (s : State), s.md.psReq = some (2, t, mb) → s.md.psIn = 0 → s.md.ps ≠ 2 → t ≤ s.now →
    exec .ps2RequestTimeout s = .next (answerPs 0x010A s))

/-- Parts: drains, online tests, recalls, the recovery ladder and HBM (R472 to R484). -/
def Obligations.PartsAndTests : Prop :=
  (∀ (inst : Nat) (s : State), (s.part 0x3002 inst).st = 1 → exec (.partDrainComplete 0x3002 inst) s = .next (partOut 0x3002 inst s))
  ∧ (∀ (cls inst : Nat) (s : State), (s.part cls inst).st ≠ 1 → exec (.partDrainComplete cls inst) s = .next s)
  ∧ (∀ (port t : Nat) (s : State), port < 8 → (s.part 0x3006 port).st = 1 → (s.part 0x3006 port).drainAt = some t → t ≤ s.now →
    exec (.netPortDrainEnd port) s = .next (partOut 0x3006 port (portDown port s)))
  ∧ (∀ (pcp : Nat) (s : State), pcp < 32 → (s.part 0x2001 pcp).st = 1 → (s.part 0x2001 pcp).spare = 255 →
    exec (.hbmCopyComplete pcp) s = .next (partOut 0x2001 pcp (updPart 0x2001 pcp (fun x => { x with spare := 32 + stackOf pcp }) s)))
  ∧ (∀ (pcp : Nat) (s : State), pcp < 32 → (s.part 0x2001 pcp).st = 0 → exec (.hbmCopyComplete pcp) s = .next s)
  ∧ (∀ (cls inst : Nat) (s : State), (s.part cls inst).code ≠ 0 → (s.part cls inst).st = 2 → (s.part cls inst).back = false → (s.part cls inst).op = none →
    exec (.onlineTestEnd cls inst true) s = .next (updPart cls inst (fun x => { x with code := 0, op := none, passed := true })
      (fwEvent 0x0F ((s.part cls inst).code * 256) (ssAddr cls inst 0) s)))
  ∧ (∀ (inst : Nat) (s : State), (s.part 0x3002 inst).code ≠ 0 → (s.part 0x3002 inst).st = 2 → (s.part 0x3002 inst).op = none → (s.part 0x3002 inst).spare = 255 →
    exec (.onlineTestEnd 0x3002 inst false) s = .next (partFails 0x3002 inst (updPart 0x3002 inst (fun x => { x with back := false })
      (updPart 0x3002 inst (fun x => { x with code := 0, op := none, passed := false })
        (fwEvent 0x0F (1 + (s.part 0x3002 inst).code * 256) (ssAddr 0x3002 inst 0) s)))))
  ∧ (∀ (cls inst : Nat) (pass : Bool) (s : State), (s.part cls inst).code = 0 → exec (.onlineTestEnd cls inst pass) s = .next s)
  ∧ (∀ (cls inst cause : Nat) (s : State), recallable cls inst = true → (s.part cls inst).st < 2 → s.packageOn = true → cause ≠ 4 → s.md.mode ≠ .solo →
    exec (.tileWatchdog cls inst cause) s = .next (engineRecall cls inst s))
  ∧ (∀ (cls inst cause : Nat) (s : State), recallable cls inst = false → exec (.tileWatchdog cls inst cause) s = .next s)
  ∧ (∀ (obj : Nat) (c : Cmd) (t : Nat) (s : State), s.io.cmds = [c] → c.cp = obj → c.tag = true → s.ladderHolds c = true → c.matchAt = some t →
    t + 2 * ms ≤ s.now → exec (.recoveryRungOverrun 1 obj) s = .next (engineRecall 0x3005 obj s))
  ∧ (∀ (obj : Nat) (s : State), s.io.cmds = [] → exec (.recoveryRungOverrun 1 obj) s = .next s)
  ∧ (∀ (obj : Nat) (s : State), s.packageOn = true → s.md.fw = true → exec (.recoveryRungOverrun 3 obj) s = .next (controllerReset s))
  ∧ (∀ (obj t : Nat) (s : State), s.md.ctrlReset = some t → t ≤ s.now → exec (.recoveryRungOverrun 4 obj) s = .next (protectReset 1 s))
  ∧ (∀ (pcp : Nat) (s : State), pcp < 34 → s.packageOn = true → (s.part 0x2001 pcp).st = 0 →
    ∃ s1, exec (.hbmUncorrectedError pcp []) s = .next (partFails 0x2001 pcp s1) ∧ s1 = updPart 0x2001 pcp (fun p => { p with uncorr := p.uncorr + 1 }) s)
end

