-- ==== Sys2Proof/Laws/Memory.lean ====
section
/-! SUPPORT. The memories of the debug port and the audit log: what a write leaves, and that each keeps its form. -/

namespace Sys2Proof.Machine

theorem Memory.above_of_le {lo : Option Nat} {k : Nat} : ∀ {m : Memory}, Memory.above (some k) m = true →
    (∀ l, lo = some l → l ≤ k) → Memory.above lo m = true
  | [], _, _ => rfl
  | c :: m, h, hl => by
    simp only [Memory.above, Bool.and_eq_true, decide_eq_true_eq] at h ⊢
    refine ⟨?_, h.2⟩
    cases lo with
    | none => rfl
    | some l => exact decide_eq_true (Nat.lt_of_le_of_lt (hl l rfl) h.1)

theorem Memory.above_set (a : Nat) (b : BitVec 8) : ∀ (m : Memory) (lo : Option Nat), (∀ l, lo = some l → l < a) →
    Memory.above lo m = true → Memory.above lo (m.set a b) = true
  | [], lo, hl, _ => by
    cases lo with
    | none => rfl
    | some l => simp [Memory.set, Memory.above, hl l rfl]
  | c :: m, lo, hl, h => by
    simp only [Memory.above, Bool.and_eq_true] at h
    unfold Memory.set
    split
    · rename_i hc
      cases lo with
      | none => simp [Memory.above, hc, h.2]
      | some l => simp [Memory.above, hc, h.2, hl l rfl]
    · rename_i hc
      split
      · rename_i he
        have : c.1 = a := by simpa using he
        subst this
        cases lo with
        | none => simp [Memory.above, h.2]
        | some l => simp [Memory.above, h.2, hl l rfl]
      · rename_i he
        have hne : c.1 ≠ a := by simpa using he
        simp only [Memory.above, Bool.and_eq_true]
        exact ⟨h.1, Memory.above_set a b m (some c.1) (fun l e => by cases e; omega) h.2⟩

/-- Writing a byte keeps the canonical form. -/
theorem Memory.wf_set {m : Memory} (h : m.wf = true) (a : Nat) (b : BitVec 8) : Memory.wf (m.set a b) = true :=
  Memory.above_set a b m none (fun _ e => by cases e) h

/-- Writing bytes keeps the canonical form. -/
theorem Memory.wf_store (l : List Nat) {m : Memory} (h : m.wf = true) (a : Nat) : Memory.wf (m.store a l) = true := by
  induction l generalizing m a with
  | nil => exact h
  | cons b l ih => exact ih (Memory.wf_set h a _) (a + 1)

/-- A byte just written reads back. -/
theorem Memory.get_set_self (a : Nat) (b : BitVec 8) (m : Memory) : (m.set a b).get a = some b := by
  induction m with
  | nil => simp [Memory.set, Memory.get]
  | cons c m ih =>
    unfold Memory.set
    split
    · simp [Memory.get]
    · split
      · simp [Memory.get]
      · rename_i h
        simp [Memory.get, h, ih]

/-- Writing a byte leaves every other byte alone. -/
theorem Memory.get_set_of_ne {a k : Nat} (h : k ≠ a) (b : BitVec 8) (m : Memory) : (m.set a b).get k = m.get k := by
  have h' : (a == k) = false := by simpa using fun e => h e.symm
  induction m with
  | nil => simp [Memory.set, Memory.get, h']
  | cons c m ih =>
    unfold Memory.set
    split
    · simp [Memory.get, h']
    · split
      · rename_i e
        have : c.1 = a := by simpa using e
        simp [Memory.get, h', this]
      · simp [Memory.get, ih]

/-- Bytes outside a store read as before. -/
theorem Memory.get_store_outside (l : List Nat) {a k : Nat} (h : k < a ∨ a + l.length ≤ k) (m : Memory) :
    (m.store a l).get k = m.get k := by
  induction l generalizing m a with
  | nil => rfl
  | cons b l ih =>
    simp only [List.length_cons] at h
    rw [Memory.store, ih (by omega), Memory.get_set_of_ne (by omega)]

/-- The i-th byte of a store reads back. -/
theorem Memory.get_store_inside (l : List Nat) (a i : Nat) (h : i < l.length) (m : Memory) :
    (m.store a l).get (a + i) = some (BitVec.ofNat 8 l[i]) := by
  induction l generalizing m a i with
  | nil => simp at h
  | cons b l ih =>
    cases i with
    | zero => rw [Memory.store, Memory.get_store_outside _ (by omega)]; exact Memory.get_set_self _ _ _
    | succ i =>
      have := ih (a + 1) i (by simpa using h) (m.set a (BitVec.ofNat 8 b))
      simpa [Memory.store, Nat.add_assoc, Nat.add_comm 1 i] using this

/-! ### The audit log -/

/-- n little-endian bytes are n bytes. -/
theorem length_bytesLE (n v : Nat) : (bytesLE n v).length = n := by
  simp [bytesLE]

theorem numbered_take (k n : Nat) (l : List AEntry) (h : numbered n l) : numbered n (l.take k) := by
  induction k generalizing n l with
  | zero => simp [numbered]
  | succ k ih => cases l with
    | nil => simp [numbered]
    | cons e l => exact ⟨h.1, ih _ _ h.2⟩

theorem chained_take (k : Nat) (l : List AEntry) (h : chained l) : chained (l.take k) := by
  induction k generalizing l with
  | zero => simp [chained]
  | succ k ih => match l, h with
    | [], _ => simp [chained]
    | [e], _ => cases k <;> simp [chained]
    | e :: p :: l, h => cases k with
      | zero => simp [chained]
      | succ k => exact ⟨h.1, ih (p :: l) h.2⟩

/-- The first 56 bytes of an entry do not depend on its chain value. -/
theorem AEntry.take_bytes (e : AEntry) (c : Nat) : ({ e with chain := c } : AEntry).bytes.take 56 = e.bytes.take 56 := by
  have key : ∀ l r q : List Nat, l.length = 56 → (l ++ r).take 56 = (l ++ q).take 56 := by
    intro l r q h
    rw [List.take_append_of_le_length (by omega), List.take_append_of_le_length (by omega)]
  exact key _ _ _ (by simp [length_bytesLE])

/-- An entry appended keeps the log whole. -/
theorem auditWrite_whole (e : AEntry) (s : State) (w : s.audit.Whole) : (auditWrite e s).audit.Whole := by
  obtain ⟨hn, hc, hl⟩ := w
  refine ⟨numbered_take _ _ _ ⟨rfl, hn⟩, chained_take _ _ ?_, by simp [auditWrite, State.onAudit]⟩
  cases hlog : s.audit.log with
  | nil => simp [chained]
  | cons p l => 
    rw [hlog] at hc
    exact ⟨by rw [AEntry.take_bytes], hc⟩

end Sys2Proof.Machine
end

