-- ==== Sys2Proof/Laws/Follows.lean ====
section
/-! SUPPORT. The relation between a state and the state that an operation leaves, with its rules. -/

namespace Sys2Proof.Machine

/-- What every operation of the unit keeps between the state it starts from and the state it leaves: the queue of waiting commands,
elapsed time, the sizes of the numbered tables, the audit log's wholeness and its sequence, the canonical form of the debug memories, PERST# without power-good. -/
structure Follows (s t : State) : Prop where
  pending : t.pending = s.pending
  now : t.time.now = s.time.now
  free : s.free ≤ t.free
  chans : t.bays.ch.length = s.bays.ch.length
  drives : t.bays.drives.length = s.bays.drives.length
  leases : t.pair.leases.length = s.pair.leases.length
  cores : t.dbg.cores.length = s.dbg.cores.length
  audit : s.audit.Whole → t.audit.Whole
  memories : s.dbg.Canonical → t.dbg.Canonical
  sequence : s.audit.next ≤ t.audit.next
  perst : s.bays.Powered → t.bays.Powered

theorem Follows.refl (s : State) : Follows s s := ⟨rfl, rfl, Nat.le_refl _, rfl, rfl, rfl, rfl, id, id, Nat.le_refl _, id⟩
theorem Follows.trans {a b c : State} (h : Follows a b) (k : Follows b c) : Follows a c :=
  ⟨k.pending.trans h.pending, k.now.trans h.now, h.free.trans k.free, k.chans.trans h.chans, k.drives.trans h.drives,
   k.leases.trans h.leases, k.cores.trans h.cores, k.audit ∘ h.audit, k.memories ∘ h.memories, h.sequence.trans k.sequence, k.perst ∘ h.perst⟩

theorem Follows.onTime {a s : State} (r : Follows a s) (f : Time → Time) (h : (f s.time).now = s.time.now) : Follows a (s.onTime f) :=
  r.trans ⟨rfl, h, Nat.le_refl _, rfl, rfl, rfl, rfl, id, id, Nat.le_refl _, id⟩
theorem Follows.onMd {a s : State} (r : Follows a s) (f : Md → Md) : Follows a (s.onMd f) :=
  r.trans ⟨rfl, rfl, Nat.le_refl _, rfl, rfl, rfl, rfl, id, id, Nat.le_refl _, id⟩
theorem Follows.onIo {a s : State} (r : Follows a s) (f : Io → Io) : Follows a (s.onIo f) :=
  r.trans ⟨rfl, rfl, Nat.le_refl _, rfl, rfl, rfl, rfl, id, id, Nat.le_refl _, id⟩
theorem Follows.onSw {a s : State} (r : Follows a s) (f : Sw → Sw) : Follows a (s.onSw f) :=
  r.trans ⟨rfl, rfl, Nat.le_refl _, rfl, rfl, rfl, rfl, id, id, Nat.le_refl _, id⟩
theorem Follows.onCfg {a s : State} (r : Follows a s) (f : Cfg → Cfg) : Follows a (s.onCfg f) :=
  r.trans ⟨rfl, rfl, Nat.le_refl _, rfl, rfl, rfl, rfl, id, id, Nat.le_refl _, id⟩
theorem Follows.onMbx {a s : State} (r : Follows a s) (f : Mbx → Mbx) : Follows a (s.onMbx f) :=
  r.trans ⟨rfl, rfl, Nat.le_refl _, rfl, rfl, rfl, rfl, id, id, Nat.le_refl _, id⟩
theorem Follows.onImg {a s : State} (r : Follows a s) (f : Image → Image) : Follows a (s.onImg f) :=
  r.trans ⟨rfl, rfl, Nat.le_refl _, rfl, rfl, rfl, rfl, id, id, Nat.le_refl _, id⟩
theorem Follows.onParts {a s : State} (r : Follows a s) (f : List Part → List Part) : Follows a (s.onParts f) :=
  r.trans ⟨rfl, rfl, Nat.le_refl _, rfl, rfl, rfl, rfl, id, id, Nat.le_refl _, id⟩

theorem Follows.onPair {a s : State} (r : Follows a s) (f : Pair → Pair) (h : (f s.pair).leases.length = s.pair.leases.length) :
    Follows a (s.onPair f) := r.trans ⟨rfl, rfl, Nat.le_refl _, rfl, rfl, h, rfl, id, id, Nat.le_refl _, id⟩
theorem Follows.onBays {a s : State} (r : Follows a s) (f : Bays → Bays) (h : (f s.bays).ch.length = s.bays.ch.length)
    (k : (f s.bays).drives.length = s.bays.drives.length) (p : s.bays.Powered → (f s.bays).Powered) : Follows a (s.onBays f) :=
  r.trans ⟨rfl, rfl, Nat.le_refl _, h, k, rfl, rfl, id, id, Nat.le_refl _, p⟩
theorem Follows.onAudit {a s : State} (r : Follows a s) (f : Audit → Audit) (h : (f s.audit).log = s.audit.log)
    (k : (f s.audit).next = s.audit.next) : Follows a (s.onAudit f) :=
  r.trans ⟨rfl, rfl, Nat.le_refl _, rfl, rfl, rfl, rfl, fun w => by simpa [State.onAudit, Audit.Whole, h, k] using w, id, Nat.le_of_eq k.symm, id⟩
theorem Follows.onDbg {a s : State} (r : Follows a s) (f : Dbg → Dbg) (h : (f s.dbg).cores.length = s.dbg.cores.length)
    (k : s.dbg.Canonical → (f s.dbg).Canonical) : Follows a (s.onDbg f) :=
  r.trans ⟨rfl, rfl, Nat.le_refl _, rfl, rfl, rfl, h, id, k, Nat.le_refl _, id⟩
theorem Bays.Powered.modify {b : Bays} {n : Nat} {f : Chan → Chan}
    (p : ∀ c, (c.perst = false → c.pg = true) → (f c).perst = false → (f c).pg = true) (h : b.Powered) :
    Bays.Powered { b with ch := b.ch.modify n f } := by
  intro c hc
  obtain ⟨i, hi⟩ := List.getElem?_of_mem hc
  rw [List.getElem?_modify] at hi
  obtain ⟨d, hd, rfl⟩ := Option.map_eq_some_iff.mp hi
  have := h d (List.mem_of_getElem? hd)
  split
  · exact p _ this
  · exact this
theorem Bays.Powered.same {b d : Bays} (e : d.ch = b.ch) (h : b.Powered) : d.Powered := by
  intro c hc
  exact h c (e ▸ hc)
theorem Bays.Powered.map {b d : Bays} {f : Chan → Chan}
    (p : ∀ c, (c.perst = false → c.pg = true) → (f c).perst = false → (f c).pg = true) (e : d.ch = b.ch.map f) (h : b.Powered) :
    d.Powered := by
  intro c hc
  obtain ⟨x, hx, rfl⟩ := List.mem_map.mp (e ▸ hc)
  exact p _ (h x hx)
theorem Bays.Powered.mapIdx {b d : Bays} {f : Nat → Chan → Chan}
    (p : ∀ n c, (c.perst = false → c.pg = true) → (f n c).perst = false → (f n c).pg = true) (e : d.ch = b.ch.mapIdx f) (h : b.Powered) :
    d.Powered := by
  intro c hc
  obtain ⟨i, hi, rfl⟩ := List.mem_mapIdx.mp (e ▸ hc)
  exact p _ _ (h _ (List.getElem_mem hi))
theorem State.drawn_follows {a s : State} (r : Follows a s) : Follows a s.drawn :=
  r.trans ⟨rfl, rfl, Nat.le_succ _, rfl, rfl, rfl, rfl, id, id, Nat.le_refl _, id⟩
theorem Follows.foldl {α} {a s : State} (r : Follows a s) (f : State → α → State) (l : List α) (h : ∀ s x, Follows s (f s x)) :
    Follows a (l.foldl f s) := by
  induction l generalizing s with
  | nil => exact r
  | cons x l ih => exact ih (r.trans (h s x))
theorem Follows.foldr {α} {a s : State} (r : Follows a s) (f : α → State → State) (l : List α) (h : ∀ s x, Follows s (f x s)) :
    Follows a (l.foldr f s) := by
  induction l with
  | nil => exact r
  | cons x l ih => exact ih.trans (h _ x)
theorem Follows.ite {c : Prop} [Decidable c] {a s t : State} (h : Follows a s) (k : Follows a t) : Follows a (if c then s else t) := by
  split <;> assumption
theorem Follows.ite_fst {α} {c : Prop} [Decidable c] {a : State} {p q : State × α} (h : Follows a p.1) (k : Follows a q.1) :
    Follows a (if c then p else q).1 := by
  split <;> assumption
theorem Follows.of_fst {α} {s t : State} {x : α} {p : State × α} (h : p = (t, x)) (k : Follows s p.1) : Follows s t := by
  rw [h] at k; exact k
theorem Follows.of_snd {α} {s t : State} {x : α} {p : α × State} (h : p = (x, t)) (k : Follows s p.2) : Follows s t := by
  rw [h] at k; exact k
theorem Follows.cut {a s t : State} (h : Follows s t) (r : Follows a s) : Follows a t := r.trans h
theorem auditWrite_follows {a s : State} (r : Follows a s) (e : AEntry) : Follows a (auditWrite e s) :=
  r.trans ⟨rfl, rfl, Nat.le_refl _, rfl, rfl, rfl, rfl, auditWrite_whole e s, id, Nat.le_succ _, id⟩
/-- What a command keeps where it answers a next state. -/
inductive Keeps (s : State) : Host.Outcome State Fault Refusal → Prop
  | next {t : State} (h : Follows s t) : Keeps s (.next t)
  | fault (f : Fault) : Keeps s (.fault f)
  | refused (f : Refusal) : Keeps s (.refused f)
theorem Keeps.ite {c : Prop} [Decidable c] {s : State} {x y : Host.Outcome State Fault Refusal} (h : Keeps s x) (k : Keeps s y) :
    Keeps s (if c then x else y) := by
  split <;> assumption

end Sys2Proof.Machine
end

