-- ==== Sys2Proof/Laws/Ops1.lean ====
section
/-! SUPPORT. What each shared operation keeps, from updAssoc to superblockStep. -/

namespace Sys2Proof.Machine

theorem updAssoc_follows {a₀ s : State} (r : Follows a₀ s) (a : Nat) (f : Assoc → Assoc) :
    Follows a₀ (updAssoc a f s) := by
  unfold updAssoc
  try dsimp only
  repeat' first
    | with_reducible (assumption)
    | with_reducible (exact Follows.refl _)
    | with_reducible (apply Follows.onIo)

theorem updCmd_follows {a₀ s : State} (r : Follows a₀ s) (a : Nat) (r : Nat) (f : Cmd → Cmd) :
    Follows a₀ (updCmd a r f s) := by
  unfold updCmd
  try dsimp only
  repeat' first
    | with_reducible (assumption)
    | with_reducible (exact Follows.refl _)
    | with_reducible (apply Follows.onIo)

theorem updArr_follows {a₀ s : State} (r : Follows a₀ s) (n : Nat) (f : Arr → Arr) :
    Follows a₀ (updArr n f s) := by
  unfold updArr
  try dsimp only
  repeat' first
    | with_reducible (assumption)
    | with_reducible (exact Follows.refl _)
    | with_reducible (apply Follows.onIo)

theorem updVol_follows {a₀ s : State} (r : Follows a₀ s) (n : Nat) (f : Volume → Volume) :
    Follows a₀ (updVol n f s) := by
  unfold updVol
  try dsimp only
  repeat' first
    | with_reducible (assumption)
    | with_reducible (exact Follows.refl _)
    | with_reducible (apply Follows.onIo)

theorem updChan_follows {a₀ s : State} (r : Follows a₀ s) (n : Nat) (f : Chan → Chan)
    (p : ∀ c, (c.perst = false → c.pg = true) → (f c).perst = false → (f c).pg = true) :
    Follows a₀ (updChan n f s) := by
  unfold updChan
  try dsimp only
  repeat' first
    | with_reducible (assumption)
    | with_reducible (exact Follows.refl _)
    | with_reducible (apply Follows.onBays)
    | with_reducible rfl
    | rfl
    | exact id
    | exact List.length_modify ..
    | exact Bays.Powered.modify p

theorem updDrive_follows {a₀ s : State} (r : Follows a₀ s) (n : Nat) (f : Drive → Drive) :
    Follows a₀ (updDrive n f s) := by
  unfold updDrive
  try dsimp only
  repeat' first
    | with_reducible (assumption)
    | with_reducible (exact Follows.refl _)
    | with_reducible (apply Follows.onBays)
    | exact Bays.Powered.same rfl
    | with_reducible rfl
    | rfl
    | exact id
    | exact List.length_modify ..

theorem updLease_follows {a₀ s : State} (r : Follows a₀ s) (n : Nat) (f : Lease → Lease) :
    Follows a₀ (updLease n f s) := by
  unfold updLease
  try dsimp only
  repeat' first
    | with_reducible (assumption)
    | with_reducible (exact Follows.refl _)
    | with_reducible (apply Follows.onPair)
    | with_reducible rfl
    | rfl
    | exact id
    | exact List.length_modify ..

theorem updDc_follows {a₀ s : State} (r : Follows a₀ s) (n : Nat) (f : DrvCmd → DrvCmd) :
    Follows a₀ (updDc n f s) := by
  unfold updDc
  try dsimp only
  repeat' first
    | with_reducible (assumption)
    | with_reducible (exact Follows.refl _)
    | with_reducible (apply Follows.onIo)

theorem putSetting_follows {a₀ s : State} (r : Follows a₀ s) (sid : Nat) (inst : Nat) (v : Int) :
    Follows a₀ (putSetting sid inst v s) := by
  unfold putSetting
  try dsimp only
  repeat' first
    | with_reducible (assumption)
    | with_reducible (exact Follows.refl _)
    | with_reducible (apply Follows.onCfg)

theorem auditPush_follows {a₀ s : State} (r : Follows a₀ s) (e : AEntry) :
    Follows a₀ (auditPush e s) := by
  unfold auditPush
  try dsimp only
  repeat' first
    | with_reducible (assumption)
    | with_reducible (exact Follows.refl _)
    | with_reducible (apply Follows.ite)
    | with_reducible (apply auditWrite_follows)
    | with_reducible (apply Follows.onAudit)
    | with_reducible rfl

theorem fwEvent_follows {a₀ s : State} (r : Follows a₀ s) (code : Nat) (data : Nat) (obj : Nat) (new : Nat) :
    Follows a₀ (fwEvent code data obj s new) := by
  unfold fwEvent
  try dsimp only
  repeat' first
    | with_reducible (assumption)
    | with_reducible (exact Follows.refl _)
    | with_reducible (apply auditPush_follows)

theorem alarmEvent_follows {a₀ s : State} (r : Follows a₀ s) (alarm : Nat) (raised : Bool) :
    Follows a₀ (alarmEvent alarm raised s) := by
  unfold alarmEvent
  try dsimp only
  repeat' first
    | with_reducible (assumption)
    | with_reducible (exact Follows.refl _)
    | with_reducible (apply Follows.ite)
    | with_reducible (apply fwEvent_follows)

theorem updPart_follows {a₀ s : State} (r : Follows a₀ s) (cls : Nat) (inst : Nat) (f : Part → Part) :
    Follows a₀ (updPart cls inst f s) := by
  unfold updPart
  try dsimp only
  repeat' first
    | with_reducible (assumption)
    | with_reducible (exact Follows.refl _)
    | with_reducible (apply Follows.onParts)

theorem updParser_follows {a₀ s : State} (r : Follows a₀ s) (p : Nat) (f : Parser → Parser) :
    Follows a₀ (updParser p f s) := by
  unfold updParser
  try dsimp only
  repeat' first
    | with_reducible (assumption)
    | with_reducible (exact Follows.refl _)
    | with_reducible (apply Follows.onSw)

theorem updPort_follows {a₀ s : State} (r : Follows a₀ s) (p : Nat) (c : Nat) (f : PortCnt → PortCnt) :
    Follows a₀ (updPort p c f s) := by
  unfold updPort
  try dsimp only
  repeat' first
    | with_reducible (assumption)
    | with_reducible (exact Follows.refl _)
    | with_reducible (apply Follows.onSw)

theorem whenDue_follows {a₀ s : State} (r : Follows a₀ s) (d : Option Nat) (f : State → State) (hf : ∀ (z : State), Follows z (f z)) :
    Follows a₀ (whenDue d f s) := by
  unfold whenDue
  try dsimp only
  repeat' first
    | with_reducible (assumption)
    | with_reducible (exact Follows.refl _)
    | with_reducible (apply Follows.ite)
    | with_reducible (apply Follows.cut; (apply hf))

theorem endOper_follows {a₀ s : State} (r : Follows a₀ s) (op : Nat) (st : Nat) (code : Nat) :
    Follows a₀ (endOper op st code s) := by
  unfold endOper
  try dsimp only
  repeat' first
    | with_reducible (assumption)
    | with_reducible (exact Follows.refl _)
    | with_reducible (apply Follows.ite)
    | with_reducible (apply Follows.onMbx)

theorem endProof_follows {a₀ s : State} (r : Follows a₀ s) (st : Nat) (code : Nat) :
    Follows a₀ (endProof st code s) := by
  unfold endProof
  try dsimp only
  repeat' first
    | with_reducible (assumption)
    | with_reducible (exact Follows.refl _)
    | with_reducible (apply endOper_follows)
    | with_reducible (apply Follows.onPair)
    | with_reducible rfl
    | rfl
    | exact id
    | exact List.length_modify ..
    | exact List.length_mapIdx ..
    | exact List.length_map ..
    | exact List.length_set ..
    | split

theorem spillBalance_follows {a₀ s : State} (r : Follows a₀ s) :
    Follows a₀ (spillBalance s) := by
  unfold spillBalance
  try dsimp only
  repeat' first
    | with_reducible (assumption)
    | with_reducible (exact Follows.refl _)
    | with_reducible (apply Follows.ite)
    | with_reducible (apply Follows.onIo)
    | with_reducible (apply Follows.onSw)

theorem highWater_follows {a₀ s : State} (r : Follows a₀ s) (p : Nat) (c : Nat) :
    Follows a₀ (highWater p c s) := by
  unfold highWater
  try dsimp only
  repeat' first
    | with_reducible (assumption)
    | with_reducible (exact Follows.refl _)
    | with_reducible (apply updPort_follows)
    | with_reducible (apply Follows.onSw)

theorem enqueue_follows {a₀ s : State} (r : Follows a₀ s) (p : Nat) (c : Nat) (bytes : Nat) (m : OutMsg) (src : Nat) :
    Follows a₀ (enqueue p c bytes m s src) := by
  unfold enqueue
  try dsimp only
  repeat' first
    | with_reducible (assumption)
    | with_reducible (exact Follows.refl _)
    | with_reducible (apply Follows.ite)
    | with_reducible (apply updPort_follows)
    | with_reducible (apply spillBalance_follows)
    | with_reducible (apply highWater_follows)
    | with_reducible (apply Follows.onSw)

theorem pauseCheck_follows {a₀ s : State} (r : Follows a₀ s) (p : Nat) (prio : Nat) :
    Follows a₀ (pauseCheck p prio s) := by
  unfold pauseCheck
  try dsimp only
  repeat' first
    | with_reducible (assumption)
    | with_reducible (exact Follows.refl _)
    | with_reducible (apply Follows.ite)
    | with_reducible (apply updPort_follows)
    | with_reducible (apply Follows.onSw)

theorem sinkCells_follows {a₀ s : State} (r : Follows a₀ s) (a : Nat) (seq : Nat) :
    Follows a₀ (sinkCells a seq s) := by
  unfold sinkCells
  try dsimp only
  repeat' first
    | with_reducible (assumption)
    | with_reducible (exact Follows.refl _)
    | with_reducible (apply updPort_follows)
    | with_reducible (apply pauseCheck_follows)
    | with_reducible (apply Follows.onSw)
    | split

theorem admitSeq_follows {a₀ s : State} (r : Follows a₀ s) (a : Assoc) (cls : Nat) (body : PktBody) :
    Follows a₀ (admitSeq a cls body s) := by
  unfold admitSeq
  try dsimp only
  repeat' first
    | with_reducible (assumption)
    | with_reducible (exact Follows.refl _)
    | with_reducible (apply updAssoc_follows)
    | with_reducible (apply enqueue_follows)

theorem sendSeq_follows {a₀ s : State} (r : Follows a₀ s) (id : Nat) (cls : Nat) (b : PktBody) :
    Follows a₀ (sendSeq id cls b s) := by
  unfold sendSeq
  try dsimp only
  repeat' first
    | with_reducible (assumption)
    | with_reducible (exact Follows.refl _)
    | with_reducible (apply Follows.ite)
    | with_reducible (apply updAssoc_follows)
    | with_reducible (apply admitSeq_follows)
    | split

theorem sendAck_follows {a₀ s : State} (r : Follows a₀ s) (id : Nat) :
    Follows a₀ (sendAck id s) := by
  unfold sendAck
  try dsimp only
  repeat' first
    | with_reducible (assumption)
    | with_reducible (exact Follows.refl _)
    | with_reducible (apply updAssoc_follows)
    | with_reducible (apply enqueue_follows)
    | split

theorem sendNak_follows {a₀ s : State} (r : Follows a₀ s) (id : Nat) (reason : Nat) (ranges : List (Nat × Nat)) :
    Follows a₀ (sendNak id reason ranges s) := by
  unfold sendNak
  try dsimp only
  repeat' first
    | with_reducible (assumption)
    | with_reducible (exact Follows.refl _)
    | with_reducible (apply updAssoc_follows)
    | with_reducible (apply enqueue_follows)
    | split

theorem sendNakClear_follows {a₀ s : State} (r : Follows a₀ s) (port : Nat) (dst : Nat) (reason : Nat) :
    Follows a₀ (sendNakClear port dst reason s) := by
  unfold sendNakClear
  try dsimp only
  repeat' first
    | with_reducible (assumption)
    | with_reducible (exact Follows.refl _)
    | with_reducible (apply enqueue_follows)

theorem sendYarn_follows {a₀ s : State} (r : Follows a₀ s) (cls : Nat) (bytes : Nat) (m : OutMsg) :
    Follows a₀ (sendYarn cls bytes m s) := by
  unfold sendYarn
  try dsimp only
  repeat' first
    | with_reducible (assumption)
    | with_reducible (exact Follows.refl _)
    | with_reducible (apply Follows.ite)
    | with_reducible (apply enqueue_follows)

theorem issueStitch_follows {a₀ s : State} (r : Follows a₀ s) (kind : Nat) (arr : Nat) (assoc : Nat) (row : Nat) (data : List Nat) :
    Follows a₀ (issueStitch kind arr assoc row data s) := by
  unfold issueStitch
  try dsimp only
  repeat' first
    | with_reducible (assumption)
    | with_reducible (exact Follows.refl _)
    | with_reducible (apply Follows.ite)
    | with_reducible (apply sendYarn_follows)
    | with_reducible (apply Follows.onPair)
    | with_reducible rfl

theorem stitchResult_follows {a₀ s : State} (r : Follows a₀ s) (x : Slot) (code : Nat) (seq : Nat) (payload : List Nat) :
    Follows a₀ (stitchResult x code seq payload s) := by
  unfold stitchResult
  try dsimp only
  repeat' first
    | with_reducible (assumption)
    | with_reducible (exact Follows.refl _)
    | with_reducible (apply Follows.ite)
    | with_reducible (apply issueStitch_follows)

theorem freeSlot_follows {a₀ s : State} (r : Follows a₀ s) (path : Nat) (slot : Nat) :
    Follows a₀ (freeSlot path slot s) := by
  unfold freeSlot
  try dsimp only
  repeat' first
    | with_reducible (assumption)
    | with_reducible (exact Follows.refl _)
    | with_reducible (apply Follows.onMbx)

theorem putResult_follows {a₀ s : State} (r : Follows a₀ s) (x : Slot) (code : Nat) (seq : Nat) (payload : List Nat) :
    Follows a₀ (putResult x code seq payload s) := by
  unfold putResult
  try dsimp only
  repeat' first
    | with_reducible (assumption)
    | with_reducible (exact Follows.refl _)
    | with_reducible (apply Follows.ite)
    | with_reducible (apply freeSlot_follows)
    | with_reducible (apply Follows.onMbx)

theorem answerSlot_follows {a₀ s : State} (r : Follows a₀ s) (path : Nat) (slot : Nat) (code : Nat) (payload : List Nat) :
    Follows a₀ (answerSlot path slot code payload s) := by
  unfold answerSlot
  try dsimp only
  repeat' first
    | with_reducible (assumption)
    | with_reducible (exact Follows.refl _)
    | with_reducible (apply Follows.ite)
    | with_reducible (apply auditPush_follows)
    | with_reducible (apply stitchResult_follows)
    | with_reducible (apply putResult_follows)
    | split

theorem endProposals_follows {a₀ s : State} (r : Follows a₀ s) :
    Follows a₀ (endProposals s) := by
  unfold endProposals
  try dsimp only
  repeat' first
    | with_reducible (assumption)
    | with_reducible (exact Follows.refl _)
    | with_reducible (apply answerSlot_follows)
    | with_reducible (apply Follows.onMbx)
    | with_reducible (apply Follows.onPair)
    | with_reducible (apply Follows.foldl)
    | with_reducible rfl
    | rfl
    | exact id
    | exact List.length_modify ..
    | exact List.length_mapIdx ..
    | exact List.length_map ..
    | exact List.length_set ..
    | (intro hc; simpa [Dbg.Canonical] using hc)
    | split
    | (refine Follows.of_fst (by assumption) ?_)
    | (refine Follows.of_snd (by assumption) ?_)
    | intro

theorem settleSlots_follows {a₀ s : State} (r : Follows a₀ s) :
    Follows a₀ (settleSlots s) := by
  unfold settleSlots
  try dsimp only
  repeat' first
    | with_reducible (assumption)
    | with_reducible (exact Follows.refl _)
    | with_reducible (apply answerSlot_follows)
    | with_reducible (apply Follows.foldl)
    | split
    | (refine Follows.of_fst (by assumption) ?_)
    | (refine Follows.of_snd (by assumption) ?_)
    | intro

theorem slotDc_follows {a₀ s : State} (r : Follows a₀ s) (dc : Nat) (ok : Bool) :
    Follows a₀ (slotDc dc ok s) := by
  unfold slotDc
  try dsimp only
  repeat' first
    | with_reducible (assumption)
    | with_reducible (exact Follows.refl _)
    | with_reducible (apply Follows.ite)
    | with_reducible (apply answerSlot_follows)
    | with_reducible (apply Follows.onMbx)
    | split

theorem logError_follows {a₀ s : State} (r : Follows a₀ s) (c : Cmd) (sc : Nat) :
    Follows a₀ (logError c sc s) := by
  unfold logError
  try dsimp only
  repeat' first
    | with_reducible (assumption)
    | with_reducible (exact Follows.refl _)
    | with_reducible (apply Follows.onAudit)
    | with_reducible rfl

theorem sendResp_follows {a₀ s : State} (r : Follows a₀ s) (a : Assoc) (r : Resp) :
    Follows a₀ (sendResp a r s) := by
  unfold sendResp
  try dsimp only
  repeat' first
    | with_reducible (assumption)
    | with_reducible (exact Follows.refl _)
    | with_reducible (apply Follows.ite)
    | with_reducible (apply enqueue_follows)
    | with_reducible (apply sendSeq_follows)

theorem freeAssoc_follows {a₀ s : State} (r : Follows a₀ s) (id : Nat) :
    Follows a₀ (freeAssoc id s) := by
  unfold freeAssoc
  try dsimp only
  repeat' first
    | with_reducible (assumption)
    | with_reducible (exact Follows.refl _)
    | with_reducible (apply Follows.ite)
    | with_reducible (apply updPort_follows)
    | with_reducible (apply endOper_follows)
    | with_reducible (apply Follows.onIo)
    | with_reducible (apply Follows.onSw)
    | with_reducible (apply Follows.foldl)
    | split
    | (refine Follows.of_fst (by assumption) ?_)
    | (refine Follows.of_snd (by assumption) ?_)
    | intro

theorem freeIfDone_follows {a₀ s : State} (r : Follows a₀ s) (id : Nat) :
    Follows a₀ (freeIfDone id s) := by
  unfold freeIfDone
  try dsimp only
  repeat' first
    | with_reducible (assumption)
    | with_reducible (exact Follows.refl _)
    | with_reducible (apply Follows.ite)
    | with_reducible (apply freeAssoc_follows)
    | split

theorem finish_follows {a₀ s : State} (r : Follows a₀ s) (id : Nat) (row : Nat) (sc : Nat) (dw0 : Nat) (dw1 : Nat) (more : Bool) :
    Follows a₀ (finish id row sc dw0 dw1 more s) := by
  unfold finish
  split
  · split
    · exact updCmd_follows r _ _ _
    · extract_lets s1 moreB ab s2 c1 s3 rr num s4 mineW s5
      have h1 : Follows a₀ s1 := by
        simp only [s1]; split
        · exact logError_follows r _ _
        · exact r
      have h2 : Follows a₀ s2 := h1.onAudit _ (by split <;> rfl) (by split <;> rfl)
      have h3 : Follows a₀ s3 := updAssoc_follows (h2.onIo _) _ _
      have h4 : Follows a₀ s4 := h3.onPair _ (by split; rfl; split <;> rfl)
      have h5 : Follows a₀ s5 := by
        simp only [s5]; split
        · exact sendYarn_follows h4 _ _ _
        · exact h4
      apply settleSlots_follows
      split
      · exact freeIfDone_follows h5 _
      · exact sendResp_follows h5 _ _
  · exact r

theorem finishAfter_follows {a₀ s : State} (r : Follows a₀ s) (id : Nat) (row : Nat) (stitch : Nat) (sc : Nat) (dw0 : Nat) (dw1 : Nat) (more : Bool) :
    Follows a₀ (finishAfter id row stitch sc dw0 dw1 more s) := by
  unfold finishAfter
  try dsimp only
  repeat' first
    | with_reducible (assumption)
    | with_reducible (exact Follows.refl _)
    | with_reducible (apply updCmd_follows)

theorem finishAdm_follows {a₀ s : State} (r : Follows a₀ s) (c : Cmd) (sc : Nat) (dw0 : Nat) (dw1 : Nat) :
    Follows a₀ (finishAdm c sc dw0 dw1 s) := by
  unfold finishAdm
  try dsimp only
  repeat' first
    | with_reducible (assumption)
    | with_reducible (exact Follows.refl _)
    | with_reducible (apply Follows.ite)
    | with_reducible (apply finish_follows)
    | with_reducible (apply finishAfter_follows)
    | split

theorem finishVia_follows {a₀ s : State} (r : Follows a₀ s) (kind : Nat) (data : List Nat) (c : Cmd) (sc : Nat) (dw0 : Nat) (dw1 : Nat) (more : Bool) :
    Follows a₀ (finishVia kind data c sc dw0 dw1 more s) := by
  unfold finishVia
  try dsimp only
  repeat' first
    | with_reducible (assumption)
    | with_reducible (exact Follows.refl _)
    | with_reducible (apply Follows.ite)
    | with_reducible (apply issueStitch_follows)
    | with_reducible (apply finish_follows)
    | with_reducible (apply finishAfter_follows)

theorem raiseEvent_follows {a₀ s : State} (r : Follows a₀ s) (id : Nat) (etype : Nat) (info : Nat) (page : Nat) :
    Follows a₀ (raiseEvent id etype info page s) := by
  unfold raiseEvent
  try dsimp only
  repeat' first
    | with_reducible (assumption)
    | with_reducible (exact Follows.refl _)
    | with_reducible (apply Follows.ite)
    | with_reducible (apply updAssoc_follows)
    | with_reducible (apply finishAdm_follows)
    | split

theorem raiseAll_follows {a₀ s : State} (r : Follows a₀ s) (p : Assoc → Bool) (etype : Nat) (info : Nat) (page : Nat) :
    Follows a₀ (raiseAll p etype info page s) := by
  unfold raiseAll
  try dsimp only
  repeat' first
    | with_reducible (assumption)
    | with_reducible (exact Follows.refl _)
    | with_reducible (apply raiseEvent_follows)
    | with_reducible (apply Follows.foldl)
    | split
    | (refine Follows.of_fst (by assumption) ?_)
    | (refine Follows.of_snd (by assumption) ?_)
    | intro

theorem recordViolation_follows {a₀ s : State} (r : Follows a₀ s) (id : Nat) (reason : Nat) (key : Nat) (row : Nat) :
    Follows a₀ (recordViolation id reason key row s) := by
  unfold recordViolation
  try dsimp only
  repeat' first
    | with_reducible (assumption)
    | with_reducible (exact Follows.refl _)
    | with_reducible (apply Follows.ite)
    | with_reducible (apply updAssoc_follows)
    | with_reducible (apply auditPush_follows)
    | with_reducible (apply Follows.onAudit)
    | with_reducible rfl

theorem violate_follows {a₀ s : State} (r : Follows a₀ s) (id : Nat) (reason : Nat) (offType : Nat) (len : Nat) (offSeq : Nat) (key : Nat) (off : Nat) (row : Nat) :
    Follows a₀ (violate id reason offType len offSeq key off row s) := by
  unfold violate
  try dsimp only
  repeat' first
    | with_reducible (assumption)
    | with_reducible (exact Follows.refl _)
    | with_reducible (apply sendSeq_follows)
    | with_reducible (apply recordViolation_follows)

theorem admitWaiting_follows {a₀ s : State} (r : Follows a₀ s) (n id : Nat) : Follows a₀ (admitWaiting n id s) := by
  induction n generalizing s with
  | zero => exact r
  | succ n ih =>
    unfold admitWaiting
    repeat' first
      | with_reducible assumption
      | with_reducible apply ih
      | with_reducible apply admitSeq_follows
      | with_reducible apply updAssoc_follows
      | split

theorem ackFields_follows {a₀ s : State} (r : Follows a₀ s) (id : Nat) (cum : Nat) (sack : Nat) :
    Follows a₀ (ackFields id cum sack s) := by
  unfold ackFields
  try dsimp only
  repeat' first
    | with_reducible (assumption)
    | with_reducible (exact Follows.refl _)
    | with_reducible (apply updAssoc_follows)
    | with_reducible (apply admitWaiting_follows)
    | with_reducible (apply Follows.foldl)
    | split

theorem answerFlushes_follows {a₀ s : State} (r : Follows a₀ s) (id : Nat) :
    Follows a₀ (answerFlushes id s) := by
  unfold answerFlushes
  split
  · exact r
  · exact r.foldl _ _ (fun t f => sendSeq_follows (updAssoc_follows (Follows.refl t) _ _) _ _ _)

theorem receive_follows {a₀ s : State} (r : Follows a₀ s) (h : Hdr) (ty : Nat) :
    Follows a₀ (receive h ty s) := by
  unfold receive
  try dsimp only
  repeat' first
    | with_reducible (assumption)
    | with_reducible (exact Follows.refl _)
    | with_reducible (apply Follows.ite)
    | with_reducible (apply updAssoc_follows)
    | with_reducible (apply sendAck_follows)
    | with_reducible (apply ackFields_follows)
    | with_reducible (apply answerFlushes_follows)
    | split

/-- What the checks of an arrival keep where they stop it. -/
inductive Arrival.Keeps (s : State) : Arrival → Prop
  | stop {t : State} (h : Follows s t) : Arrival.Keeps s (.stop t)
  | go (a : Assoc) : Arrival.Keeps s (.go a)
theorem Arrival.Keeps.ite {c : Prop} [Decidable c] {s : State} {x y : Arrival} (h : Arrival.Keeps s x) (k : Arrival.Keeps s y) :
    Arrival.Keeps s (if c then x else y) := by
  split <;> assumption
theorem Arrival.Keeps.follows {s t : State} {x : Arrival} (h : Arrival.Keeps s x) (e : x = .stop t) : Follows s t := by
  subst e; cases h; assumption
theorem keys3Stop_follows (a : Assoc) (h : Hdr) (s t : State) (hu : keys3Stop a h s = some t) : Follows s t := by
  unfold keys3Stop at hu
  split at hu
  · cases hu; exact sendNak_follows (updParser_follows (Follows.refl _) _ _) _ _ _
  split at hu
  · cases hu; exact updParser_follows (Follows.refl _) _ _
  split at hu
  · cases hu; exact updParser_follows (Follows.refl _) _ _
  · cases hu
theorem arrivalCheck_follows (h : Hdr) (ty : Nat) (s : State) : Arrival.Keeps s (arrivalCheck h ty s) := by
  unfold arrivalCheck
  repeat' first
    | with_reducible exact Arrival.Keeps.go _
    | with_reducible apply Arrival.Keeps.ite
    | with_reducible apply Arrival.Keeps.stop
    | with_reducible exact Follows.refl _
    | exact keys3Stop_follows _ _ _ _ (by assumption)
    | with_reducible apply sendNakClear_follows
    | with_reducible apply sendNak_follows
    | with_reducible apply sendAck_follows
    | with_reducible apply updAssoc_follows
    | with_reducible apply updParser_follows
    | with_reducible apply sinkCells_follows
    | dsimp only
    | split

theorem onArrival_follows {a₀ s : State} (r : Follows a₀ s) (h : Hdr) (ty : Nat) (f : Assoc → State → State) (hf : ∀ (x0 : Assoc) (z : State), Follows z (f x0 z)) :
    Follows a₀ (onArrival h ty f s) := by
  unfold onArrival
  have hc := arrivalCheck_follows h ty s
  split
  · rename_i t ht
    exact r.trans (hc.follows ht)
  · refine Follows.trans ?_ (hf _ _)
    apply sinkCells_follows
    apply receive_follows
    split
    · exact r
    · exact updParser_follows r _ _

theorem putBlock_follows {a₀ s : State} (r : Follows a₀ s) (c : Cmd) (vol : Nat) (through : Bool) (x : Nat × Blk) :
    Follows a₀ (putBlock c vol through s x) := by
  unfold putBlock
  try dsimp only
  repeat' first
    | with_reducible (assumption)
    | with_reducible (exact Follows.refl _)
    | with_reducible (apply Follows.ite)
    | with_reducible (apply Follows.onIo)
    | split

theorem markCopies_follows {a₀ s : State} (r : Follows a₀ s) (vol : Nat) (first : Nat) (cnt : Nat) (bs : Nat) :
    Follows a₀ (markCopies vol first cnt bs s) := by
  unfold markCopies
  try dsimp only
  repeat' first
    | with_reducible (assumption)
    | with_reducible (exact Follows.refl _)
    | with_reducible (apply Follows.onIo)

theorem bufferBlocks_follows {a₀ s : State} (r : Follows a₀ s) (c : Cmd) (vol : Nat) (blks : List (Nat × Blk)) (through : Bool) :
    Follows a₀ (bufferBlocks c vol blks through s) := by
  unfold bufferBlocks
  try dsimp only
  repeat' first
    | with_reducible (assumption)
    | with_reducible (exact Follows.refl _)
    | with_reducible (apply putBlock_follows)
    | with_reducible (apply Follows.foldl)
    | split
    | (refine Follows.of_fst (by assumption) ?_)
    | (refine Follows.of_snd (by assumption) ?_)
    | intro

theorem markAcked_follows {a₀ s : State} (r : Follows a₀ s) (a : Nat) (r : Nat) :
    Follows a₀ (markAcked a r s) := by
  unfold markAcked
  try dsimp only
  repeat' first
    | with_reducible (assumption)
    | with_reducible (exact Follows.refl _)
    | with_reducible (apply Follows.onIo)

theorem issueTagged_follows {a₀ s : State} (r : Follows a₀ s) (bay : Nat) (cls : Nat) (op : DrvOp) (lba : Nat) (cnt : Nat) (why : DrvWhy) (data : List Blk) (tags : List BlkMeta) :
    Follows a₀ (issueTagged bay cls op lba cnt why data tags s) := by
  unfold issueTagged
  try dsimp only
  repeat' first
    | with_reducible (assumption)
    | with_reducible (exact Follows.refl _)
    | with_reducible (apply Follows.onIo)

theorem issueDc_follows {a₀ s : State} (r : Follows a₀ s) (bay : Nat) (cls : Nat) (op : DrvOp) (lba : Nat) (cnt : Nat) (why : DrvWhy) (data : List Blk) :
    Follows a₀ (issueDc bay cls op lba cnt why data s) := by
  unfold issueDc
  try dsimp only
  repeat' first
    | with_reducible (assumption)
    | with_reducible (exact Follows.refl _)
    | with_reducible (apply issueTagged_follows)

theorem markFua_follows {a₀ s : State} (r : Follows a₀ s) (ids : List Nat) (on : Bool) :
    Follows a₀ (markFua ids on s) := by
  unfold markFua
  try dsimp only
  repeat' first
    | with_reducible (assumption)
    | with_reducible (exact Follows.refl _)
    | with_reducible (apply Follows.ite)
    | with_reducible (apply Follows.onIo)

theorem placeData_follows {a₀ s : State} (r : Follows a₀ s) (c : Cmd) (cls : Nat) (len : Nat) (data : Nat) (sc : Nat) :
    Follows a₀ (placeData c cls len data sc s) := by
  unfold placeData
  try dsimp only
  repeat' first
    | with_reducible (assumption)
    | with_reducible (exact Follows.refl _)
    | with_reducible (apply Follows.ite)
    | with_reducible (apply updAssoc_follows)
    | with_reducible (apply updCmd_follows)
    | with_reducible (apply enqueue_follows)
    | with_reducible (apply sendSeq_follows)
    | with_reducible (apply finishAdm_follows)
    | with_reducible (apply Follows.foldl)
    | split
    | (refine Follows.of_fst (by assumption) ?_)
    | (refine Follows.of_snd (by assumption) ?_)
    | intro

theorem writeMeta_follows {a₀ s : State} (r : Follows a₀ s) (arr : Nat) (bays : List Nat) (lba : Nat) (blk : Blk) :
    Follows a₀ (writeMeta arr bays lba blk s) := by
  unfold writeMeta
  try dsimp only
  repeat' first
    | with_reducible (assumption)
    | with_reducible (exact Follows.refl _)
    | with_reducible (apply issueTagged_follows)
    | with_reducible (apply Follows.foldl)
    | split
    | (refine Follows.of_fst (by assumption) ?_)
    | (refine Follows.of_snd (by assumption) ?_)
    | intro

theorem writeBits_follows {a₀ s : State} (r : Follows a₀ s) (arr : Nat) (slot : Nat) (region : Nat) :
    Follows a₀ (writeBits arr slot region s) := by
  unfold writeBits
  try dsimp only
  repeat' first
    | with_reducible (assumption)
    | with_reducible (exact Follows.refl _)
    | with_reducible (apply writeMeta_follows)
    | split

theorem writeRegions_follows {a₀ s : State} (r : Follows a₀ s) (arr : Nat) (regions : List Nat) :
    Follows a₀ (writeRegions arr regions s) := by
  unfold writeRegions
  try dsimp only
  repeat' first
    | with_reducible (assumption)
    | with_reducible (exact Follows.refl _)
    | with_reducible (apply writeBits_follows)
    | with_reducible (apply Follows.foldl)
    | split
    | (refine Follows.of_fst (by assumption) ?_)
    | (refine Follows.of_snd (by assumption) ?_)
    | intro

theorem writeSlot_follows {a₀ s : State} (r : Follows a₀ s) (arr : Nat) (slot : Nat) :
    Follows a₀ (writeSlot arr slot s) := by
  unfold writeSlot
  try dsimp only
  repeat' first
    | with_reducible (assumption)
    | with_reducible (exact Follows.refl _)
    | with_reducible (apply writeMeta_follows)
    | with_reducible (apply writeBits_follows)
    | with_reducible (apply Follows.foldl)
    | split
    | (refine Follows.of_fst (by assumption) ?_)
    | (refine Follows.of_snd (by assumption) ?_)
    | intro

theorem writeLost_follows {a₀ s : State} (r : Follows a₀ s) (arr : Nat) (old : List LostBlk) :
    Follows a₀ (writeLost arr old s) := by
  unfold writeLost
  try dsimp only
  repeat' first
    | with_reducible (assumption)
    | with_reducible (exact Follows.refl _)
    | with_reducible (apply writeMeta_follows)
    | with_reducible (apply Follows.foldl)
    | split
    | (refine Follows.of_fst (by assumption) ?_)
    | (refine Follows.of_snd (by assumption) ?_)
    | intro

theorem ledgerNow_follows {a₀ s : State} (r : Follows a₀ s) (arr : Nat) :
    Follows a₀ (ledgerNow arr s) := by
  unfold ledgerNow
  try dsimp only
  repeat' first
    | with_reducible (assumption)
    | with_reducible (exact Follows.refl _)
    | with_reducible (apply updArr_follows)
    | with_reducible (apply writeMeta_follows)
    | split

theorem ledgerSoon_follows {a₀ s : State} (r : Follows a₀ s) (arr : Nat) :
    Follows a₀ (ledgerSoon arr s) := by
  unfold ledgerSoon
  try dsimp only
  repeat' first
    | with_reducible (assumption)
    | with_reducible (exact Follows.refl _)
    | with_reducible (apply updArr_follows)

theorem markLabels_follows {a₀ s : State} (r : Follows a₀ s) (arr : Nat) :
    Follows a₀ (markLabels arr s) := by
  unfold markLabels
  try dsimp only
  repeat' first
    | with_reducible (assumption)
    | with_reducible (exact Follows.refl _)
    | with_reducible (apply updDrive_follows)
    | with_reducible (apply Follows.foldl)
    | split
    | (refine Follows.of_fst (by assumption) ?_)
    | (refine Follows.of_snd (by assumption) ?_)
    | intro

theorem writeLabel_follows {a₀ s : State} (r : Follows a₀ s) (arr : Nat) (p : Nat) :
    Follows a₀ (writeLabel arr p s) := by
  unfold writeLabel
  try dsimp only
  repeat' first
    | with_reducible (assumption)
    | with_reducible (exact Follows.refl _)
    | with_reducible (apply Follows.ite)
    | with_reducible (apply writeMeta_follows)
    | split

theorem writeLabels_follows {a₀ s : State} (r : Follows a₀ s) (arr : Nat) :
    Follows a₀ (writeLabels arr s) := by
  unfold writeLabels
  try dsimp only
  repeat' first
    | with_reducible (assumption)
    | with_reducible (exact Follows.refl _)
    | with_reducible (apply markLabels_follows)
    | with_reducible (apply writeLabel_follows)
    | with_reducible (apply Follows.foldl)
    | split
    | (refine Follows.of_fst (by assumption) ?_)
    | (refine Follows.of_snd (by assumption) ?_)
    | intro

theorem superblockStep_follows {a₀ s : State} (r : Follows a₀ s) (arr : Nat) (step : Nat) (parts : List (Nat × List Blk)) :
    Follows a₀ (superblockStep arr step parts s) := by
  unfold superblockStep
  try dsimp only
  repeat' first
    | with_reducible (assumption)
    | with_reducible (exact Follows.refl _)
    | with_reducible (apply updArr_follows)
    | with_reducible (apply issueTagged_follows)
    | with_reducible (apply Follows.foldl)
    | split
    | (refine Follows.of_fst (by assumption) ?_)
    | (refine Follows.of_snd (by assumption) ?_)
    | intro

end Sys2Proof.Machine
end

