-- ==== Sys2Proof/Laws/Ops2.lean ====
section
/-! SUPPORT. What each shared operation keeps, from superblockNow to resetCommands. -/

namespace Sys2Proof.Machine

theorem superblockNow_follows {a₀ s : State} (r : Follows a₀ s) (arr : Nat) :
    Follows a₀ (superblockNow arr s) := by
  unfold superblockNow
  try dsimp only
  repeat' first
    | with_reducible (assumption)
    | with_reducible (exact Follows.refl _)
    | with_reducible (apply Follows.ite)
    | with_reducible (apply updArr_follows)
    | with_reducible (apply superblockStep_follows)
    | split

theorem relabel_follows {a₀ s : State} (r : Follows a₀ s) (arr : Nat) :
    Follows a₀ (relabel arr s) := by
  unfold relabel
  try dsimp only
  repeat' first
    | with_reducible (assumption)
    | with_reducible (exact Follows.refl _)
    | with_reducible (apply Follows.ite)
    | with_reducible (apply updArr_follows)
    | with_reducible (apply writeLabels_follows)
    | split

theorem superblockNext_follows {a₀ s : State} (r : Follows a₀ s) (arr : Nat) :
    Follows a₀ (superblockNext arr s) := by
  unfold superblockNext
  try dsimp only
  repeat' first
    | with_reducible (assumption)
    | with_reducible (exact Follows.refl _)
    | with_reducible (apply Follows.ite)
    | with_reducible (apply updArr_follows)
    | with_reducible (apply writeLabels_follows)
    | with_reducible (apply superblockStep_follows)
    | with_reducible (apply superblockNow_follows)
    | split

theorem superblockDone_follows {a₀ s : State} (r : Follows a₀ s) (arr : Nat) (dc : Nat) (ok : Bool) :
    Follows a₀ (superblockDone arr dc ok s) := by
  unfold superblockDone
  try dsimp only
  repeat' first
    | with_reducible (assumption)
    | with_reducible (exact Follows.refl _)
    | with_reducible (apply Follows.ite)
    | with_reducible (apply updArr_follows)
    | with_reducible (apply slotDc_follows)
    | with_reducible (apply superblockNext_follows)
    | with_reducible (apply Follows.onMbx)
    | split

theorem stitchMember_follows {a₀ s : State} (r : Follows a₀ s) (arr : Nat) (p : Nat) :
    Follows a₀ (stitchMember arr p s) := by
  unfold stitchMember
  try dsimp only
  repeat' first
    | with_reducible (assumption)
    | with_reducible (exact Follows.refl _)
    | with_reducible (apply issueStitch_follows)
    | split

theorem noteMember_follows {a₀ s : State} (r : Follows a₀ s) (arr : Nat) (p : Nat) (st : MemberState) :
    Follows a₀ (noteMember arr p st s) := by
  unfold noteMember
  try dsimp only
  repeat' first
    | with_reducible (assumption)
    | with_reducible (exact Follows.refl _)
    | with_reducible (apply fwEvent_follows)
    | with_reducible (apply ledgerSoon_follows)
    | with_reducible (apply stitchMember_follows)

theorem bumpGen_follows {a₀ s : State} (r : Follows a₀ s) (arr : Nat) :
    Follows a₀ (bumpGen arr s) := by
  unfold bumpGen
  try dsimp only
  repeat' first
    | with_reducible (assumption)
    | with_reducible (exact Follows.refl _)
    | with_reducible (apply updArr_follows)
    | with_reducible (apply superblockNow_follows)
    | with_reducible (apply relabel_follows)

theorem replaceKeepers_follows {a₀ s : State} (r : Follows a₀ s) (arr : Nat) :
    Follows a₀ (replaceKeepers arr s) := by
  unfold replaceKeepers
  try dsimp only
  repeat' first
    | with_reducible (assumption)
    | with_reducible (exact Follows.refl _)
    | with_reducible (apply updArr_follows)

theorem joinRebuild_follows {a₀ s : State} (r : Follows a₀ s) (arr : Nat) (p : Nat) :
    Follows a₀ (joinRebuild arr p s) := by
  unfold joinRebuild
  try dsimp only
  repeat' first
    | with_reducible (assumption)
    | with_reducible (exact Follows.refl _)
    | with_reducible (apply Follows.ite)
    | with_reducible (apply updArr_follows)
    | with_reducible (apply ledgerSoon_follows)

theorem blankFree_follows {a₀ s : State} (r : Follows a₀ s) (arr : Nat) (p : Nat) :
    Follows a₀ (blankFree arr p s) := by
  unfold blankFree
  try dsimp only
  repeat' first
    | with_reducible (assumption)
    | with_reducible (exact Follows.refl _)
    | with_reducible (apply Follows.ite)
    | with_reducible (apply issueDc_follows)
    | with_reducible (apply Follows.foldl)
    | split
    | (refine Follows.of_fst (by assumption) ?_)
    | (refine Follows.of_snd (by assumption) ?_)
    | intro

theorem startRebuild_follows {a₀ s : State} (r : Follows a₀ s) (arr : Nat) (p : Nat) :
    Follows a₀ (startRebuild arr p s) := by
  unfold startRebuild
  try dsimp only
  repeat' first
    | with_reducible (assumption)
    | with_reducible (exact Follows.refl _)
    | with_reducible (apply joinRebuild_follows)
    | with_reducible (apply blankFree_follows)

theorem seekSpare_follows {a₀ s : State} (r : Follows a₀ s) (arr : Nat) (p : Nat) (bay : Nat) :
    Follows a₀ (seekSpare arr p bay s) := by
  unfold seekSpare
  try dsimp only
  repeat' first
    | with_reducible (assumption)
    | with_reducible (exact Follows.refl _)
    | with_reducible (apply Follows.ite)
    | with_reducible (apply updArr_follows)
    | with_reducible (apply updDrive_follows)
    | with_reducible (apply raiseAll_follows)
    | with_reducible (apply writeLabel_follows)
    | with_reducible (apply noteMember_follows)
    | with_reducible (apply bumpGen_follows)
    | with_reducible (apply startRebuild_follows)
    | split

theorem dropSlot_follows {a₀ s : State} (r : Follows a₀ s) (arr : Nat) (slot : Nat) :
    Follows a₀ (dropSlot arr slot s) := by
  unfold dropSlot
  try dsimp only
  repeat' first
    | with_reducible (assumption)
    | with_reducible (exact Follows.refl _)
    | with_reducible (apply Follows.ite)
    | with_reducible (apply writeSlot_follows)

theorem failMember_follows {a₀ s : State} (r : Follows a₀ s) (arr : Nat) (p : Nat) :
    Follows a₀ (failMember arr p s) := by
  unfold failMember
  try dsimp only
  repeat' first
    | with_reducible (assumption)
    | with_reducible (exact Follows.refl _)
    | with_reducible (apply Follows.ite)
    | with_reducible (apply updArr_follows)
    | with_reducible (apply updDrive_follows)
    | with_reducible (apply superblockNow_follows)
    | with_reducible (apply noteMember_follows)
    | with_reducible (apply bumpGen_follows)
    | with_reducible (apply replaceKeepers_follows)
    | with_reducible (apply seekSpare_follows)
    | with_reducible (apply dropSlot_follows)
    | split

theorem absentMember_follows {a₀ s : State} (r : Follows a₀ s) (arr : Nat) (p : Nat) :
    Follows a₀ (absentMember arr p s) := by
  unfold absentMember
  try dsimp only
  repeat' first
    | with_reducible (assumption)
    | with_reducible (exact Follows.refl _)
    | with_reducible (apply Follows.ite)
    | with_reducible (apply updArr_follows)
    | with_reducible (apply noteMember_follows)
    | with_reducible (apply bumpGen_follows)
    | with_reducible (apply replaceKeepers_follows)
    | with_reducible (apply dropSlot_follows)
    | with_reducible (apply failMember_follows)
    | split

theorem targetDone_follows {a₀ s : State} (r : Follows a₀ s) (arr : Nat) (p : Nat) :
    Follows a₀ (targetDone arr p s) := by
  unfold targetDone
  try dsimp only
  repeat' first
    | with_reducible (assumption)
    | with_reducible (exact Follows.refl _)
    | with_reducible (apply updArr_follows)
    | with_reducible (apply superblockNow_follows)
    | with_reducible (apply relabel_follows)
    | with_reducible (apply noteMember_follows)
    | with_reducible (apply replaceKeepers_follows)
    | with_reducible (apply dropSlot_follows)

theorem returnMember_follows {a₀ s : State} (r : Follows a₀ s) (arr : Nat) (p : Nat) (bay : Nat) (labelGen : Nat) (serial : Nat) :
    Follows a₀ (returnMember arr p bay labelGen serial s) := by
  unfold returnMember
  try dsimp only
  repeat' first
    | with_reducible (assumption)
    | with_reducible (exact Follows.refl _)
    | with_reducible (apply Follows.ite)
    | with_reducible (apply updArr_follows)
    | with_reducible (apply updDrive_follows)
    | with_reducible (apply superblockNow_follows)
    | with_reducible (apply noteMember_follows)
    | with_reducible (apply startRebuild_follows)
    | with_reducible (apply targetDone_follows)
    | split

theorem loseBlocks_follows {a₀ s : State} (r : Follows a₀ s) (arr : Nat) (row : Nat) (reason : Nat) (blks : List (Nat × Nat)) :
    Follows a₀ (loseBlocks arr row reason blks s) := by
  unfold loseBlocks
  try dsimp only
  repeat' first
    | with_reducible (assumption)
    | with_reducible (exact Follows.refl _)
    | with_reducible (apply updArr_follows)
    | with_reducible (apply fwEvent_follows)
    | with_reducible (apply issueStitch_follows)
    | with_reducible (apply raiseAll_follows)
    | with_reducible (apply writeLost_follows)
    | with_reducible (apply ledgerSoon_follows)
    | with_reducible (apply Follows.foldl)
    | split
    | (refine Follows.of_fst (by assumption) ?_)
    | (refine Follows.of_snd (by assumption) ?_)
    | intro

theorem recordDwe_follows {a₀ s : State} (r : Follows a₀ s) (vol : Nat) (lba : Nat) (cnt : Nat) (a : Nat) (r : Nat) (cause : Nat) (order : Option Nat) (carried : Bool) :
    Follows a₀ (recordDwe vol lba cnt a r cause order carried s) := by
  unfold recordDwe
  try dsimp only
  repeat' first
    | with_reducible (assumption)
    | with_reducible (exact Follows.refl _)
    | with_reducible (apply Follows.ite)
    | with_reducible (apply updAssoc_follows)
    | with_reducible (apply fwEvent_follows)
    | with_reducible (apply raiseEvent_follows)
    | with_reducible (apply Follows.onIo)
    | with_reducible (apply Follows.onAudit)
    | with_reducible rfl

theorem raiseDwe_follows {a₀ s : State} (r : Follows a₀ s) (vol : Nat) (lba : Nat) (cnt : Nat) (a : Nat) (r : Nat) (cause : Nat) (order : Option Nat) :
    Follows a₀ (raiseDwe vol lba cnt a r cause order s) := by
  unfold raiseDwe
  try dsimp only
  repeat' first
    | with_reducible (assumption)
    | with_reducible (exact Follows.refl _)
    | with_reducible (apply issueStitch_follows)
    | with_reducible (apply recordDwe_follows)

theorem writeFault_follows {a₀ s : State} (r : Follows a₀ s) (a : Nat) (r : Nat) :
    Follows a₀ (writeFault a r s) := by
  unfold writeFault
  try dsimp only
  repeat' first
    | with_reducible (assumption)
    | with_reducible (exact Follows.refl _)
    | with_reducible (apply finishVia_follows)
    | split

theorem strike_follows {a₀ s : State} (r : Follows a₀ s) (cause : Nat) (blks : List WbBlk) :
    Follows a₀ (strike cause blks s) := by
  unfold strike
  try dsimp only
  repeat' first
    | with_reducible (assumption)
    | with_reducible (exact Follows.refl _)
    | with_reducible (apply Follows.ite)
    | with_reducible (apply raiseDwe_follows)
    | with_reducible (apply writeFault_follows)
    | with_reducible (apply Follows.foldl)
    | split
    | (refine Follows.of_fst (by assumption) ?_)
    | (refine Follows.of_snd (by assumption) ?_)
    | intro

theorem sawVol_follows {a₀ s : State} (r : Follows a₀ s) (id : Nat) (vol : Nat) :
    Follows a₀ (sawVol id vol s) := by
  unfold sawVol
  try dsimp only
  repeat' first
    | with_reducible (assumption)
    | with_reducible (exact Follows.refl _)
    | with_reducible (apply updAssoc_follows)

theorem endIo_follows {a₀ s : State} (r : Follows a₀ s) (c : Cmd) (sc : Nat) (dw0 : Nat) (dw1 : Nat) (more : Bool) :
    Follows a₀ (endIo c sc dw0 dw1 more s) := by
  unfold endIo
  try dsimp only
  repeat' first
    | with_reducible (assumption)
    | with_reducible (exact Follows.refl _)
    | with_reducible (apply Follows.ite)
    | with_reducible (apply finishVia_follows)

theorem issueReads_follows {a₀ s : State} (r : Follows a₀ s) (c : Cmd) (a : Arr) (cls : Nat) (need : List (Nat × Nat)) (why : DrvWhy) :
    Follows a₀ (issueReads c a cls need why s) := by
  unfold issueReads
  try dsimp only
  repeat' first
    | with_reducible (assumption)
    | with_reducible (exact Follows.refl _)
    | with_reducible (apply updCmd_follows)
    | with_reducible (apply updDc_follows)
    | with_reducible (apply issueDc_follows)
    | with_reducible (apply Follows.foldl)
    | split
    | (refine Follows.of_fst (by assumption) ?_)
    | (refine Follows.of_snd (by assumption) ?_)
    | intro

theorem fetchPage_follows {a₀ s : State} (r : Follows a₀ s) (a : Arr) (v : Volume) (p : Nat) :
    Follows a₀ (fetchPage a v s p) := by
  unfold fetchPage
  try dsimp only
  repeat' first
    | with_reducible (assumption)
    | with_reducible (exact Follows.refl _)
    | with_reducible (apply issueDc_follows)
    | split

theorem readChunk_follows {a₀ s : State} (r : Follows a₀ s) (c : Cmd) (v : Volume) (a : Arr) (chunk : Nat) :
    Follows a₀ (readChunk c v a s chunk) := by
  unfold readChunk
  try dsimp only
  repeat' first
    | with_reducible (assumption)
    | with_reducible (exact Follows.refl _)
    | with_reducible (apply Follows.ite)
    | with_reducible (apply updCmd_follows)
    | with_reducible (apply issueReads_follows)

theorem deliverRead_follows {a₀ s : State} (r : Follows a₀ s) (c : Cmd) (v : Volume) :
    Follows a₀ (deliverRead c v s) := by
  unfold deliverRead
  try dsimp only
  repeat' first
    | with_reducible (assumption)
    | with_reducible (exact Follows.refl _)
    | with_reducible (apply Follows.ite)
    | with_reducible (apply updCmd_follows)
    | with_reducible (apply sendYarn_follows)
    | with_reducible (apply placeData_follows)
    | with_reducible (apply endIo_follows)
    | split

theorem settleDirect_follows {a₀ s : State} (r : Follows a₀ s) (c : Cmd) (v : Volume) (a : Arr) :
    Follows a₀ (settleDirect c v a s) := by
  unfold settleDirect
  try dsimp only
  repeat' first
    | with_reducible (assumption)
    | with_reducible (exact Follows.refl _)
    | with_reducible (apply Follows.ite)
    | with_reducible (apply updCmd_follows)
    | with_reducible (apply issueTagged_follows)
    | with_reducible (apply issueReads_follows)
    | with_reducible (apply deliverRead_follows)
    | with_reducible (apply Follows.foldl)
    | split
    | (refine Follows.of_fst (by assumption) ?_)
    | (refine Follows.of_snd (by assumption) ?_)
    | intro

theorem settlePacked_follows {a₀ s : State} (r : Follows a₀ s) (c : Cmd) (v : Volume) :
    Follows a₀ (settlePacked c v s) := by
  unfold settlePacked
  try dsimp only
  repeat' first
    | with_reducible (assumption)
    | with_reducible (exact Follows.refl _)
    | with_reducible (apply Follows.ite)
    | with_reducible (apply deliverRead_follows)

theorem settleRead_follows {a₀ s : State} (r : Follows a₀ s) (id : Nat) (row : Nat) :
    Follows a₀ (settleRead id row s) := by
  unfold settleRead
  try dsimp only
  repeat' first
    | with_reducible (assumption)
    | with_reducible (exact Follows.refl _)
    | with_reducible (apply Follows.ite)
    | with_reducible (apply settleDirect_follows)
    | with_reducible (apply settlePacked_follows)
    | split

theorem startRead_follows {a₀ s : State} (r : Follows a₀ s) (c : Cmd) :
    Follows a₀ (startRead c s) := by
  unfold startRead
  try dsimp only
  repeat' first
    | with_reducible (assumption)
    | with_reducible (exact Follows.refl _)
    | with_reducible (apply Follows.ite)
    | with_reducible (apply updCmd_follows)
    | with_reducible (apply sawVol_follows)
    | with_reducible (apply endIo_follows)
    | with_reducible (apply issueReads_follows)
    | with_reducible (apply fetchPage_follows)
    | with_reducible (apply readChunk_follows)
    | with_reducible (apply deliverRead_follows)
    | with_reducible (apply settleRead_follows)
    | with_reducible (apply Follows.foldl)
    | split
    | (refine Follows.of_fst (by assumption) ?_)
    | (refine Follows.of_snd (by assumption) ?_)
    | intro

theorem startWrite_follows {a₀ s : State} (r : Follows a₀ s) (c : Cmd) :
    Follows a₀ (startWrite c s) := by
  unfold startWrite
  try dsimp only
  repeat' first
    | with_reducible (assumption)
    | with_reducible (exact Follows.refl _)
    | with_reducible (apply Follows.ite)
    | with_reducible (apply updAssoc_follows)
    | with_reducible (apply updCmd_follows)
    | with_reducible (apply finish_follows)
    | with_reducible (apply markCopies_follows)
    | with_reducible (apply bufferBlocks_follows)
    | with_reducible (apply markAcked_follows)
    | with_reducible (apply sawVol_follows)
    | with_reducible (apply endIo_follows)
    | with_reducible (apply Follows.foldl)
    | split
    | (refine Follows.of_fst (by assumption) ?_)
    | (refine Follows.of_snd (by assumption) ?_)
    | intro

theorem makeExecutable_follows {a₀ s : State} (r : Follows a₀ s) (c : Cmd) (blks : List (Nat × Blk)) :
    Follows a₀ (makeExecutable c blks s) := by
  unfold makeExecutable
  try dsimp only
  repeat' first
    | with_reducible (assumption)
    | with_reducible (exact Follows.refl _)
    | with_reducible (apply Follows.ite)
    | with_reducible (apply updCmd_follows)
    | with_reducible (apply startWrite_follows)
    | with_reducible (apply Follows.onIo)

theorem endFlush_follows {a₀ s : State} (r : Follows a₀ s) (c : Cmd) :
    Follows a₀ (endFlush c s) := by
  unfold endFlush
  try dsimp only
  repeat' first
    | with_reducible (assumption)
    | with_reducible (exact Follows.refl _)
    | with_reducible (apply updAssoc_follows)
    | with_reducible (apply endIo_follows)
    | split

theorem flushDrives_follows {a₀ s : State} (r : Follows a₀ s) (c : Cmd) :
    Follows a₀ (flushDrives c s) := by
  unfold flushDrives
  try dsimp only
  repeat' first
    | with_reducible (assumption)
    | with_reducible (exact Follows.refl _)
    | with_reducible (apply Follows.ite)
    | with_reducible (apply updCmd_follows)
    | with_reducible (apply issueDc_follows)
    | with_reducible (apply endFlush_follows)
    | with_reducible (apply Follows.foldl)
    | split
    | (refine Follows.of_fst (by assumption) ?_)
    | (refine Follows.of_snd (by assumption) ?_)
    | intro

theorem settleMedia_follows {a₀ s : State} (r : Follows a₀ s) :
    Follows a₀ (settleMedia s) := by
  unfold settleMedia
  try dsimp only
  repeat' first
    | with_reducible (assumption)
    | with_reducible (exact Follows.refl _)
    | with_reducible (apply Follows.ite)
    | with_reducible (apply markAcked_follows)
    | with_reducible (apply endIo_follows)
    | with_reducible (apply flushDrives_follows)
    | with_reducible (apply Follows.foldl)
    | split
    | (refine Follows.of_fst (by assumption) ?_)
    | (refine Follows.of_snd (by assumption) ?_)
    | intro

theorem cleanOrders_follows {a₀ s : State} (r : Follows a₀ s) (ords : List Nat) :
    Follows a₀ (cleanOrders ords s) := by
  unfold cleanOrders
  try dsimp only
  repeat' first
    | with_reducible (assumption)
    | with_reducible (exact Follows.refl _)
    | with_reducible (apply Follows.ite)
    | with_reducible (apply Follows.onIo)

theorem updExt_follows {a₀ s : State} (r : Follows a₀ s) (arr : Nat) (x : Nat) (f : Ext → Ext) :
    Follows a₀ (updExt arr x f s) := by
  unfold updExt
  try dsimp only
  repeat' first
    | with_reducible (assumption)
    | with_reducible (exact Follows.refl _)
    | with_reducible (apply updArr_follows)

theorem journalBlock_follows {a₀ s : State} (r : Follows a₀ s) (arr : Nat) (recs : List JRec) :
    Follows a₀ (journalBlock arr s recs) := by
  unfold journalBlock
  try dsimp only
  repeat' first
    | with_reducible (assumption)
    | with_reducible (exact Follows.refl _)
    | with_reducible (apply updArr_follows)
    | with_reducible (apply issueTagged_follows)
    | with_reducible (apply Follows.foldl)
    | split
    | (refine Follows.of_fst (by assumption) ?_)
    | (refine Follows.of_snd (by assumption) ?_)
    | intro

theorem journal_follows {a₀ s : State} (r : Follows a₀ s) (arr : Nat) (recs : List JRec) :
    Follows a₀ (journal arr recs s) := by
  unfold journal
  try dsimp only
  repeat' first
    | with_reducible (assumption)
    | with_reducible (exact Follows.refl _)
    | with_reducible (apply journalBlock_follows)
    | with_reducible (apply Follows.foldl)
    | split
    | (refine Follows.of_fst (by assumption) ?_)
    | (refine Follows.of_snd (by assumption) ?_)
    | intro

theorem startCheckpoint_follows {a₀ s : State} (r : Follows a₀ s) (arr : Nat) :
    Follows a₀ (startCheckpoint arr s) := by
  unfold startCheckpoint
  try dsimp only
  repeat' first
    | with_reducible (assumption)
    | with_reducible (exact Follows.refl _)
    | with_reducible (apply Follows.ite)
    | with_reducible (apply updArr_follows)
    | with_reducible (apply issueStitch_follows)
    | with_reducible (apply issueTagged_follows)
    | with_reducible (apply journal_follows)
    | with_reducible (apply Follows.onIo)
    | with_reducible (apply Follows.foldl)
    | split
    | (refine Follows.of_fst (by assumption) ?_)
    | (refine Follows.of_snd (by assumption) ?_)
    | intro

theorem checkJournal_follows {a₀ s : State} (r : Follows a₀ s) (arr : Nat) :
    Follows a₀ (checkJournal arr s) := by
  unfold checkJournal
  try dsimp only
  repeat' first
    | with_reducible (assumption)
    | with_reducible (exact Follows.refl _)
    | with_reducible (apply Follows.ite)
    | with_reducible (apply startCheckpoint_follows)
    | split

theorem touchPage_follows {a₀ s : State} (r : Follows a₀ s) (vol : Nat) (page : Nat) :
    Follows a₀ (touchPage vol page s) := by
  unfold touchPage
  try dsimp only
  repeat' first
    | with_reducible (assumption)
    | with_reducible (exact Follows.refl _)
    | with_reducible (apply Follows.onIo)

theorem cachePage_follows {a₀ s : State} (r : Follows a₀ s) (vol : Nat) (page : Nat) :
    Follows a₀ (cachePage vol page s) := by
  unfold cachePage
  try dsimp only
  repeat' first
    | with_reducible (assumption)
    | with_reducible (exact Follows.refl _)
    | with_reducible (apply Follows.ite)
    | with_reducible (apply Follows.onIo)

theorem setEntry_follows {a₀ s : State} (r : Follows a₀ s) (vol : Nat) (chunk : Nat) (e : Nat) :
    Follows a₀ (setEntry vol chunk e s) := by
  unfold setEntry
  try dsimp only
  repeat' first
    | with_reducible (assumption)
    | with_reducible (exact Follows.refl _)
    | with_reducible (apply Follows.ite)
    | with_reducible (apply updVol_follows)
    | with_reducible (apply updExt_follows)
    | with_reducible (apply touchPage_follows)
    | split

theorem openNew_follows {a₀ s : State} (r : Follows a₀ s) (vol : Nat) (frog : Bool) :
    Follows a₀ (openNew vol frog s) := by
  unfold openNew
  try dsimp only
  repeat' first
    | with_reducible (assumption)
    | with_reducible (exact Follows.refl _)
    | with_reducible (apply Follows.ite)
    | with_reducible (apply updVol_follows)
    | with_reducible (apply updExt_follows)
    | split

theorem writeRowDrives_follows {a₀ s : State} (r : Follows a₀ s) (a : Arr) (skein : Nat) (row : Nat) (frog : Bool) (why : Nat → DrvWhy) (cs : List Asm) :
    Follows a₀ (writeRowDrives a skein row frog why cs s).1 := by
  unfold writeRowDrives
  try dsimp only
  repeat' first
    | with_reducible (assumption)
    | with_reducible (exact Follows.refl _)
    | with_reducible (apply Follows.ite)
    | with_reducible (apply Follows.ite_fst)
    | with_reducible (apply issueTagged_follows)
    | with_reducible (apply Follows.foldl)
    | split
    | (refine Follows.of_fst (by assumption) ?_)
    | (refine Follows.of_snd (by assumption) ?_)
    | intro

theorem writeRows_follows {a₀ s : State} (r : Follows a₀ s) (vol : Nat) (skein : Nat) (upTo : Nat) (frog : Bool) :
    Follows a₀ (writeRows vol skein upTo frog s) := by
  unfold writeRows
  try dsimp only
  repeat' first
    | with_reducible (assumption)
    | with_reducible (exact Follows.refl _)
    | with_reducible (apply Follows.ite)
    | with_reducible (apply updVol_follows)
    | with_reducible (apply issueStitch_follows)
    | with_reducible (apply markFua_follows)
    | with_reducible (apply writeRowDrives_follows)
    | with_reducible (apply Follows.foldl)
    | split
    | (refine Follows.of_fst (by assumption) ?_)
    | (refine Follows.of_snd (by assumption) ?_)
    | intro

theorem forceRow_follows {a₀ s : State} (r : Follows a₀ s) (vol : Nat) (frog : Bool) :
    Follows a₀ (forceRow vol frog s) := by
  unfold forceRow
  try dsimp only
  repeat' first
    | with_reducible (assumption)
    | with_reducible (exact Follows.refl _)
    | with_reducible (apply Follows.ite)
    | with_reducible (apply updExt_follows)
    | with_reducible (apply writeRows_follows)
    | split

theorem writeTrailer_follows {a₀ s : State} (r : Follows a₀ s) (vol : Nat) (x : Nat) :
    Follows a₀ (writeTrailer vol x s) := by
  unfold writeTrailer
  try dsimp only
  repeat' first
    | with_reducible (assumption)
    | with_reducible (exact Follows.refl _)
    | with_reducible (apply updExt_follows)
    | with_reducible (apply writeRowDrives_follows)
    | split

theorem writeIndex_follows {a₀ s : State} (r : Follows a₀ s) (vol : Nat) (x : Nat) :
    Follows a₀ (writeIndex vol x s) := by
  unfold writeIndex
  split
  · exact r
  split
  · exact r
  rename_i v hv a ha
  have hp : ∀ (rows : List Nat) (acc : State × List Nat), Follows acc.1
      (rows.foldl (fun (acc : State × List Nat) (q : Nat) =>
        ((writeRowDrives a x q (a.ext.getD x {}).frogOpen (fun _ => .index vol x) [] acc.1).1,
          acc.2 ++ (writeRowDrives a x q (a.ext.getD x {}).frogOpen (fun _ => .index vol x) [] acc.1).2)) acc).1 := by
    intro rows
    induction rows with
    | nil => exact fun acc => Follows.refl _
    | cons q rows ih => 
      intro acc
      rw [List.foldl_cons]
      have h1 := writeRowDrives_follows (Follows.refl acc.1) a x q (a.ext.getD x {}).frogOpen (fun _ => .index vol x) []
      exact Follows.trans h1 (ih ((writeRowDrives a x q (a.ext.getD x {}).frogOpen (fun _ => .index vol x) [] acc.1).1,
        acc.2 ++ (writeRowDrives a x q (a.ext.getD x {}).frogOpen (fun _ => .index vol x) [] acc.1).2))
  dsimp only
  split
  · exact writeTrailer_follows r _ _
  · exact updExt_follows (r.trans (hp _ (s, []))) _ _ _

theorem indexDone_follows {a₀ s : State} (r : Follows a₀ s) (vol : Nat) (x : Nat) (dc : Nat) :
    Follows a₀ (indexDone vol x dc s) := by
  unfold indexDone
  try dsimp only
  repeat' first
    | with_reducible (assumption)
    | with_reducible (exact Follows.refl _)
    | with_reducible (apply Follows.ite)
    | with_reducible (apply updExt_follows)
    | with_reducible (apply writeTrailer_follows)
    | split

theorem finishClose_follows {a₀ s : State} (r : Follows a₀ s) (vol : Nat) (x : Nat) :
    Follows a₀ (finishClose vol x s) := by
  unfold finishClose
  try dsimp only
  repeat' first
    | with_reducible (assumption)
    | with_reducible (exact Follows.refl _)
    | with_reducible (apply Follows.ite)
    | with_reducible (apply writeIndex_follows)
    | split

theorem closeSkein_follows {a₀ s : State} (r : Follows a₀ s) (vol : Nat) (x : Nat) (frog : Bool) :
    Follows a₀ (closeSkein vol x frog s) := by
  unfold closeSkein
  try dsimp only
  repeat' first
    | with_reducible (assumption)
    | with_reducible (exact Follows.refl _)
    | with_reducible (apply updExt_follows)
    | with_reducible (apply forceRow_follows)
    | with_reducible (apply finishClose_follows)
    | split

theorem placeChunk_follows {a₀ s : State} (r : Follows a₀ s) (vol : Nat) (c : Asm) (frog : Bool) :
    Follows a₀ (placeChunk vol c frog s) := by
  unfold placeChunk
  try dsimp only
  repeat' first
    | with_reducible (assumption)
    | with_reducible (exact Follows.refl _)
    | with_reducible (apply Follows.ite)
    | with_reducible (apply updVol_follows)
    | with_reducible (apply updExt_follows)
    | with_reducible (apply openNew_follows)
    | with_reducible (apply writeRows_follows)
    | with_reducible (apply closeSkein_follows)
    | split

theorem zeroChunk_follows {a₀ s : State} (r : Follows a₀ s) (vol : Nat) (chunk : Nat) (ords : List Nat) :
    Follows a₀ (zeroChunk vol chunk ords s) := by
  unfold zeroChunk
  try dsimp only
  repeat' first
    | with_reducible (assumption)
    | with_reducible (exact Follows.refl _)
    | with_reducible (apply updVol_follows)
    | with_reducible (apply journal_follows)
    | split

theorem rowJournal_follows {a₀ s : State} (r : Follows a₀ s) (vol : Nat) (skein : Nat) (row : Nat) :
    Follows a₀ (rowJournal vol skein row s) := by
  unfold rowJournal
  try dsimp only
  repeat' first
    | with_reducible (assumption)
    | with_reducible (exact Follows.refl _)
    | with_reducible (apply updVol_follows)
    | with_reducible (apply journal_follows)
    | with_reducible (apply Follows.foldl)
    | split

theorem freeSkein_follows {a₀ s : State} (r : Follows a₀ s) (vol : Nat) (x : Nat) :
    Follows a₀ (freeSkein vol x s) := by
  unfold freeSkein
  try dsimp only
  repeat' first
    | with_reducible (assumption)
    | with_reducible (exact Follows.refl _)
    | with_reducible (apply updVol_follows)
    | with_reducible (apply issueStitch_follows)
    | with_reducible (apply issueDc_follows)
    | with_reducible (apply updExt_follows)
    | with_reducible (apply Follows.foldl)
    | split
    | (refine Follows.of_fst (by assumption) ?_)
    | (refine Follows.of_snd (by assumption) ?_)
    | intro

theorem checkFreed_follows {a₀ s : State} (r : Follows a₀ s) (vol : Nat) :
    Follows a₀ (checkFreed vol s) := by
  unfold checkFreed
  try dsimp only
  repeat' first
    | with_reducible (assumption)
    | with_reducible (exact Follows.refl _)
    | with_reducible (apply Follows.ite)
    | with_reducible (apply freeSkein_follows)
    | split

theorem commitChunk_follows {a₀ s : State} (r : Follows a₀ s) (vol : Nat) (skein : Nat) (c : Asm) :
    Follows a₀ (commitChunk vol skein s c) := by
  unfold commitChunk
  try dsimp only
  repeat' first
    | with_reducible (assumption)
    | with_reducible (exact Follows.refl _)
    | with_reducible (apply Follows.ite)
    | with_reducible (apply cleanOrders_follows)
    | with_reducible (apply updExt_follows)
    | with_reducible (apply setEntry_follows)
    | split

theorem rowFailed_follows {a₀ s : State} (r : Follows a₀ s) (v : Volume) (w : RowW) :
    Follows a₀ (rowFailed v w s) := by
  unfold rowFailed
  try dsimp only
  repeat' first
    | with_reducible (assumption)
    | with_reducible (exact Follows.refl _)
    | with_reducible (apply Follows.ite)
    | with_reducible (apply updVol_follows)
    | with_reducible (apply strike_follows)
    | with_reducible (apply settleMedia_follows)
    | with_reducible (apply forceRow_follows)
    | with_reducible (apply placeChunk_follows)
    | with_reducible (apply Follows.onIo)
    | with_reducible (apply Follows.foldl)
    | split
    | (refine Follows.of_fst (by assumption) ?_)
    | (refine Follows.of_snd (by assumption) ?_)
    | intro

theorem endAbort_follows {a₀ s : State} (r : Follows a₀ s) (id : Nat) (row : Nat) (dw0 : Nat) :
    Follows a₀ (endAbort id row dw0 s) := by
  unfold endAbort
  try dsimp only
  repeat' first
    | with_reducible (assumption)
    | with_reducible (exact Follows.refl _)
    | with_reducible (apply Follows.ite)
    | with_reducible (apply finishVia_follows)
    | split

theorem endAborted_follows {a₀ s : State} (r : Follows a₀ s) (c : Cmd) :
    Follows a₀ (endAborted c s) := by
  unfold endAborted
  try dsimp only
  repeat' first
    | with_reducible (assumption)
    | with_reducible (exact Follows.refl _)
    | with_reducible (apply Follows.ite)
    | with_reducible (apply finishVia_follows)
    | with_reducible (apply endAbort_follows)
    | split

theorem reachMatch_follows {a₀ s : State} (r : Follows a₀ s) (id : Nat) (row : Nat) (abortRow : Option Nat) (byReset : Bool) (noResp : Bool) :
    Follows a₀ (reachMatch id row abortRow byReset noResp s) := by
  unfold reachMatch
  try dsimp only
  repeat' first
    | with_reducible (assumption)
    | with_reducible (exact Follows.refl _)
    | with_reducible (apply Follows.ite)
    | with_reducible (apply updCmd_follows)
    | with_reducible (apply endAbort_follows)
    | with_reducible (apply endAborted_follows)
    | with_reducible (apply Follows.onIo)
    | split

theorem settleAborted_follows {a₀ s : State} (r : Follows a₀ s) (a : Nat) (r : Nat) :
    Follows a₀ (settleAborted a r s) := by
  unfold settleAborted
  try dsimp only
  repeat' first
    | with_reducible (assumption)
    | with_reducible (exact Follows.refl _)
    | with_reducible (apply Follows.ite)
    | with_reducible (apply endAborted_follows)
    | split

theorem resumeCmd_follows {a₀ s : State} (r : Follows a₀ s) (c : Cmd) :
    Follows a₀ (resumeCmd s c) := by
  unfold resumeCmd
  try dsimp only
  repeat' first
    | with_reducible (assumption)
    | with_reducible (exact Follows.refl _)
    | with_reducible (apply Follows.ite)
    | with_reducible (apply finish_follows)
    | with_reducible (apply settleRead_follows)
    | with_reducible (apply startRead_follows)
    | with_reducible (apply reachMatch_follows)
    | with_reducible (apply settleAborted_follows)
    | split

theorem resumeCp_follows {a₀ s : State} (r : Follows a₀ s) (n : Nat) :
    Follows a₀ (resumeCp n s) := by
  unfold resumeCp
  try dsimp only
  repeat' first
    | with_reducible (assumption)
    | with_reducible (exact Follows.refl _)
    | with_reducible (apply resumeCmd_follows)
    | with_reducible (apply Follows.onIo)
    | with_reducible (apply Follows.foldl)
    | split
    | (refine Follows.of_fst (by assumption) ?_)
    | (refine Follows.of_snd (by assumption) ?_)
    | intro

theorem updCore_follows {a₀ s : State} (r : Follows a₀ s) (n : Nat) (f : Core → Core) (hf : ∀ c : Core, Memory.wf c.mem = true → Memory.wf (f c).mem = true) :
    Follows a₀ (updCore n f s) := by
  refine r.onDbg _ (by simp) (fun ⟨h1, h2, h3⟩ => ⟨h1, h2, fun c hc => ?_⟩)
  obtain ⟨k, hk, e⟩ := List.mem_iff_getElem.mp hc
  rw [List.getElem_modify] at e
  split at e
  · exact e ▸ hf _ (h3 _ (List.getElem_mem _))
  · exact e ▸ h3 _ (List.getElem_mem _)

theorem resumeCore_follows {a₀ s : State} (r : Follows a₀ s) (n : Nat) :
    Follows a₀ (resumeCore n s) := by
  unfold resumeCore
  try dsimp only
  repeat' first
    | with_reducible (assumption)
    | with_reducible (exact Follows.refl _)
    | with_reducible (apply Follows.ite)
    | with_reducible (apply resumeCp_follows)
    | with_reducible (apply updCore_follows)
    | (intro c hc; rfl)

theorem resumeCores_follows {a₀ s : State} (r : Follows a₀ s) (p : Core → Bool) :
    Follows a₀ (resumeCores p s) := by
  unfold resumeCores
  try dsimp only
  repeat' first
    | with_reducible (assumption)
    | with_reducible (exact Follows.refl _)
    | with_reducible (apply resumeCore_follows)
    | with_reducible (apply Follows.foldl)
    | split
    | (refine Follows.of_fst (by assumption) ?_)
    | (refine Follows.of_snd (by assumption) ?_)
    | intro

theorem resetCommand_follows {a₀ s : State} (r : Follows a₀ s) (id : Nat) (noResp : Bool) (row : Nat) :
    Follows a₀ (resetCommand id noResp s row) := by
  unfold resetCommand
  try dsimp only
  repeat' first
    | with_reducible (assumption)
    | with_reducible (exact Follows.refl _)
    | with_reducible (apply reachMatch_follows)

theorem resetCommands_follows {a₀ s : State} (r : Follows a₀ s) (id : Nat) (noResp : Bool) :
    Follows a₀ (resetCommands id noResp s) := by
  unfold resetCommands
  try dsimp only
  repeat' first
    | with_reducible (assumption)
    | with_reducible (exact Follows.refl _)
    | with_reducible (apply resetCommand_follows)
    | with_reducible (apply Follows.onIo)
    | with_reducible (apply Follows.foldl)
    | split
    | (refine Follows.of_fst (by assumption) ?_)
    | (refine Follows.of_snd (by assumption) ?_)
    | intro

end Sys2Proof.Machine
end

