-- ==== Sys2Proof/Laws/Ops3.lean ====
section
/-! SUPPORT. What each shared operation keeps, from revokeAll to debugHoldFails. -/

namespace Sys2Proof.Machine

theorem revokeAll_follows {a₀ s : State} (r : Follows a₀ s) (id : Nat) :
    Follows a₀ (revokeAll id s) := by
  unfold revokeAll
  try dsimp only
  repeat' first
    | with_reducible (assumption)
    | with_reducible (exact Follows.refl _)
    | with_reducible (apply updAssoc_follows)

theorem abortSelfTest_follows {a₀ s : State} (r : Follows a₀ s) (p : SelfTest → Bool) (result : Nat) :
    Follows a₀ (abortSelfTest p result s) := by
  unfold abortSelfTest
  try dsimp only
  repeat' first
    | with_reducible (assumption)
    | with_reducible (exact Follows.refl _)
    | with_reducible (apply Follows.ite)
    | with_reducible (apply Follows.onIo)
    | with_reducible (apply Follows.onAudit)
    | with_reducible rfl
    | rfl
    | exact id
    | exact List.length_modify ..
    | exact List.length_mapIdx ..
    | exact List.length_map ..
    | exact List.length_set ..
    | split

theorem resetContext_follows {a₀ s : State} (r : Follows a₀ s) (id : Nat) :
    Follows a₀ (resetContext id s) := by
  unfold resetContext
  try dsimp only
  repeat' first
    | with_reducible (assumption)
    | with_reducible (exact Follows.refl _)
    | with_reducible (apply updAssoc_follows)
    | with_reducible (apply revokeAll_follows)
    | with_reducible (apply abortSelfTest_follows)

theorem assocReset_follows {a₀ s : State} (r : Follows a₀ s) (id : Nat) :
    Follows a₀ (assocReset id s) := by
  unfold assocReset
  try dsimp only
  repeat' first
    | with_reducible (assumption)
    | with_reducible (exact Follows.refl _)
    | with_reducible (apply resetCommands_follows)
    | with_reducible (apply resetContext_follows)

theorem releaseAssoc_follows {a₀ s : State} (r : Follows a₀ s) (id : Nat) :
    Follows a₀ (releaseAssoc id s) := by
  unfold releaseAssoc
  try dsimp only
  repeat' first
    | with_reducible (assumption)
    | with_reducible (exact Follows.refl _)
    | with_reducible (apply Follows.ite)
    | with_reducible (apply updAssoc_follows)
    | with_reducible (apply issueStitch_follows)
    | with_reducible (apply freeIfDone_follows)
    | with_reducible (apply resetCommands_follows)
    | with_reducible (apply revokeAll_follows)
    | with_reducible (apply abortSelfTest_follows)
    | split

theorem suspend_follows {a₀ s : State} (r : Follows a₀ s) (id : Nat) :
    Follows a₀ (suspend id s) := by
  unfold suspend
  try dsimp only
  repeat' first
    | with_reducible (assumption)
    | with_reducible (exact Follows.refl _)
    | with_reducible (apply Follows.ite)
    | with_reducible (apply updAssoc_follows)
    | with_reducible (apply updPort_follows)
    | with_reducible (apply issueStitch_follows)
    | with_reducible (apply Follows.onSw)
    | with_reducible (apply Follows.foldl)
    | split
    | (refine Follows.of_fst (by assumption) ?_)
    | (refine Follows.of_snd (by assumption) ?_)
    | intro

theorem setBits_follows {a₀ s : State} (r : Follows a₀ s) (arr : Nat) (regions : List Nat) :
    Follows a₀ (setBits arr regions s) := by
  unfold setBits
  try dsimp only
  repeat' first
    | with_reducible (assumption)
    | with_reducible (exact Follows.refl _)
    | with_reducible (apply Follows.ite)
    | with_reducible (apply updArr_follows)
    | with_reducible (apply issueStitch_follows)
    | with_reducible (apply writeRegions_follows)
    | split

theorem drainIssue_follows {a₀ s : State} (r : Follows a₀ s) (arr : Nat) (row : Nat) :
    Follows a₀ (drainIssue arr row s) := by
  unfold drainIssue
  try dsimp only
  repeat' first
    | with_reducible (assumption)
    | with_reducible (exact Follows.refl _)
    | with_reducible (apply Follows.ite)
    | with_reducible (apply updArr_follows)
    | with_reducible (apply issueStitch_follows)
    | with_reducible (apply issueTagged_follows)
    | with_reducible (apply markFua_follows)
    | with_reducible (apply Follows.foldl)
    | split
    | (refine Follows.of_fst (by assumption) ?_)
    | (refine Follows.of_snd (by assumption) ?_)
    | intro

theorem updJob_follows {a₀ s : State} (r : Follows a₀ s) (arr : Nat) (row : Nat) (kind : Nat) (f : RowJob → RowJob) :
    Follows a₀ (updJob arr row kind f s) := by
  unfold updJob
  try dsimp only
  repeat' first
    | with_reducible (assumption)
    | with_reducible (exact Follows.refl _)
    | with_reducible (apply updArr_follows)

theorem passEnd_follows {a₀ s : State} (r : Follows a₀ s) (arr : Nat) :
    Follows a₀ (passEnd arr s) := by
  unfold passEnd
  try dsimp only
  repeat' first
    | with_reducible (assumption)
    | with_reducible (exact Follows.refl _)
    | with_reducible (apply Follows.ite)
    | with_reducible (apply updArr_follows)
    | with_reducible (apply targetDone_follows)
    | with_reducible (apply Follows.foldl)
    | split
    | (refine Follows.of_fst (by assumption) ?_)
    | (refine Follows.of_snd (by assumption) ?_)
    | intro

theorem jobDone_follows {a₀ s : State} (r : Follows a₀ s) (arr : Nat) (row : Nat) (kind : Nat) :
    Follows a₀ (jobDone arr row kind s) := by
  unfold jobDone
  try dsimp only
  repeat' first
    | with_reducible (assumption)
    | with_reducible (exact Follows.refl _)
    | with_reducible (apply Follows.ite)
    | with_reducible (apply updArr_follows)
    | with_reducible (apply ledgerSoon_follows)
    | with_reducible (apply targetDone_follows)
    | with_reducible (apply passEnd_follows)
    | with_reducible (apply Follows.foldl)
    | split
    | (refine Follows.of_fst (by assumption) ?_)
    | (refine Follows.of_snd (by assumption) ?_)
    | intro

theorem jobGo_follows {a₀ s : State} (r : Follows a₀ s) (arr : Nat) (row : Nat) (kind : Nat) :
    Follows a₀ (jobGo arr row kind s) := by
  unfold jobGo
  try dsimp only
  repeat' first
    | with_reducible (assumption)
    | with_reducible (exact Follows.refl _)
    | with_reducible (apply Follows.ite)
    | with_reducible (apply updArr_follows)
    | with_reducible (apply issueTagged_follows)
    | with_reducible (apply issueDc_follows)
    | with_reducible (apply loseBlocks_follows)
    | with_reducible (apply updJob_follows)
    | with_reducible (apply jobDone_follows)
    | with_reducible (apply Follows.foldl)
    | split
    | (refine Follows.of_fst (by assumption) ?_)
    | (refine Follows.of_snd (by assumption) ?_)
    | intro

theorem startJob_follows {a₀ s : State} (r : Follows a₀ s) (arr : Nat) (j : RowJob) :
    Follows a₀ (startJob arr j s) := by
  unfold startJob
  try dsimp only
  repeat' first
    | with_reducible (assumption)
    | with_reducible (exact Follows.refl _)
    | with_reducible (apply updArr_follows)
    | with_reducible (apply jobGo_follows)

theorem jobReadDone_follows {a₀ s : State} (r : Follows a₀ s) (d : DrvCmd) (arr : Nat) (row : Nat) (kind : Nat) (q : Nat) (ok : Bool) (blocks : List Blk) :
    Follows a₀ (jobReadDone d arr row kind q ok blocks s) := by
  unfold jobReadDone
  try dsimp only
  repeat' first
    | with_reducible (assumption)
    | with_reducible (exact Follows.refl _)
    | with_reducible (apply Follows.ite)
    | with_reducible (apply issueDc_follows)
    | with_reducible (apply updJob_follows)
    | with_reducible (apply jobGo_follows)
    | with_reducible (apply Follows.foldl)
    | split
    | (refine Follows.of_fst (by assumption) ?_)
    | (refine Follows.of_snd (by assumption) ?_)
    | intro

theorem jobWriteDone_follows {a₀ s : State} (r : Follows a₀ s) (d : DrvCmd) (arr : Nat) (row : Nat) (kind : Nat) :
    Follows a₀ (jobWriteDone d arr row kind s) := by
  unfold jobWriteDone
  try dsimp only
  repeat' first
    | with_reducible (assumption)
    | with_reducible (exact Follows.refl _)
    | with_reducible (apply Follows.ite)
    | with_reducible (apply updJob_follows)
    | with_reducible (apply jobDone_follows)
    | split

theorem patrolOffset_follows {a₀ s : State} (r : Follows a₀ s) (arr : Nat) (row : Nat) (lay : Layout) (x : Nat × List (Nat × Bool)) :
    Follows a₀ (patrolOffset arr row lay s x) := by
  unfold patrolOffset
  try dsimp only
  repeat' first
    | with_reducible (assumption)
    | with_reducible (exact Follows.refl _)
    | with_reducible (apply updArr_follows)
    | with_reducible (apply fwEvent_follows)
    | with_reducible (apply issueStitch_follows)
    | split

theorem cmdViolation_follows {a₀ s : State} (r : Follows a₀ s) (c : Cmd) (reason : Nat) :
    Follows a₀ (cmdViolation c reason s) := by
  unfold cmdViolation
  try dsimp only
  repeat' first
    | with_reducible (assumption)
    | with_reducible (exact Follows.refl _)
    | with_reducible (apply updAssoc_follows)
    | with_reducible (apply violate_follows)

theorem dropPush_follows {a₀ s : State} (r : Follows a₀ s) (id : Nat) (row : Nat) :
    Follows a₀ (dropPush id row s) := by
  unfold dropPush
  try dsimp only
  repeat' first
    | with_reducible (assumption)
    | with_reducible (exact Follows.refl _)
    | with_reducible (apply updAssoc_follows)

theorem refusedPassthrough_follows {a₀ s : State} (r : Follows a₀ s) (a : Assoc) (c : Cmd) :
    Follows a₀ (refusedPassthrough a c s) := by
  unfold refusedPassthrough
  try dsimp only
  repeat' first
    | with_reducible (assumption)
    | with_reducible (exact Follows.refl _)
    | with_reducible (apply Follows.ite)
    | with_reducible (apply auditPush_follows)
    | split

theorem orderCmd_follows {a₀ s : State} (r : Follows a₀ s) (a : Assoc) (c : Cmd) :
    Follows a₀ (orderCmd a c s) := by
  unfold orderCmd
  try dsimp only
  repeat' first
    | with_reducible (assumption)
    | with_reducible (exact Follows.refl _)
    | with_reducible (apply Follows.ite)
    | with_reducible (apply updAssoc_follows)
    | with_reducible (apply updCmd_follows)
    | with_reducible (apply issueStitch_follows)
    | with_reducible (apply finish_follows)
    | with_reducible (apply finishAfter_follows)
    | with_reducible (apply finishAdm_follows)
    | with_reducible (apply cmdViolation_follows)
    | with_reducible (apply dropPush_follows)
    | with_reducible (apply refusedPassthrough_follows)
    | with_reducible (apply Follows.onAudit)
    | with_reducible rfl
    | rfl
    | exact id
    | exact List.length_modify ..
    | exact List.length_mapIdx ..
    | exact List.length_map ..
    | exact List.length_set ..
    | split

theorem tryOrder_follows {a₀ s : State} (r : Follows a₀ s) (id : Nat) (row : Nat) :
    Follows a₀ (tryOrder id row s) := by
  unfold tryOrder
  try dsimp only
  repeat' first
    | with_reducible (assumption)
    | with_reducible (exact Follows.refl _)
    | with_reducible (apply Follows.ite)
    | with_reducible (apply orderCmd_follows)
    | with_reducible (apply Follows.onPair)
    | with_reducible rfl
    | rfl
    | exact id
    | exact List.length_modify ..
    | exact List.length_mapIdx ..
    | exact List.length_map ..
    | exact List.length_set ..
    | split

theorem orderAll_follows {a₀ s : State} (r : Follows a₀ s) (p : Cmd → Bool) :
    Follows a₀ (orderAll p s) := by
  unfold orderAll
  try dsimp only
  repeat' first
    | with_reducible (assumption)
    | with_reducible (exact Follows.refl _)
    | with_reducible (apply tryOrder_follows)
    | with_reducible (apply Follows.foldl)
    | split
    | (refine Follows.of_fst (by assumption) ?_)
    | (refine Follows.of_snd (by assumption) ?_)
    | intro

theorem forwardCmd_follows {a₀ s : State} (r : Follows a₀ s) (id : Nat) (row : Nat) :
    Follows a₀ (forwardCmd id row s) := by
  unfold forwardCmd
  try dsimp only
  repeat' first
    | with_reducible (assumption)
    | with_reducible (exact Follows.refl _)
    | with_reducible (apply Follows.ite)
    | with_reducible (apply updCmd_follows)
    | with_reducible (apply sendYarn_follows)
    | with_reducible (apply finish_follows)
    | split

theorem acceptCmd_follows {a₀ s : State} (r : Follows a₀ s) (a : Assoc) (c : Cmd) :
    Follows a₀ (acceptCmd a c s) := by
  unfold acceptCmd
  try dsimp only
  repeat' first
    | with_reducible (assumption)
    | with_reducible (exact Follows.refl _)
    | with_reducible (apply Follows.ite)
    | with_reducible (apply updAssoc_follows)
    | with_reducible (apply tryOrder_follows)
    | with_reducible (apply forwardCmd_follows)
    | with_reducible (apply Follows.onMd)
    | with_reducible (apply Follows.onIo)

theorem putWitness_follows {a₀ s : State} (r : Follows a₀ s) (m : Nat → OutMsg) :
    Follows a₀ (putWitness m s) := by
  unfold putWitness
  try dsimp only
  repeat' first
    | with_reducible (assumption)
    | with_reducible (exact Follows.refl _)
    | with_reducible (apply Follows.ite)
    | with_reducible (apply enqueue_follows)
    | with_reducible (apply Follows.onPair)
    | with_reducible rfl

theorem sendWitness_follows {a₀ s : State} (r : Follows a₀ s) (arr : Nat) (kind : Nat) (epoch : Nat) :
    Follows a₀ (sendWitness arr kind epoch s) := by
  unfold sendWitness
  try dsimp only
  repeat' first
    | with_reducible (assumption)
    | with_reducible (exact Follows.refl _)
    | with_reducible (apply Follows.ite)
    | with_reducible (apply putWitness_follows)
    | with_reducible (apply Follows.onPair)
    | with_reducible rfl

theorem renew_follows {a₀ s : State} (r : Follows a₀ s) (arr : Nat) :
    Follows a₀ (renew arr s) := by
  unfold renew
  try dsimp only
  repeat' first
    | with_reducible (assumption)
    | with_reducible (exact Follows.refl _)
    | with_reducible (apply Follows.ite)
    | with_reducible (apply sendYarn_follows)
    | with_reducible (apply sendWitness_follows)

theorem claim_follows {a₀ s : State} (r : Follows a₀ s) (arr : Nat) (epoch : Nat) (recovery : Bool) :
    Follows a₀ (claim arr epoch recovery s) := by
  unfold claim
  try dsimp only
  repeat' first
    | with_reducible (assumption)
    | with_reducible (exact Follows.refl _)
    | with_reducible (apply updLease_follows)
    | with_reducible (apply sendWitness_follows)

theorem putEpoch_follows {a₀ s : State} (r : Follows a₀ s) (arr : Nat) (epoch : Nat) :
    Follows a₀ (putEpoch arr epoch s) := by
  unfold putEpoch
  try dsimp only
  repeat' first
    | with_reducible (assumption)
    | with_reducible (exact Follows.refl _)
    | with_reducible (apply updLease_follows)

theorem releaseWaits_follows {a₀ s : State} (r : Follows a₀ s) (p : Cmd → Bool) :
    Follows a₀ (releaseWaits p s) := by
  unfold releaseWaits
  try dsimp only
  repeat' first
    | with_reducible (assumption)
    | with_reducible (exact Follows.refl _)
    | with_reducible (apply finish_follows)
    | with_reducible (apply settleMedia_follows)
    | with_reducible (apply Follows.onIo)
    | with_reducible (apply Follows.foldl)
    | split
    | (refine Follows.of_fst (by assumption) ?_)
    | (refine Follows.of_snd (by assumption) ?_)
    | intro

theorem loseShadow_follows {a₀ s : State} (r : Follows a₀ s) :
    Follows a₀ (loseShadow s) := by
  unfold loseShadow
  try dsimp only
  repeat' first
    | with_reducible (assumption)
    | with_reducible (exact Follows.refl _)
    | with_reducible (apply updLease_follows)
    | with_reducible (apply endProof_follows)
    | with_reducible (apply sendWitness_follows)
    | with_reducible (apply releaseWaits_follows)
    | with_reducible (apply Follows.onPair)
    | with_reducible (apply Follows.foldl)
    | with_reducible rfl
    | rfl
    | exact id
    | exact List.length_modify ..
    | exact List.length_mapIdx ..
    | exact List.length_map ..
    | exact List.length_set ..
    | split
    | (refine Follows.of_fst (by assumption) ?_)
    | (refine Follows.of_snd (by assumption) ?_)
    | intro

theorem adoptAdmin_follows {a₀ s : State} (r : Follows a₀ s) :
    Follows a₀ (adoptAdmin s) := by
  unfold adoptAdmin
  try dsimp only
  repeat' first
    | with_reducible (assumption)
    | with_reducible (exact Follows.refl _)
    | with_reducible (apply Follows.ite)
    | with_reducible (apply Follows.onIo)

theorem enterCastOn_follows {a₀ s : State} (r : Follows a₀ s) :
    Follows a₀ (enterCastOn s) := by
  unfold enterCastOn
  try dsimp only
  repeat' first
    | with_reducible (assumption)
    | with_reducible (exact Follows.refl _)
    | with_reducible (apply Follows.onMd)
    | with_reducible (apply Follows.onPair)
    | with_reducible rfl

theorem stopActing_follows {a₀ s : State} (r : Follows a₀ s) (arr : Nat) :
    Follows a₀ (stopActing arr s) := by
  unfold stopActing
  try dsimp only
  repeat' first
    | with_reducible (assumption)
    | with_reducible (exact Follows.refl _)
    | with_reducible (apply Follows.ite)
    | with_reducible (apply updArr_follows)
    | with_reducible (apply updLease_follows)
    | with_reducible (apply Follows.onIo)

theorem discardPicture_follows {a₀ s : State} (r : Follows a₀ s) (arr : Nat) :
    Follows a₀ (discardPicture arr s) := by
  unfold discardPicture
  try dsimp only
  repeat' first
    | with_reducible (assumption)
    | with_reducible (exact Follows.refl _)
    | with_reducible (apply updArr_follows)
    | with_reducible (apply strike_follows)
    | with_reducible (apply Follows.onIo)

theorem resumeCommands_follows {a₀ s : State} (r : Follows a₀ s) (arr : Nat) :
    Follows a₀ (resumeCommands arr s) := by
  unfold resumeCommands
  try dsimp only
  repeat' first
    | with_reducible (assumption)
    | with_reducible (exact Follows.refl _)
    | with_reducible (apply Follows.ite)
    | with_reducible (apply startRead_follows)
    | with_reducible (apply orderAll_follows)
    | with_reducible (apply Follows.onIo)
    | with_reducible (apply Follows.foldl)
    | split
    | (refine Follows.of_fst (by assumption) ?_)
    | (refine Follows.of_snd (by assumption) ?_)
    | intro

theorem takeOver_follows {a₀ s : State} (r : Follows a₀ s) (arr : Nat) (wasMarion : Bool) :
    Follows a₀ (takeOver arr wasMarion s) := by
  unfold takeOver
  try dsimp only
  repeat' first
    | with_reducible (assumption)
    | with_reducible (exact Follows.refl _)
    | with_reducible (apply Follows.ite)
    | with_reducible (apply updArr_follows)
    | with_reducible (apply releaseWaits_follows)
    | with_reducible (apply resumeCommands_follows)
    | with_reducible (apply Follows.onIo)

theorem checkSolo_follows {a₀ s : State} (r : Follows a₀ s) :
    Follows a₀ (checkSolo s) := by
  unfold checkSolo
  try dsimp only
  repeat' first
    | with_reducible (assumption)
    | with_reducible (exact Follows.refl _)
    | with_reducible (apply Follows.ite)
    | with_reducible (apply orderAll_follows)
    | with_reducible (apply Follows.onMd)
    | with_reducible (apply Follows.onIo)

theorem gainLease_follows {a₀ s : State} (r : Follows a₀ s) (arr : Nat) (epoch : Nat) (sh : Bool) (ts : Nat) (dur : Nat) :
    Follows a₀ (gainLease arr epoch sh ts dur s) := by
  unfold gainLease
  try dsimp only
  repeat' first
    | with_reducible (assumption)
    | with_reducible (exact Follows.refl _)
    | with_reducible (apply Follows.ite)
    | with_reducible (apply updLease_follows)
    | with_reducible (apply issueStitch_follows)
    | with_reducible (apply renew_follows)
    | with_reducible (apply discardPicture_follows)
    | with_reducible (apply takeOver_follows)
    | with_reducible (apply checkSolo_follows)
    | with_reducible (apply Follows.onPair)
    | with_reducible rfl

theorem startHandover_follows {a₀ s : State} (r : Follows a₀ s) (arr : Nat) (mb : Option (Nat × Nat)) :
    Follows a₀ (startHandover arr mb s).1 := by
  unfold startHandover
  try dsimp only
  repeat' first
    | with_reducible (assumption)
    | with_reducible (exact Follows.refl _)
    | with_reducible (apply Follows.ite)
    | with_reducible (apply Follows.ite_fst)
    | with_reducible (apply Follows.onPair)
    | with_reducible rfl

theorem endHandover_follows {a₀ s : State} (r : Follows a₀ s) (arr : Nat) :
    Follows a₀ (endHandover arr s) := by
  unfold endHandover
  try dsimp only
  repeat' first
    | with_reducible (assumption)
    | with_reducible (exact Follows.refl _)
    | with_reducible (apply orderAll_follows)
    | with_reducible (apply Follows.onPair)
    | with_reducible rfl

theorem handOver_follows {a₀ s : State} (r : Follows a₀ s) (arr : Nat) (epoch : Nat) :
    Follows a₀ (handOver arr epoch s) := by
  unfold handOver
  try dsimp only
  repeat' first
    | with_reducible (assumption)
    | with_reducible (exact Follows.refl _)
    | with_reducible (apply updLease_follows)
    | with_reducible (apply issueStitch_follows)
    | with_reducible (apply stopActing_follows)
    | with_reducible (apply Follows.onPair)
    | with_reducible rfl

theorem handNext_follows {a₀ s : State} (r : Follows a₀ s) :
    Follows a₀ (handNext s) := by
  unfold handNext
  try dsimp only
  repeat' first
    | with_reducible (assumption)
    | with_reducible (exact Follows.refl _)
    | with_reducible (apply Follows.ite)
    | with_reducible (apply startHandover_follows)
    | with_reducible (apply Follows.onPair)
    | with_reducible rfl
    | rfl
    | exact id
    | exact List.length_modify ..
    | exact List.length_mapIdx ..
    | exact List.length_map ..
    | exact List.length_set ..
    | split

theorem handAll_follows {a₀ s : State} (r : Follows a₀ s) (after : AfterHand) :
    Follows a₀ (handAll after s) := by
  unfold handAll
  try dsimp only
  repeat' first
    | with_reducible (assumption)
    | with_reducible (exact Follows.refl _)
    | with_reducible (apply Follows.ite)
    | with_reducible (apply startHandover_follows)
    | with_reducible (apply handNext_follows)
    | with_reducible (apply Follows.onPair)
    | with_reducible (apply Follows.foldl)
    | with_reducible rfl
    | rfl
    | exact id
    | exact List.length_modify ..
    | exact List.length_mapIdx ..
    | exact List.length_map ..
    | exact List.length_set ..
    | split
    | (refine Follows.of_fst (by assumption) ?_)
    | (refine Follows.of_snd (by assumption) ?_)
    | intro

theorem pairFault_follows {a₀ s : State} (r : Follows a₀ s) :
    Follows a₀ (pairFault s) := by
  unfold pairFault
  try dsimp only
  repeat' first
    | with_reducible (assumption)
    | with_reducible (exact Follows.refl _)
    | with_reducible (apply raiseAll_follows)
    | with_reducible (apply Follows.onPair)
    | with_reducible rfl

theorem dropHosts_follows {a₀ s0 : State} (r : Follows a₀ s0) :
    Follows a₀ (dropHosts s0) := by
  unfold dropHosts
  try dsimp only
  repeat' first
    | with_reducible (assumption)
    | with_reducible (exact Follows.refl _)
    | with_reducible (apply endOper_follows)
    | with_reducible (apply Follows.onIo)
    | with_reducible (apply Follows.onSw)
    | with_reducible (apply Follows.foldl)
    | split
    | (refine Follows.of_fst (by assumption) ?_)
    | (refine Follows.of_snd (by assumption) ?_)
    | intro

theorem releaseLeases_follows {a₀ s : State} (r : Follows a₀ s) :
    Follows a₀ (releaseLeases s) := by
  unfold releaseLeases
  try dsimp only
  repeat' first
    | with_reducible (assumption)
    | with_reducible (exact Follows.refl _)
    | with_reducible (apply Follows.ite)
    | with_reducible (apply sendWitness_follows)
    | with_reducible (apply stopActing_follows)
    | with_reducible (apply Follows.foldl)
    | split
    | (refine Follows.of_fst (by assumption) ?_)
    | (refine Follows.of_snd (by assumption) ?_)
    | intro

theorem enterSafe_follows {a₀ s : State} (r : Follows a₀ s) (cond : Nat) :
    Follows a₀ (enterSafe cond s) := by
  unfold enterSafe
  try dsimp only
  repeat' first
    | with_reducible (assumption)
    | with_reducible (exact Follows.refl _)
    | with_reducible (apply Follows.ite)
    | with_reducible (apply fwEvent_follows)
    | with_reducible (apply endProof_follows)
    | with_reducible (apply dropHosts_follows)
    | with_reducible (apply releaseLeases_follows)
    | with_reducible (apply Follows.onMd)
    | with_reducible (apply Follows.onSw)
    | with_reducible (apply Follows.onPair)
    | with_reducible (apply Follows.onBays)
    | exact Bays.Powered.same rfl
    | with_reducible rfl

theorem partReturns_follows {a₀ s : State} (r : Follows a₀ s) (cls : Nat) (inst : Nat) :
    Follows a₀ (partReturns cls inst s) := by
  unfold partReturns
  try dsimp only
  repeat' first
    | with_reducible (assumption)
    | with_reducible (exact Follows.refl _)
    | with_reducible (apply Follows.ite)
    | with_reducible (apply updPart_follows)
    | with_reducible (apply Follows.onSw)

theorem cancelTest_follows {a₀ s : State} (r : Follows a₀ s) (p : Part) :
    Follows a₀ (cancelTest s p) := by
  unfold cancelTest
  try dsimp only
  repeat' first
    | with_reducible (assumption)
    | with_reducible (exact Follows.refl _)
    | with_reducible (apply Follows.ite)
    | with_reducible (apply updPart_follows)
    | with_reducible (apply endOper_follows)
    | with_reducible (apply partReturns_follows)
    | split

theorem cancelTests_follows {a₀ s : State} (r : Follows a₀ s) (q : Part → Bool) :
    Follows a₀ (cancelTests q s) := by
  unfold cancelTests
  try dsimp only
  repeat' first
    | with_reducible (assumption)
    | with_reducible (exact Follows.refl _)
    | with_reducible (apply cancelTest_follows)
    | with_reducible (apply Follows.foldl)
    | split
    | (refine Follows.of_fst (by assumption) ?_)
    | (refine Follows.of_snd (by assumption) ?_)
    | intro

theorem partFails_follows {a₀ s : State} (r : Follows a₀ s) (cls : Nat) (inst : Nat) :
    Follows a₀ (partFails cls inst s) := by
  unfold partFails
  try dsimp only
  repeat' first
    | with_reducible (assumption)
    | with_reducible (exact Follows.refl _)
    | with_reducible (apply Follows.ite)
    | with_reducible (apply fwEvent_follows)
    | with_reducible (apply updPart_follows)
    | with_reducible (apply enterSafe_follows)
    | with_reducible (apply cancelTests_follows)
    | split

theorem dropActivation_follows {a₀ s : State} (r : Follows a₀ s) :
    Follows a₀ (dropActivation s) := by
  unfold dropActivation
  try dsimp only
  repeat' first
    | with_reducible (assumption)
    | with_reducible (exact Follows.refl _)
    | with_reducible (apply auditPush_follows)
    | with_reducible (apply endOper_follows)
    | with_reducible (apply Follows.onImg)
    | split

theorem controllerReset_follows {a₀ s : State} (r : Follows a₀ s) :
    Follows a₀ (controllerReset s) := by
  unfold controllerReset
  split
  · exact r
  dsimp only
  apply Follows.onMd
  apply abortSelfTest_follows
  apply Follows.foldl
  · apply cancelTests_follows
    have h1 : Follows a₀ ((s.onDbg fun d => { d with cores := d.cores.mapIdx fun n c => if 4 ≤ n then {} else c }).onIo fun i =>
        { i with cmds := i.cmds.map fun c => if 64 ≤ c.cp then { c with cp := 2 * c.lane } else c }) := by
      refine (r.onDbg _ (by simp) fun ⟨h1, h2, h3⟩ => ⟨h1, h2, fun c hc => ?_⟩).onIo _
      simp only [List.mem_mapIdx] at hc
      obtain ⟨n, hn, rfl⟩ := hc
      split
      · rfl
      · exact h3 _ (List.getElem_mem _)
    split
    · exact dropActivation_follows h1
    · exact h1
  · intro t x
    apply assocReset_follows
    split
    · exact issueStitch_follows (Follows.refl _) _ _ _ _ _
    · exact Follows.refl _

theorem sessionEntry_follows {a₀ s : State} (r : Follows a₀ s) :
    Follows a₀ (sessionEntry s) := by
  unfold sessionEntry
  try dsimp only
  repeat' first
    | with_reducible (assumption)
    | with_reducible (exact Follows.refl _)
    | with_reducible (apply auditPush_follows)

theorem moduleReset_follows {a₀ s0 : State} (r : Follows a₀ s0) :
    Follows a₀ (moduleReset s0) := by
  unfold moduleReset
  try dsimp only
  repeat' first
    | with_reducible (assumption)
    | with_reducible (exact Follows.refl _)
    | with_reducible (apply Follows.ite)
    | with_reducible (apply dropHosts_follows)
    | with_reducible (apply sessionEntry_follows)
    | with_reducible (apply Follows.onTime)
    | with_reducible (apply Follows.onMd)
    | with_reducible (apply Follows.onIo)
    | with_reducible (apply Follows.onSw)
    | with_reducible (apply Follows.onMbx)
    | with_reducible (apply Follows.onImg)
    | with_reducible (apply Follows.onParts)
    | with_reducible (apply Follows.onPair)
    | with_reducible (apply Follows.onBays)
    | exact Bays.Powered.same rfl
    | (refine Bays.Powered.map ?_ rfl; exact fun _ h => h)
    | with_reducible (apply Follows.onAudit)
    | with_reducible (apply Follows.onDbg)
    | with_reducible rfl
    | rfl
    | exact id
    | exact List.length_modify ..
    | exact List.length_mapIdx ..
    | exact List.length_map ..
    | exact List.length_set ..
    | (intro _; refine ⟨rfl, rfl, fun c hc => ?_⟩; obtain ⟨_, _, rfl⟩ := List.mem_map.mp hc; rfl)

theorem beginLeave_follows {a₀ s : State} (r : Follows a₀ s) (req : Nat) (op : Nat) :
    Follows a₀ (beginLeave req op s) := by
  unfold beginLeave
  try dsimp only
  repeat' first
    | with_reducible (assumption)
    | with_reducible (exact Follows.refl _)
    | with_reducible (apply controllerReset_follows)
    | with_reducible (apply Follows.onMd)

theorem ddpAnswer_follows {a₀ s : State} (r : Follows a₀ s) (q : Nat) (type : Nat) (status : Nat) (payload : List Nat) :
    Follows a₀ (ddpAnswer q type status payload s) := by
  unfold ddpAnswer
  try dsimp only
  repeat' first
    | with_reducible (assumption)
    | with_reducible (exact Follows.refl _)
    | with_reducible (apply Follows.onDbg)
    | with_reducible rfl
    | rfl
    | exact id

theorem debugEntry_follows {a₀ s : State} (r : Follows a₀ s) (code : Nat) (key : Nat) (obj : Nat) :
    Follows a₀ (debugEntry code key obj s) := by
  unfold debugEntry
  try dsimp only
  repeat' first
    | with_reducible (assumption)
    | with_reducible (exact Follows.refl _)
    | with_reducible (apply auditPush_follows)

theorem haltCore_follows {a₀ s : State} (r : Follows a₀ s) (n : Nat) (reason : Nat) (idx : Nat) (bySession : Bool) :
    Follows a₀ (haltCore n reason idx bySession s) := by
  unfold haltCore
  try dsimp only
  repeat' first
    | with_reducible (assumption)
    | with_reducible (exact Follows.refl _)
    | with_reducible (apply Follows.ite)
    | with_reducible (apply State.drawn_follows)
    | with_reducible (apply updCore_follows)
    | (intro c hc; exact hc)

theorem dropHold_follows {a₀ s : State} (r : Follows a₀ s) :
    Follows a₀ (dropHold s) := by
  unfold dropHold
  try dsimp only
  repeat' first
    | with_reducible (assumption)
    | with_reducible (exact Follows.refl _)
    | with_reducible (apply Follows.ite)
    | with_reducible (apply endHandover_follows)
    | with_reducible (apply Follows.onPair)
    | with_reducible (apply Follows.onDbg)
    | with_reducible (apply Follows.foldl)
    | with_reducible rfl
    | rfl
    | exact id
    | exact List.length_modify ..
    | exact List.length_mapIdx ..
    | exact List.length_map ..
    | exact List.length_set ..
    | split
    | (refine Follows.of_fst (by assumption) ?_)
    | (refine Follows.of_snd (by assumption) ?_)
    | intro

theorem debugHoldFails_follows {a₀ s : State} (r : Follows a₀ s) :
    Follows a₀ (debugHoldFails s) := by
  unfold debugHoldFails
  try dsimp only
  repeat' first
    | with_reducible (assumption)
    | with_reducible (exact Follows.refl _)
    | with_reducible (apply resumeCores_follows)
    | with_reducible (apply ddpAnswer_follows)
    | with_reducible (apply dropHold_follows)
    | split

end Sys2Proof.Machine
end

