-- ==== Sys2Proof/Laws/Ops4.lean ====
section
/-! SUPPORT. What each shared operation keeps, from debugHeld to isolate. -/

namespace Sys2Proof.Machine

theorem debugHeld_follows {a₀ s : State} (r : Follows a₀ s) :
    Follows a₀ (debugHeld s) := by
  unfold debugHeld
  try dsimp only
  repeat' first
    | with_reducible (assumption)
    | with_reducible (exact Follows.refl _)
    | with_reducible (apply enterCastOn_follows)
    | with_reducible (apply ddpAnswer_follows)
    | with_reducible (apply debugEntry_follows)
    | with_reducible (apply haltCore_follows)
    | with_reducible (apply Follows.onPair)
    | with_reducible (apply Follows.onDbg)
    | with_reducible rfl
    | rfl
    | exact id
    | exact List.length_modify ..
    | exact List.length_mapIdx ..
    | exact List.length_map ..
    | exact List.length_set ..
    | split

theorem afterHandover_follows {a₀ s : State} (r : Follows a₀ s) :
    Follows a₀ (afterHandover s) := by
  unfold afterHandover
  try dsimp only
  repeat' first
    | with_reducible (assumption)
    | with_reducible (exact Follows.refl _)
    | with_reducible (apply Follows.ite)
    | with_reducible (apply enterCastOn_follows)
    | with_reducible (apply moduleReset_follows)
    | with_reducible (apply beginLeave_follows)
    | with_reducible (apply debugHeld_follows)
    | with_reducible (apply Follows.onImg)
    | with_reducible (apply Follows.onPair)
    | with_reducible (apply Follows.foldl)
    | with_reducible rfl
    | rfl
    | exact id
    | exact List.length_modify ..
    | exact List.length_mapIdx ..
    | exact List.length_map ..
    | exact List.length_set ..
    | split
    | (refine Follows.of_fst (by assumption) ?_)
    | (refine Follows.of_snd (by assumption) ?_)
    | intro

theorem giveUp_follows {a₀ s : State} (r : Follows a₀ s) :
    Follows a₀ (giveUp s) := by
  unfold giveUp
  try dsimp only
  repeat' first
    | with_reducible (assumption)
    | with_reducible (exact Follows.refl _)
    | with_reducible (apply endOper_follows)
    | with_reducible (apply enterCastOn_follows)
    | with_reducible (apply stopActing_follows)
    | with_reducible (apply dropActivation_follows)
    | with_reducible (apply moduleReset_follows)
    | with_reducible (apply debugHoldFails_follows)
    | with_reducible (apply Follows.onMd)
    | with_reducible (apply Follows.onPair)
    | with_reducible (apply Follows.foldl)
    | with_reducible rfl
    | rfl
    | exact id
    | exact List.length_modify ..
    | exact List.length_mapIdx ..
    | exact List.length_map ..
    | exact List.length_set ..
    | split
    | (refine Follows.of_fst (by assumption) ?_)
    | (refine Follows.of_snd (by assumption) ?_)
    | intro

theorem handFailed_follows {a₀ s : State} (r : Follows a₀ s) (arr : Nat) (counted : Bool) :
    Follows a₀ (handFailed arr counted s) := by
  unfold handFailed
  try dsimp only
  repeat' first
    | with_reducible (assumption)
    | with_reducible (exact Follows.refl _)
    | with_reducible (apply Follows.ite)
    | with_reducible (apply answerSlot_follows)
    | with_reducible (apply startHandover_follows)
    | with_reducible (apply endHandover_follows)
    | with_reducible (apply giveUp_follows)
    | with_reducible (apply Follows.onPair)
    | with_reducible rfl
    | rfl
    | exact id
    | exact List.length_modify ..
    | exact List.length_mapIdx ..
    | exact List.length_map ..
    | exact List.length_set ..
    | split

theorem handDone_follows {a₀ s : State} (r : Follows a₀ s) (arr : Nat) (epoch : Nat) :
    Follows a₀ (handDone arr epoch s) := by
  unfold handDone
  try dsimp only
  repeat' first
    | with_reducible (assumption)
    | with_reducible (exact Follows.refl _)
    | with_reducible (apply answerSlot_follows)
    | with_reducible (apply handOver_follows)
    | with_reducible (apply handNext_follows)
    | with_reducible (apply afterHandover_follows)
    | split

theorem withdraw_follows {a₀ s : State} (r : Follows a₀ s) :
    Follows a₀ (withdraw s) := by
  unfold withdraw
  try dsimp only
  repeat' first
    | with_reducible (assumption)
    | with_reducible (exact Follows.refl _)
    | with_reducible (apply Follows.ite)
    | with_reducible (apply handAll_follows)
    | with_reducible (apply enterSafe_follows)
    | with_reducible (apply afterHandover_follows)
    | with_reducible (apply Follows.onPair)
    | with_reducible rfl

theorem updCopy_follows {a₀ s : State} (r : Follows a₀ s) (op : Nat) (f : Copy → Copy) :
    Follows a₀ (updCopy op f s) := by
  unfold updCopy
  try dsimp only
  repeat' first
    | with_reducible (assumption)
    | with_reducible (exact Follows.refl _)
    | with_reducible (apply Follows.onIo)

theorem copySend_follows {a₀ s : State} (r : Follows a₀ s) (bytes : Nat) (m : OutMsg) :
    Follows a₀ (copySend bytes m s) := by
  unfold copySend
  try dsimp only
  repeat' first
    | with_reducible (assumption)
    | with_reducible (exact Follows.refl _)
    | with_reducible (apply enqueue_follows)

theorem sendRange_follows {a₀ s : State} (r : Follows a₀ s) (op : Nat) (range : Nat) :
    Follows a₀ (sendRange op range s) := by
  unfold sendRange
  try dsimp only
  repeat' first
    | with_reducible (assumption)
    | with_reducible (exact Follows.refl _)
    | with_reducible (apply updCopy_follows)
    | with_reducible (apply copySend_follows)
    | split

theorem copyFeed_follows {a₀ s : State} (r : Follows a₀ s) (op : Nat) :
    Follows a₀ (copyFeed op s) := by
  unfold copyFeed
  try dsimp only
  repeat' first
    | with_reducible (assumption)
    | with_reducible (exact Follows.refl _)
    | with_reducible (apply Follows.ite)
    | with_reducible (apply issueDc_follows)
    | with_reducible (apply sendRange_follows)
    | with_reducible (apply Follows.foldl)
    | split
    | (refine Follows.of_fst (by assumption) ?_)
    | (refine Follows.of_snd (by assumption) ?_)
    | intro

theorem stitchCopyEnd_follows {a₀ s : State} (r : Follows a₀ s) (c : Copy) (code : Nat) :
    Follows a₀ (stitchCopyEnd c code s) := by
  unfold stitchCopyEnd
  try dsimp only
  repeat' first
    | with_reducible (assumption)
    | with_reducible (exact Follows.refl _)
    | with_reducible (apply Follows.ite)
    | with_reducible (apply issueStitch_follows)

theorem failCopy_follows {a₀ s : State} (r : Follows a₀ s) (op : Nat) (code : Nat) :
    Follows a₀ (failCopy op code s) := by
  unfold failCopy
  try dsimp only
  repeat' first
    | with_reducible (assumption)
    | with_reducible (exact Follows.refl _)
    | with_reducible (apply endOper_follows)
    | with_reducible (apply answerSlot_follows)
    | with_reducible (apply stitchCopyEnd_follows)
    | with_reducible (apply Follows.onIo)
    | split

theorem startHeld_follows {a₀ s : State} (r : Follows a₀ s) :
    Follows a₀ (startHeld s) := by
  unfold startHeld
  try dsimp only
  repeat' first
    | with_reducible (assumption)
    | with_reducible (exact Follows.refl _)
    | with_reducible (apply Follows.ite)
    | with_reducible (apply startWrite_follows)
    | with_reducible (apply Follows.foldl)
    | split
    | (refine Follows.of_fst (by assumption) ?_)
    | (refine Follows.of_snd (by assumption) ?_)
    | intro

theorem stitchDrive_follows {a₀ s : State} (r : Follows a₀ s) (d : DrvCmd) (outcome : Nat) (status : Nat) :
    Follows a₀ (stitchDrive d outcome status s) := by
  unfold stitchDrive
  try dsimp only
  repeat' first
    | with_reducible (assumption)
    | with_reducible (exact Follows.refl _)
    | with_reducible (apply issueStitch_follows)

theorem dropFromCmd_follows {a₀ s : State} (r : Follows a₀ s) (d : DrvCmd) :
    Follows a₀ (dropFromCmd d s) := by
  unfold dropFromCmd
  try dsimp only
  repeat' first
    | with_reducible (assumption)
    | with_reducible (exact Follows.refl _)
    | with_reducible (apply updCmd_follows)
    | split

theorem hostReadDone_follows {a₀ s : State} (r : Follows a₀ s) (d : DrvCmd) (pos : Nat) (ok : Bool) (blocks : List Blk) :
    Follows a₀ (hostReadDone d pos ok blocks s) := by
  unfold hostReadDone
  try dsimp only
  repeat' first
    | with_reducible (assumption)
    | with_reducible (exact Follows.refl _)
    | with_reducible (apply Follows.ite)
    | with_reducible (apply updCmd_follows)
    | with_reducible (apply issueReads_follows)
    | with_reducible (apply settleRead_follows)
    | with_reducible (apply settleAborted_follows)
    | with_reducible (apply dropFromCmd_follows)
    | split

theorem drainReadDone_follows {a₀ s : State} (r : Follows a₀ s) (d : DrvCmd) (arr : Nat) (row : Nat) (pos : Nat) (ok : Bool) (blocks : List Blk) :
    Follows a₀ (drainReadDone d arr row pos ok blocks s) := by
  unfold drainReadDone
  try dsimp only
  repeat' first
    | with_reducible (assumption)
    | with_reducible (exact Follows.refl _)
    | with_reducible (apply Follows.ite)
    | with_reducible (apply updArr_follows)
    | with_reducible (apply issueDc_follows)
    | with_reducible (apply drainIssue_follows)
    | with_reducible (apply Follows.foldl)
    | split
    | (refine Follows.of_fst (by assumption) ?_)
    | (refine Follows.of_snd (by assumption) ?_)
    | intro

theorem afterDrive_follows {a₀ s : State} (r : Follows a₀ s) (d : DrvCmd) (ok : Bool) (blocks : List Blk) :
    Follows a₀ (afterDrive d ok blocks s) := by
  unfold afterDrive
  try dsimp only
  repeat' first
    | with_reducible (assumption)
    | with_reducible (exact Follows.refl _)
    | with_reducible (apply Follows.ite)
    | with_reducible (apply updArr_follows)
    | with_reducible (apply updVol_follows)
    | with_reducible (apply updChan_follows)
    | exact (fun _ h => h)
    | exact (fun _ _ _ => rfl)
    | with_reducible (apply slotDc_follows)
    | with_reducible (apply superblockDone_follows)
    | with_reducible (apply endFlush_follows)
    | with_reducible (apply indexDone_follows)
    | with_reducible (apply rowJournal_follows)
    | with_reducible (apply settleAborted_follows)
    | with_reducible (apply jobReadDone_follows)
    | with_reducible (apply jobWriteDone_follows)
    | with_reducible (apply sendRange_follows)
    | with_reducible (apply dropFromCmd_follows)
    | with_reducible (apply hostReadDone_follows)
    | with_reducible (apply drainReadDone_follows)
    | split

theorem removeDc_follows {a₀ s : State} (r : Follows a₀ s) (id : Nat) :
    Follows a₀ (removeDc id s) := by
  unfold removeDc
  try dsimp only
  repeat' first
    | with_reducible (assumption)
    | with_reducible (exact Follows.refl _)
    | with_reducible (apply Follows.onIo)

theorem endDcs_follows {a₀ s : State} (r : Follows a₀ s) (p : DrvCmd → Bool) :
    Follows a₀ (endDcs p s) := by
  unfold endDcs
  try dsimp only
  repeat' first
    | with_reducible (assumption)
    | with_reducible (exact Follows.refl _)
    | with_reducible (apply Follows.ite)
    | with_reducible (apply stitchDrive_follows)
    | with_reducible (apply afterDrive_follows)
    | with_reducible (apply removeDc_follows)
    | with_reducible (apply Follows.foldl)
    | split
    | (refine Follows.of_fst (by assumption) ?_)
    | (refine Follows.of_snd (by assumption) ?_)
    | intro

theorem removalFlush_follows {a₀ s : State} (r : Follows a₀ s) (bay : Nat) :
    Follows a₀ (removalFlush bay s) := by
  unfold removalFlush
  try dsimp only
  repeat' first
    | with_reducible (assumption)
    | with_reducible (exact Follows.refl _)
    | with_reducible (apply Follows.ite)
    | with_reducible (apply issueDc_follows)

theorem failBay_follows {a₀ s : State} (r : Follows a₀ s) (bay : Nat) :
    Follows a₀ (failBay bay s) := by
  unfold failBay
  try dsimp only
  repeat' first
    | with_reducible (assumption)
    | with_reducible (exact Follows.refl _)
    | with_reducible (apply failMember_follows)
    | with_reducible (apply endDcs_follows)
    | split

theorem countReadError_follows {a₀ s : State} (r : Follows a₀ s) (bay : Nat) :
    Follows a₀ (countReadError bay s) := by
  unfold countReadError
  try dsimp only
  repeat' first
    | with_reducible (assumption)
    | with_reducible (exact Follows.refl _)
    | with_reducible (apply Follows.ite)
    | with_reducible (apply updDrive_follows)
    | with_reducible (apply failBay_follows)
    | split

theorem resetDrive_follows {a₀ s : State} (r : Follows a₀ s) (bay : Nat) :
    Follows a₀ (resetDrive bay s) := by
  unfold resetDrive
  try dsimp only
  repeat' first
    | with_reducible (assumption)
    | with_reducible (exact Follows.refl _)
    | with_reducible (apply Follows.ite)
    | with_reducible (apply updDrive_follows)
    | with_reducible (apply stitchDrive_follows)
    | with_reducible (apply failBay_follows)
    | with_reducible (apply Follows.onIo)
    | with_reducible (apply Follows.onAudit)
    | with_reducible rfl
    | rfl
    | exact id
    | exact List.length_modify ..
    | exact List.length_mapIdx ..
    | exact List.length_map ..
    | exact List.length_set ..
    | split

theorem noteMend_follows {a₀ s : State} (r : Follows a₀ s) (d : DrvCmd) :
    Follows a₀ (noteMend d s) := by
  unfold noteMend
  try dsimp only
  repeat' first
    | with_reducible (assumption)
    | with_reducible (exact Follows.refl _)
    | with_reducible (apply updCmd_follows)
    | split

theorem driveEnds_follows {a₀ s : State} (r : Follows a₀ s) (dc : Nat) (ok : Bool) (status : Nat) (fatal : Bool) (blocks : List Blk) :
    Follows a₀ (driveEnds dc ok status fatal blocks s) := by
  unfold driveEnds
  try dsimp only
  repeat' first
    | with_reducible (assumption)
    | with_reducible (exact Follows.refl _)
    | with_reducible (apply Follows.ite)
    | with_reducible (apply updDrive_follows)
    | with_reducible (apply updDc_follows)
    | with_reducible (apply stitchDrive_follows)
    | with_reducible (apply afterDrive_follows)
    | with_reducible (apply removeDc_follows)
    | with_reducible (apply failBay_follows)
    | with_reducible (apply countReadError_follows)
    | with_reducible (apply noteMend_follows)
    | split

theorem orphanDc_follows {a₀ st : State} (r : Follows a₀ st) (d : DrvCmd) :
    Follows a₀ (orphanDc d st) := by
  unfold orphanDc
  try dsimp only
  repeat' first
    | with_reducible (assumption)
    | with_reducible (exact Follows.refl _)
    | with_reducible (apply Follows.ite)
    | with_reducible (apply updArr_follows)
    | with_reducible (apply updDrive_follows)
    | with_reducible (apply updDc_follows)
    | with_reducible (apply issueTagged_follows)
    | with_reducible (apply setBits_follows)
    | with_reducible (apply stitchDrive_follows)
    | with_reducible (apply afterDrive_follows)
    | with_reducible (apply removeDc_follows)
    | with_reducible (apply failBay_follows)
    | with_reducible (apply resetDrive_follows)
    | with_reducible (apply Follows.onAudit)
    | with_reducible rfl
    | rfl
    | exact id
    | exact List.length_modify ..
    | exact List.length_mapIdx ..
    | exact List.length_map ..
    | exact List.length_set ..
    | split

theorem importVolume_follows {a₀ s : State} (r : Follows a₀ s) (arr : Nat) (v : ImpVol) :
    Follows a₀ (importVolume arr s v) := by
  unfold importVolume
  try dsimp only
  repeat' first
    | with_reducible (assumption)
    | with_reducible (exact Follows.refl _)
    | with_reducible (apply Follows.ite)
    | with_reducible (apply updArr_follows)
    | with_reducible (apply Follows.onIo)

theorem failHandshake_follows {a₀ s : State} (r : Follows a₀ s) (src : Nat) :
    Follows a₀ (failHandshake src s) := by
  unfold failHandshake
  try dsimp only
  repeat' first
    | with_reducible (assumption)
    | with_reducible (exact Follows.refl _)
    | with_reducible (apply Follows.ite)
    | with_reducible (apply Follows.onIo)

theorem sendHello2_follows {a₀ s : State} (r : Follows a₀ s) (port : Nat) (a : Assoc) :
    Follows a₀ (sendHello2 port a s) := by
  unfold sendHello2
  try dsimp only
  repeat' first
    | with_reducible (assumption)
    | with_reducible (exact Follows.refl _)
    | with_reducible (apply Follows.ite)
    | with_reducible (apply enqueue_follows)

theorem helloRefused_follows {a₀ s : State} (r : Follows a₀ s) (h : Hello) (reason : Nat) :
    Follows a₀ (helloRefused h reason s) := by
  unfold helloRefused
  try dsimp only
  repeat' first
    | with_reducible (assumption)
    | with_reducible (exact Follows.refl _)
    | with_reducible (apply sendNakClear_follows)
    | split

theorem sendKeys4_follows {a₀ s : State} (r : Follows a₀ s) (id : Nat) :
    Follows a₀ (sendKeys4 id s) := by
  unfold sendKeys4
  try dsimp only
  repeat' first
    | with_reducible (assumption)
    | with_reducible (exact Follows.refl _)
    | with_reducible (apply Follows.ite)
    | with_reducible (apply updAssoc_follows)
    | with_reducible (apply updCmd_follows)
    | with_reducible (apply admitSeq_follows)
    | with_reducible (apply deliverRead_follows)
    | with_reducible (apply admitWaiting_follows)
    | with_reducible (apply Follows.foldl)
    | split
    | (refine Follows.of_fst (by assumption) ?_)
    | (refine Follows.of_snd (by assumption) ?_)
    | intro

theorem retransmit_follows {a₀ s : State} (r : Follows a₀ s) (id : Nat) (seq : Nat) :
    Follows a₀ (retransmit id seq s) := by
  unfold retransmit
  try dsimp only
  repeat' first
    | with_reducible (assumption)
    | with_reducible (exact Follows.refl _)
    | with_reducible (apply Follows.ite)
    | with_reducible (apply updAssoc_follows)
    | with_reducible (apply enqueue_follows)
    | split

theorem resendResp_follows {a₀ s : State} (r : Follows a₀ s) (id : Nat) (row : Nat) :
    Follows a₀ (resendResp id row s) := by
  unfold resendResp
  try dsimp only
  repeat' first
    | with_reducible (assumption)
    | with_reducible (exact Follows.refl _)
    | with_reducible (apply retransmit_follows)
    | split

theorem confirmWrite_follows {a₀ s : State} (r : Follows a₀ s) (id : Nat) (row : Nat) :
    Follows a₀ (confirmWrite id row s) := by
  unfold confirmWrite
  try dsimp only
  repeat' first
    | with_reducible (assumption)
    | with_reducible (exact Follows.refl _)
    | with_reducible (apply Follows.ite)
    | with_reducible (apply updCmd_follows)
    | with_reducible (apply sendYarn_follows)
    | with_reducible (apply finish_follows)
    | with_reducible (apply markCopies_follows)
    | with_reducible (apply bufferBlocks_follows)
    | with_reducible (apply markAcked_follows)
    | with_reducible (apply dropPush_follows)
    | with_reducible (apply Follows.foldl)
    | split
    | (refine Follows.of_fst (by assumption) ?_)
    | (refine Follows.of_snd (by assumption) ?_)
    | intro

theorem cancelRevoked_follows {a₀ s : State} (r : Follows a₀ s) (a : Assoc) (c : Cmd) :
    Follows a₀ (cancelRevoked a s c) := by
  unfold cancelRevoked
  try dsimp only
  repeat' first
    | with_reducible (assumption)
    | with_reducible (exact Follows.refl _)
    | with_reducible (apply Follows.ite)
    | with_reducible (apply issueStitch_follows)
    | with_reducible (apply finish_follows)
    | with_reducible (apply finishAfter_follows)

theorem endRevokes_follows {a₀ s : State} (r : Follows a₀ s) (assoc : Nat) (rows : List Nat) (cancelled : Nat) :
    Follows a₀ (endRevokes assoc rows cancelled s) := by
  unfold endRevokes
  try dsimp only
  repeat' first
    | with_reducible (assumption)
    | with_reducible (exact Follows.refl _)
    | with_reducible (apply finishAdm_follows)
    | with_reducible (apply Follows.foldl)
    | split
    | (refine Follows.of_fst (by assumption) ?_)
    | (refine Follows.of_snd (by assumption) ?_)
    | intro

theorem placeAdmin_follows {a₀ s : State} (r : Follows a₀ s) (c : Cmd) (len : Nat) (bytes : List Nat) :
    Follows a₀ (placeAdmin c len bytes s) := by
  unfold placeAdmin
  try dsimp only
  repeat' first
    | with_reducible (assumption)
    | with_reducible (exact Follows.refl _)
    | with_reducible (apply Follows.ite)
    | with_reducible (apply updCmd_follows)
    | with_reducible (apply placeData_follows)
    | split

theorem endOffline_follows {a₀ s : State} (r : Follows a₀ s) (c : Cmd) :
    Follows a₀ (endOffline c s) := by
  unfold endOffline
  try dsimp only
  repeat' first
    | with_reducible (assumption)
    | with_reducible (exact Follows.refl _)
    | with_reducible (apply endIo_follows)

theorem deallocRows_follows {a₀ s : State} (r : Follows a₀ s) (v : Volume) (a : Arr) (lba : Nat) (n : Nat) :
    Follows a₀ (deallocRows v a lba n s) := by
  unfold deallocRows
  try dsimp only
  repeat' first
    | with_reducible (assumption)
    | with_reducible (exact Follows.refl _)
    | with_reducible (apply Follows.ite)
    | with_reducible (apply issueDc_follows)
    | with_reducible (apply Follows.foldl)
    | split
    | (refine Follows.of_fst (by assumption) ?_)
    | (refine Follows.of_snd (by assumption) ?_)
    | intro

theorem toSlowPath_follows {a₀ s : State} (r : Follows a₀ s) (f : Frame) (punt : Option Nat) :
    Follows a₀ (toSlowPath f punt s) := by
  unfold toSlowPath
  try dsimp only
  repeat' first
    | with_reducible (assumption)
    | with_reducible (exact Follows.refl _)
    | with_reducible (apply Follows.ite)
    | with_reducible (apply updParser_follows)
    | with_reducible (apply Follows.onSw)

theorem cellsToCpu_follows {a₀ s : State} (r : Follows a₀ s) (f : Frame) (cls : Nat) :
    Follows a₀ (cellsToCpu f cls s) := by
  unfold cellsToCpu
  try dsimp only
  repeat' first
    | with_reducible (assumption)
    | with_reducible (exact Follows.refl _)
    | with_reducible (apply updPort_follows)

theorem useContext_follows {a₀ s : State} (r : Follows a₀ s) (id : Nat) :
    Follows a₀ (useContext id s) := by
  unfold useContext
  try dsimp only
  repeat' first
    | with_reducible (assumption)
    | with_reducible (exact Follows.refl _)
    | with_reducible (apply Follows.onSw)

theorem steer_follows {a₀ s : State} (r : Follows a₀ s) (f : Frame) (prio : Nat) (cls : Nat) :
    Follows a₀ (steer f prio cls s) := by
  unfold steer
  try dsimp only
  repeat' first
    | with_reducible (assumption)
    | with_reducible (exact Follows.refl _)
    | with_reducible (apply Follows.ite)
    | with_reducible (apply updParser_follows)
    | with_reducible (apply updPort_follows)
    | with_reducible (apply pauseCheck_follows)
    | with_reducible (apply Follows.onSw)

theorem meterFrame_follows {a₀ s : State} (r : Follows a₀ s) (f : Frame) (a : Assoc) :
    Follows a₀ (meterFrame f a s).2 := by
  unfold meterFrame
  try dsimp only
  repeat' first
    | with_reducible (assumption)
    | with_reducible (exact Follows.refl _)
    | with_reducible (apply Follows.ite)
    | with_reducible (apply Follows.ite_fst)
    | with_reducible (apply updAssoc_follows)

theorem authenticate_follows {a₀ s : State} (r : Follows a₀ s) (f : Frame) (prio : Nat) (cls : Nat) :
    Follows a₀ (authenticate f prio cls s) := by
  unfold authenticate
  have hc := arrivalCheck_follows f.h f.ptype (useContext f.h.assoc s)
  split
  · rename_i t ht
    exact (useContext_follows r _).trans (hc.follows ht)
  · exact steer_follows (useContext_follows r _) _ _ _

theorem vdtFrame_follows {a₀ s : State} (r : Follows a₀ s) (f : Frame) (prio : Nat) :
    Follows a₀ (vdtFrame f prio s) := by
  unfold vdtFrame
  have hc := fun x => arrivalCheck_follows f.h f.ptype x
  repeat' first
    | with_reducible assumption
    | with_reducible apply updParser_follows
    | with_reducible apply cellsToCpu_follows
    | with_reducible apply authenticate_follows
    | with_reducible apply meterFrame_follows
    | (rename_i t ht
       refine Follows.trans ?_ ((hc _).follows ht)
       split
       · exact r
       · exact updParser_follows r _ _)
    | dsimp only
    | split

theorem parseFrame_follows {a₀ s : State} (r : Follows a₀ s) (f : Frame) :
    Follows a₀ (parseFrame f s) := by
  unfold parseFrame
  try dsimp only
  repeat' first
    | with_reducible (assumption)
    | with_reducible (exact Follows.refl _)
    | with_reducible (apply Follows.ite)
    | with_reducible (apply updParser_follows)
    | with_reducible (apply toSlowPath_follows)
    | with_reducible (apply cellsToCpu_follows)
    | with_reducible (apply vdtFrame_follows)
    | split

theorem closePause_follows {a₀ s : State} (r : Follows a₀ s) (port : Nat) (cls : Nat) :
    Follows a₀ (closePause port cls s) := by
  unfold closePause
  try dsimp only
  repeat' first
    | with_reducible (assumption)
    | with_reducible (exact Follows.refl _)
    | with_reducible (apply updPort_follows)
    | with_reducible (apply Follows.onSw)
    | split

theorem yarnFreed_follows {a₀ s : State} (r : Follows a₀ s) (cls : Nat) (bytes : Nat) :
    Follows a₀ (yarnFreed cls bytes s) := by
  unfold yarnFreed
  try dsimp only
  repeat' first
    | with_reducible (assumption)
    | with_reducible (exact Follows.refl _)
    | with_reducible (apply Follows.onSw)
    | with_reducible (apply Follows.onPair)
    | with_reducible rfl

theorem putSched_follows {a₀ s : State} (r : Follows a₀ s) (x : Sched) :
    Follows a₀ (putSched x s) := by
  unfold putSched
  try dsimp only
  repeat' first
    | with_reducible (assumption)
    | with_reducible (exact Follows.refl _)
    | with_reducible (apply Follows.onSw)

theorem updQrec_follows {a₀ s : State} (r : Follows a₀ s) (q : Nat) (f : QRec → QRec) :
    Follows a₀ (updQrec q f s) := by
  unfold updQrec
  try dsimp only
  repeat' first
    | with_reducible (assumption)
    | with_reducible (exact Follows.refl _)
    | with_reducible (apply Follows.ite)
    | with_reducible (apply Follows.onSw)

theorem arbitrate_follows {a₀ s : State} (r : Follows a₀ s) (inst : Nat) (g : Option Gate) (rate : Nat) (bays : Bool) (q0 : Nat) (heads : Nat → Option Head) (free : Nat → Bool) :
    Follows a₀ (arbitrate inst g rate bays q0 heads free s).2 := by
  unfold arbitrate
  try dsimp only
  repeat' first
    | with_reducible (assumption)
    | with_reducible (exact Follows.refl _)
    | with_reducible (apply Follows.ite)
    | with_reducible (apply Follows.ite_fst)
    | with_reducible (apply putSched_follows)
    | with_reducible (apply updQrec_follows)
    | with_reducible (apply Follows.foldl)
    | split
    | (refine Follows.of_fst (by assumption) ?_)
    | (refine Follows.of_snd (by assumption) ?_)
    | intro

theorem emptied_follows {a₀ s : State} (r : Follows a₀ s) (inst : Nat) (c : Nat) :
    Follows a₀ (emptied inst c s) := by
  unfold emptied
  try dsimp only
  repeat' first
    | with_reducible (assumption)
    | with_reducible (exact Follows.refl _)
    | with_reducible (apply putSched_follows)

theorem recoverLost_follows {a₀ s : State} (r : Follows a₀ s) (q : QItem) :
    Follows a₀ (recoverLost q s) := by
  unfold recoverLost
  try dsimp only
  repeat' first
    | with_reducible (assumption)
    | with_reducible (exact Follows.refl _)
    | with_reducible (apply updAssoc_follows)
    | with_reducible (apply driveEnds_follows)
    | split

theorem ageItem_follows {a₀ s : State} (r : Follows a₀ s) (q : QItem) :
    Follows a₀ (ageItem s q) := by
  unfold ageItem
  try dsimp only
  repeat' first
    | with_reducible (assumption)
    | with_reducible (exact Follows.refl _)
    | with_reducible (apply updPort_follows)
    | with_reducible (apply recoverLost_follows)
    | with_reducible (apply Follows.onSw)

theorem sentVdt_follows {a₀ s : State} (r : Follows a₀ s) (id : Nat) (seq : Nat) :
    Follows a₀ (sentVdt id seq s) := by
  unfold sentVdt
  try dsimp only
  repeat' first
    | with_reducible (assumption)
    | with_reducible (exact Follows.refl _)
    | with_reducible (apply Follows.ite)
    | with_reducible (apply updAssoc_follows)

theorem depart_follows {a₀ s : State} (r : Follows a₀ s) (q : QItem) :
    Follows a₀ (depart q s) := by
  unfold depart
  try dsimp only
  repeat' first
    | with_reducible (assumption)
    | with_reducible (exact Follows.refl _)
    | with_reducible (apply Follows.ite)
    | with_reducible (apply updPort_follows)
    | with_reducible (apply sentVdt_follows)
    | with_reducible (apply Follows.onSw)
    | with_reducible (apply Follows.onPair)
    | with_reducible rfl
    | rfl
    | exact id
    | exact List.length_modify ..
    | exact List.length_mapIdx ..
    | exact List.length_map ..
    | exact List.length_set ..
    | split

theorem queryAll_follows {a₀ s : State} (r : Follows a₀ s) :
    Follows a₀ (queryAll s) := by
  unfold queryAll
  try dsimp only
  repeat' first
    | with_reducible (assumption)
    | with_reducible (exact Follows.refl _)
    | with_reducible (apply sendWitness_follows)
    | with_reducible (apply Follows.foldl)
    | split
    | (refine Follows.of_fst (by assumption) ?_)
    | (refine Follows.of_snd (by assumption) ?_)
    | intro

theorem noteWitness_follows {a₀ s : State} (r : Follows a₀ s) (m : WMsg) (holder : Nat) :
    Follows a₀ (noteWitness m holder s) := by
  unfold noteWitness
  try dsimp only
  repeat' first
    | with_reducible (assumption)
    | with_reducible (exact Follows.refl _)
    | with_reducible (apply updLease_follows)
    | with_reducible (apply Follows.onPair)
    | with_reducible rfl

theorem answered_follows {a₀ s : State} (r : Follows a₀ s) (arr : Nat) (echo : Nat) :
    Follows a₀ (answered arr echo s) := by
  unfold answered
  try dsimp only
  repeat' first
    | with_reducible (assumption)
    | with_reducible (exact Follows.refl _)
    | with_reducible (apply Follows.onPair)
    | with_reducible rfl

theorem renewTies_follows {a₀ s : State} (r : Follows a₀ s) :
    Follows a₀ (renewTies s) := by
  unfold renewTies
  try dsimp only
  repeat' first
    | with_reducible (assumption)
    | with_reducible (exact Follows.refl _)
    | with_reducible (apply sendWitness_follows)
    | with_reducible (apply Follows.foldl)
    | split
    | (refine Follows.of_fst (by assumption) ?_)
    | (refine Follows.of_snd (by assumption) ?_)
    | intro

theorem carryBack_follows {a₀ s : State} (r : Follows a₀ s) (m : WMsg) :
    Follows a₀ (carryBack m s) := by
  unfold carryBack
  try dsimp only
  repeat' first
    | with_reducible (assumption)
    | with_reducible (exact Follows.refl _)
    | with_reducible (apply Follows.ite)
    | with_reducible (apply sendYarn_follows)
    | with_reducible (apply Follows.onPair)
    | with_reducible rfl

theorem granted_follows {a₀ s : State} (r : Follows a₀ s) (m : WMsg) :
    Follows a₀ (granted m s) := by
  unfold granted
  try dsimp only
  repeat' first
    | with_reducible (assumption)
    | with_reducible (exact Follows.refl _)
    | with_reducible (apply Follows.ite)
    | with_reducible (apply updLease_follows)
    | with_reducible (apply sendWitness_follows)
    | with_reducible (apply putEpoch_follows)
    | with_reducible (apply gainLease_follows)
    | with_reducible (apply handDone_follows)
    | with_reducible (apply answered_follows)
    | split

theorem settleRecord_follows {a₀ s : State} (r : Follows a₀ s) (arr : Nat) (holder : Nat) (epoch : Nat) :
    Follows a₀ (settleRecord arr holder epoch s) := by
  unfold settleRecord
  try dsimp only
  repeat' first
    | with_reducible (assumption)
    | with_reducible (exact Follows.refl _)
    | with_reducible (apply Follows.ite)
    | with_reducible (apply updLease_follows)
    | with_reducible (apply claim_follows)
    | with_reducible (apply Follows.onPair)
    | with_reducible rfl
    | rfl
    | exact id
    | exact List.length_modify ..
    | exact List.length_mapIdx ..
    | exact List.length_map ..
    | exact List.length_set ..
    | split

theorem isolate_follows {a₀ s : State} (r : Follows a₀ s) :
    Follows a₀ (isolate s) := by
  unfold isolate
  try dsimp only
  repeat' first
    | with_reducible (assumption)
    | with_reducible (exact Follows.refl _)
    | with_reducible (apply Follows.ite)
    | with_reducible (apply endProof_follows)
    | with_reducible (apply Follows.onMd)
    | with_reducible (apply Follows.onPair)
    | with_reducible rfl
    | rfl
    | exact id
    | exact List.length_modify ..
    | exact List.length_mapIdx ..

end Sys2Proof.Machine
end

