-- ==== Sys2Proof/Laws/Ops5.lean ====
section
/-! SUPPORT. What each shared operation keeps, from takePool to engineRecall. -/

namespace Sys2Proof.Machine

theorem takePool_follows {a₀ s : State} (r : Follows a₀ s) :
    Follows a₀ (takePool s) := by
  unfold takePool
  try dsimp only
  repeat' first
    | with_reducible (assumption)
    | with_reducible (exact Follows.refl _)
    | with_reducible (apply Follows.ite)
    | with_reducible (apply Follows.onCfg)

theorem enterSolo_follows {a₀ s : State} (r : Follows a₀ s) :
    Follows a₀ (enterSolo s) := by
  unfold enterSolo
  try dsimp only
  repeat' first
    | with_reducible (assumption)
    | with_reducible (exact Follows.refl _)
    | with_reducible (apply Follows.ite)
    | with_reducible (apply orderAll_follows)
    | with_reducible (apply queryAll_follows)
    | with_reducible (apply Follows.onMd)
    | with_reducible (apply Follows.onPair)
    | with_reducible rfl

theorem bootEnd_follows {a₀ s : State} (r : Follows a₀ s) (fromBoot : Bool) :
    Follows a₀ (bootEnd fromBoot s) := by
  unfold bootEnd
  try dsimp only
  repeat' first
    | with_reducible (assumption)
    | with_reducible (exact Follows.refl _)
    | with_reducible (apply Follows.ite)
    | with_reducible (apply enterCastOn_follows)
    | with_reducible (apply queryAll_follows)
    | with_reducible (apply takePool_follows)
    | with_reducible (apply enterSolo_follows)
    | with_reducible (apply Follows.onMd)
    | with_reducible (apply Follows.onPair)
    | with_reducible rfl

theorem jointYield_follows {a₀ s : State} (r : Follows a₀ s) :
    Follows a₀ (jointYield s) := by
  unfold jointYield
  try dsimp only
  repeat' first
    | with_reducible (assumption)
    | with_reducible (exact Follows.refl _)
    | with_reducible (apply Follows.ite)
    | with_reducible (apply sendYarn_follows)
    | with_reducible (apply enterCastOn_follows)
    | with_reducible (apply releaseLeases_follows)
    | with_reducible (apply takePool_follows)

theorem resendStitch_follows {a₀ s : State} (r : Follows a₀ s) (link : Nat) (x : Stitch) :
    Follows a₀ (resendStitch link s x) := by
  unfold resendStitch
  try dsimp only
  repeat' first
    | with_reducible (assumption)
    | with_reducible (exact Follows.refl _)
    | with_reducible (apply enqueue_follows)
    | with_reducible (apply Follows.onPair)
    | with_reducible rfl

theorem holdover_follows {a₀ s : State} (r : Follows a₀ s) :
    Follows a₀ (holdover s) := by
  unfold holdover
  try dsimp only
  repeat' first
    | with_reducible (assumption)
    | with_reducible (exact Follows.refl _)
    | with_reducible (apply Follows.ite)
    | with_reducible (apply Follows.onTime)
    | with_reducible rfl

theorem yarnLost_follows {a₀ s : State} (r : Follows a₀ s) :
    Follows a₀ (yarnLost s) := by
  unfold yarnLost
  try dsimp only
  repeat' first
    | with_reducible (assumption)
    | with_reducible (exact Follows.refl _)
    | with_reducible (apply Follows.ite)
    | with_reducible (apply updCmd_follows)
    | with_reducible (apply endProposals_follows)
    | with_reducible (apply forwardCmd_follows)
    | with_reducible (apply claim_follows)
    | with_reducible (apply loseShadow_follows)
    | with_reducible (apply adoptAdmin_follows)
    | with_reducible (apply checkSolo_follows)
    | with_reducible (apply handFailed_follows)
    | with_reducible (apply isolate_follows)
    | with_reducible (apply enterSolo_follows)
    | with_reducible (apply bootEnd_follows)
    | with_reducible (apply holdover_follows)
    | with_reducible (apply Follows.onSw)
    | with_reducible (apply Follows.onPair)
    | with_reducible (apply Follows.foldl)
    | with_reducible rfl
    | rfl
    | exact id
    | exact List.length_modify ..
    | exact List.length_mapIdx ..
    | exact List.length_map ..
    | exact List.length_set ..
    | (intro hc; simpa [Dbg.Canonical] using hc)
    | split
    | (refine Follows.of_fst (by assumption) ?_)
    | (refine Follows.of_snd (by assumption) ?_)
    | intro

theorem yarnReturned_follows {a₀ s : State} (r : Follows a₀ s) :
    Follows a₀ (yarnReturned s) := by
  unfold yarnReturned
  try dsimp only
  repeat' first
    | with_reducible (assumption)
    | with_reducible (exact Follows.refl _)
    | with_reducible (apply Follows.ite)
    | with_reducible (apply enterCastOn_follows)
    | with_reducible (apply queryAll_follows)
    | with_reducible (apply Follows.onPair)
    | with_reducible rfl

theorem partnerLeft_follows {a₀ s : State} (r : Follows a₀ s) :
    Follows a₀ (partnerLeft s) := by
  unfold partnerLeft
  try dsimp only
  repeat' first
    | with_reducible (assumption)
    | with_reducible (exact Follows.refl _)
    | with_reducible (apply Follows.ite)
    | with_reducible (apply endProposals_follows)
    | with_reducible (apply orderAll_follows)
    | with_reducible (apply claim_follows)
    | with_reducible (apply loseShadow_follows)
    | with_reducible (apply adoptAdmin_follows)
    | with_reducible (apply holdover_follows)
    | with_reducible (apply Follows.onPair)
    | with_reducible (apply Follows.foldl)
    | with_reducible rfl
    | rfl
    | exact id
    | exact List.length_modify ..
    | exact List.length_mapIdx ..
    | exact List.length_map ..
    | exact List.length_set ..
    | split
    | (refine Follows.of_fst (by assumption) ?_)
    | (refine Follows.of_snd (by assumption) ?_)
    | intro

theorem saveSnapshot_follows {a₀ s : State} (r : Follows a₀ s) (k : Nat) (mine : Nat) (theirs : Nat) (l : List (Nat × Resp)) :
    Follows a₀ (saveSnapshot k mine theirs l s) := by
  unfold saveSnapshot
  try dsimp only
  repeat' first
    | with_reducible (assumption)
    | with_reducible (exact Follows.refl _)
    | with_reducible (apply Follows.ite)
    | with_reducible (apply fwEvent_follows)
    | with_reducible (apply Follows.onPair)
    | with_reducible (apply Follows.foldl)
    | with_reducible rfl
    | rfl
    | exact id
    | exact List.length_modify ..
    | exact List.length_mapIdx ..
    | exact List.length_map ..
    | exact List.length_set ..
    | (intro hc; simpa [Dbg.Canonical] using hc)
    | split
    | (refine Follows.of_fst (by assumption) ?_)
    | (refine Follows.of_snd (by assumption) ?_)
    | intro

theorem compareDigest_follows {a₀ s : State} (r : Follows a₀ s) (d : Nat × Nat) :
    Follows a₀ (compareDigest s d) := by
  unfold compareDigest
  try dsimp only
  repeat' first
    | with_reducible (assumption)
    | with_reducible (exact Follows.refl _)
    | with_reducible (apply Follows.ite)
    | with_reducible (apply sendYarn_follows)
    | with_reducible (apply loseShadow_follows)
    | with_reducible (apply pairFault_follows)
    | with_reducible (apply saveSnapshot_follows)
    | with_reducible (apply Follows.onPair)
    | with_reducible rfl

theorem checkDigests_follows {a₀ s : State} (r : Follows a₀ s) :
    Follows a₀ (checkDigests s) := by
  unfold checkDigests
  try dsimp only
  repeat' first
    | with_reducible (assumption)
    | with_reducible (exact Follows.refl _)
    | with_reducible (apply compareDigest_follows)
    | with_reducible (apply Follows.foldl)
    | split
    | (refine Follows.of_fst (by assumption) ?_)
    | (refine Follows.of_snd (by assumption) ?_)
    | intro

theorem takeRtt_follows {a₀ s : State} (r : Follows a₀ s) (num : Nat) :
    Follows a₀ (takeRtt num s) := by
  unfold takeRtt
  try dsimp only
  repeat' first
    | with_reducible (assumption)
    | with_reducible (exact Follows.refl _)
    | with_reducible (apply Follows.onTime)
    | with_reducible (apply Follows.onPair)
    | with_reducible (apply Follows.foldl)
    | with_reducible rfl
    | rfl
    | exact id
    | exact List.length_modify ..
    | exact List.length_mapIdx ..
    | exact List.length_map ..
    | exact List.length_set ..
    | split

theorem sendForward_follows {a₀ s : State} (r : Follows a₀ s) (a : Assoc) (c : Cmd) :
    Follows a₀ (sendForward a c s) := by
  unfold sendForward
  try dsimp only
  repeat' first
    | with_reducible (assumption)
    | with_reducible (exact Follows.refl _)
    | with_reducible (apply Follows.ite)
    | with_reducible (apply sendYarn_follows)

theorem bayDown_follows {a₀ s : State} (r : Follows a₀ s) (bay : Nat) (power : Bool) :
    Follows a₀ (bayDown bay power s) := by
  unfold bayDown
  try dsimp only
  repeat' first
    | with_reducible (assumption)
    | with_reducible (exact Follows.refl _)
    | with_reducible (apply updDrive_follows)
    | with_reducible (apply endDcs_follows)
    | with_reducible (apply Follows.onIo)

theorem gateOff_follows {a₀ s : State} (r : Follows a₀ s) (bay : Nat) :
    Follows a₀ (gateOff bay s) := by
  unfold gateOff
  try dsimp only
  repeat' first
    | with_reducible (assumption)
    | with_reducible (exact Follows.refl _)
    | with_reducible (apply updChan_follows)
    | exact (fun _ h => h)
    | exact (fun _ _ (h : true = false) => Bool.noConfusion h)
    | exact (fun _ _ _ => rfl)
    | with_reducible (apply bayDown_follows)

theorem startRamp_follows {a₀ s : State} (r : Follows a₀ s) (bay : Nat) :
    Follows a₀ (startRamp bay s) := by
  unfold startRamp
  try dsimp only
  repeat' first
    | with_reducible (assumption)
    | with_reducible (exact Follows.refl _)
    | with_reducible (apply updChan_follows)
    | exact (fun _ h => h)
    | exact (fun _ _ (h : true = false) => Bool.noConfusion h)

theorem trip_follows {a₀ s : State} (r : Follows a₀ s) (bay : Nat) (cause : Nat) :
    Follows a₀ (trip bay cause s) := by
  unfold trip
  try dsimp only
  repeat' first
    | with_reducible (assumption)
    | with_reducible (exact Follows.refl _)
    | with_reducible (apply Follows.ite)
    | with_reducible (apply updChan_follows)
    | exact (fun _ h => h)
    | exact (fun _ _ (h : true = false) => Bool.noConfusion h)
    | exact (fun _ _ _ => rfl)
    | with_reducible (apply fwEvent_follows)
    | with_reducible (apply failBay_follows)
    | with_reducible (apply gateOff_follows)
    | with_reducible (apply Follows.onBays)
    | exact Bays.Powered.same rfl
    | with_reducible rfl

theorem placeState_follows {a₀ s : State} (r : Follows a₀ s) (again : Bool) (bay : Nat) :
    Follows a₀ (placeState again bay s) := by
  unfold placeState
  try dsimp only
  repeat' first
    | with_reducible (assumption)
    | with_reducible (exact Follows.refl _)
    | with_reducible (apply Follows.ite)
    | with_reducible (apply issueDc_follows)
    | split

theorem applyStates_follows {a₀ s : State} (r : Follows a₀ s) :
    Follows a₀ (applyStates s) := by
  unfold applyStates
  try dsimp only
  repeat' first
    | with_reducible (assumption)
    | with_reducible (exact Follows.refl _)
    | with_reducible (apply Follows.ite)
    | with_reducible (apply placeState_follows)
    | with_reducible (apply Follows.onBays)
    | exact Bays.Powered.same rfl
    | (refine Bays.Powered.mapIdx ?_ rfl; exact fun _ _ h => h)
    | with_reducible (apply Follows.foldl)
    | with_reducible rfl
    | rfl
    | exact id
    | exact List.length_modify ..
    | exact List.length_mapIdx ..
    | exact List.length_map ..
    | exact List.length_set ..
    | split
    | (refine Follows.of_fst (by assumption) ?_)
    | (refine Follows.of_snd (by assumption) ?_)
    | intro

theorem setBudgetOver_follows {a₀ s : State} (r : Follows a₀ s) (x : Bool) :
    Follows a₀ (setBudgetOver x s) := by
  unfold setBudgetOver
  try dsimp only
  repeat' first
    | with_reducible (assumption)
    | with_reducible (exact Follows.refl _)
    | with_reducible (apply Follows.ite)
    | with_reducible (apply alarmEvent_follows)
    | with_reducible (apply Follows.onBays)
    | exact Bays.Powered.same rfl
    | with_reducible rfl

theorem rebudget_follows {a₀ s : State} (r : Follows a₀ s) :
    Follows a₀ (rebudget s) := by
  unfold rebudget
  repeat' first
    | with_reducible (assumption)
    | with_reducible (exact Follows.refl _)
    | (lift_lets; intro x; clear_value x)
    | dsimp only [x]
    | with_reducible (apply Follows.ite)
    | with_reducible (apply updChan_follows)
    | exact (fun _ h => h)
    | exact (fun _ _ (h : true = false) => Bool.noConfusion h)
    | exact (fun _ _ _ => rfl)
    | with_reducible (apply gateOff_follows)
    | with_reducible (apply startRamp_follows)
    | with_reducible (apply applyStates_follows)
    | with_reducible (apply setBudgetOver_follows)
    | with_reducible (apply Follows.foldl)
    | split
    | (refine Follows.of_fst (by assumption) ?_)
    | (refine Follows.of_snd (by assumption) ?_)
    | intro

theorem newBudget_follows {a₀ s : State} (r : Follows a₀ s) (b : Int) :
    Follows a₀ (newBudget b s) := by
  unfold newBudget
  try dsimp only
  repeat' first
    | with_reducible (assumption)
    | with_reducible (exact Follows.refl _)
    | with_reducible (apply Follows.ite)
    | with_reducible (apply rebudget_follows)
    | with_reducible (apply Follows.onBays)
    | exact Bays.Powered.same rfl
    | with_reducible rfl

theorem refreshBudget_follows {a₀ s : State} (r : Follows a₀ s) :
    Follows a₀ (refreshBudget s) := by
  unfold refreshBudget
  try dsimp only
  repeat' first
    | with_reducible (assumption)
    | with_reducible (exact Follows.refl _)
    | with_reducible (apply Follows.ite)
    | with_reducible (apply issueStitch_follows)
    | with_reducible (apply newBudget_follows)
    | with_reducible (apply Follows.onBays)
    | exact Bays.Powered.same rfl
    | with_reducible rfl

theorem removalPrepare_follows {a₀ s : State} (r : Follows a₀ s) (bay : Nat) :
    Follows a₀ (removalPrepare bay s) := by
  unfold removalPrepare
  try dsimp only
  repeat' first
    | with_reducible (assumption)
    | with_reducible (exact Follows.refl _)
    | with_reducible (apply Follows.ite)
    | with_reducible (apply updChan_follows)
    | exact (fun _ h => h)

theorem removalConfirm_follows {a₀ s : State} (r : Follows a₀ s) (bay : Nat) :
    Follows a₀ (removalConfirm bay s) := by
  unfold removalConfirm
  try dsimp only
  repeat' first
    | with_reducible (assumption)
    | with_reducible (exact Follows.refl _)
    | with_reducible (apply Follows.ite)
    | with_reducible (apply updChan_follows)
    | exact (fun _ h => h)
    | exact (fun _ _ (h : true = false) => Bool.noConfusion h)
    | exact (fun _ _ _ => rfl)
    | with_reducible (apply absentMember_follows)
    | with_reducible (apply endDcs_follows)
    | with_reducible (apply removalFlush_follows)
    | split

theorem removalCancel_follows {a₀ s : State} (r : Follows a₀ s) (bay : Nat) :
    Follows a₀ (removalCancel bay s) := by
  unfold removalCancel
  try dsimp only
  repeat' first
    | with_reducible (assumption)
    | with_reducible (exact Follows.refl _)
    | with_reducible (apply Follows.ite)
    | with_reducible (apply updChan_follows)
    | exact (fun _ h => h)
    | exact (fun _ _ (h : true = false) => Bool.noConfusion h)
    | exact (fun _ _ _ => rfl)
    | with_reducible (apply startRamp_follows)

theorem portDown_follows {a₀ s : State} (r : Follows a₀ s) (port : Nat) :
    Follows a₀ (portDown port s) := by
  unfold portDown
  try dsimp only
  repeat' first
    | with_reducible (assumption)
    | with_reducible (exact Follows.refl _)
    | with_reducible (apply Follows.ite)
    | with_reducible (apply Follows.onSw)

theorem resumeService_follows {a₀ s : State} (r : Follows a₀ s) :
    Follows a₀ (resumeService s) := by
  unfold resumeService
  try dsimp only
  repeat' first
    | with_reducible (assumption)
    | with_reducible (exact Follows.refl _)
    | with_reducible (apply startRead_follows)
    | with_reducible (apply orderAll_follows)
    | with_reducible (apply startHeld_follows)
    | with_reducible (apply rebudget_follows)
    | with_reducible (apply Follows.onBays)
    | exact Bays.Powered.same rfl
    | with_reducible (apply Follows.foldl)
    | with_reducible rfl
    | rfl
    | exact id
    | exact List.length_modify ..
    | exact List.length_mapIdx ..
    | exact List.length_map ..
    | exact List.length_set ..
    | split
    | (refine Follows.of_fst (by assumption) ?_)
    | (refine Follows.of_snd (by assumption) ?_)
    | intro

theorem powerOff_follows {a₀ s : State} (r : Follows a₀ s) :
    Follows a₀ (powerOff s) := by
  unfold powerOff
  try dsimp only
  repeat' first
    | with_reducible (assumption)
    | with_reducible (exact Follows.refl _)
    | with_reducible (apply Follows.ite)
    | with_reducible (apply moduleReset_follows)
    | with_reducible (apply Follows.onTime)
    | with_reducible (apply Follows.onMd)
    | with_reducible (apply Follows.onIo)
    | with_reducible (apply Follows.onMbx)
    | with_reducible (apply Follows.onParts)
    | with_reducible (apply Follows.onBays)
    | exact Bays.Powered.same rfl
    | (refine Bays.Powered.map ?_ rfl; exact fun _ _ (h : true = false) => Bool.noConfusion h)
    | with_reducible (apply Follows.onDbg)
    | with_reducible rfl
    | rfl
    | exact id
    | exact List.length_modify ..
    | exact List.length_mapIdx ..
    | exact List.length_map ..
    | exact List.length_set ..
    | (intro _; refine ⟨rfl, rfl, fun c hc => ?_⟩; obtain ⟨_, _, rfl⟩ := List.mem_map.mp hc; rfl)

theorem putHoldUpTime_follows {a₀ s : State} (r : Follows a₀ s) (ns : Nat) :
    Follows a₀ (putHoldUpTime ns s) := by
  unfold putHoldUpTime
  try dsimp only
  repeat' first
    | with_reducible (assumption)
    | with_reducible (exact Follows.refl _)
    | with_reducible (apply startHeld_follows)
    | with_reducible (apply Follows.onIo)
    | with_reducible (apply Follows.onBays)
    | exact Bays.Powered.same rfl
    | with_reducible rfl

theorem stepTime_follows {a₀ s : State} (r : Follows a₀ s) (amount : Int) :
    Follows a₀ (stepTime amount s) := by
  unfold stepTime
  try dsimp only
  repeat' first
    | with_reducible (assumption)
    | with_reducible (exact Follows.refl _)
    | with_reducible (apply Follows.ite)
    | with_reducible (apply Follows.onTime)
    | with_reducible (apply Follows.onSw)
    | with_reducible rfl

theorem setUtc_follows {a₀ s : State} (r : Follows a₀ s) (new : Int) :
    Follows a₀ (setUtc new s) := by
  unfold setUtc
  try dsimp only
  repeat' first
    | with_reducible (assumption)
    | with_reducible (exact Follows.refl _)
    | with_reducible (apply Follows.ite)
    | with_reducible (apply putSetting_follows)
    | with_reducible (apply fwEvent_follows)

theorem ptpStep_follows {a₀ s : State} (r : Follows a₀ s) (amount : Int) :
    Follows a₀ (ptpStep amount s) := by
  unfold ptpStep
  try dsimp only
  repeat' first
    | with_reducible (assumption)
    | with_reducible (exact Follows.refl _)
    | with_reducible (apply Follows.ite)
    | with_reducible (apply auditPush_follows)
    | with_reducible (apply issueStitch_follows)
    | with_reducible (apply stepTime_follows)

theorem stitchPs_follows {a₀ s : State} (r : Follows a₀ s) (ps : Nat) :
    Follows a₀ (stitchPs ps s) := by
  unfold stitchPs
  try dsimp only
  repeat' first
    | with_reducible (assumption)
    | with_reducible (exact Follows.refl _)
    | with_reducible (apply Follows.ite)
    | with_reducible (apply issueStitch_follows)

theorem answerPs_follows {a₀ s : State} (r : Follows a₀ s) (code : Nat) :
    Follows a₀ (answerPs code s) := by
  unfold answerPs
  try dsimp only
  repeat' first
    | with_reducible (assumption)
    | with_reducible (exact Follows.refl _)
    | with_reducible (apply answerSlot_follows)
    | with_reducible (apply Follows.onMd)
    | split

theorem gatePlanes_follows {a₀ s : State} (r : Follows a₀ s) (k : Nat) :
    Follows a₀ (gatePlanes k s) := by
  unfold gatePlanes
  try dsimp only
  repeat' first
    | with_reducible (assumption)
    | with_reducible (exact Follows.refl _)
    | with_reducible (apply Follows.onSw)

theorem enterPs1_follows {a₀ s : State} (r : Follows a₀ s) (idle : List Nat) :
    Follows a₀ (enterPs1 idle s) := by
  unfold enterPs1
  try dsimp only
  repeat' first
    | with_reducible (assumption)
    | with_reducible (exact Follows.refl _)
    | with_reducible (apply cancelTests_follows)
    | with_reducible (apply answerPs_follows)
    | with_reducible (apply gatePlanes_follows)
    | with_reducible (apply Follows.onMd)

theorem beginPs2_follows {a₀ s : State} (r : Follows a₀ s) :
    Follows a₀ (beginPs2 s) := by
  unfold beginPs2
  try dsimp only
  repeat' first
    | with_reducible (assumption)
    | with_reducible (exact Follows.refl _)
    | with_reducible (apply cancelTests_follows)
    | with_reducible (apply gatePlanes_follows)
    | with_reducible (apply Follows.onMd)

theorem exitPs_follows {a₀ s : State} (r : Follows a₀ s) :
    Follows a₀ (exitPs s) := by
  unfold exitPs
  try dsimp only
  repeat' first
    | with_reducible (assumption)
    | with_reducible (exact Follows.refl _)
    | with_reducible (apply Follows.ite)
    | with_reducible (apply startHeld_follows)
    | with_reducible (apply applyStates_follows)
    | with_reducible (apply answerPs_follows)
    | with_reducible (apply gatePlanes_follows)
    | with_reducible (apply Follows.onMd)

theorem requestPs2_follows {a₀ s : State} (r : Follows a₀ s) (mb : Option (Nat × Nat)) :
    Follows a₀ (requestPs2 mb s) := by
  unfold requestPs2
  try dsimp only
  repeat' first
    | with_reducible (assumption)
    | with_reducible (exact Follows.refl _)
    | with_reducible (apply Follows.ite)
    | with_reducible (apply stitchPs_follows)
    | with_reducible (apply beginPs2_follows)
    | with_reducible (apply Follows.onMd)

theorem beginBoot_follows {a₀ s : State} (r : Follows a₀ s) (kind : Nat) :
    Follows a₀ (beginBoot kind s) := by
  unfold beginBoot
  try dsimp only
  repeat' first
    | with_reducible (assumption)
    | with_reducible (exact Follows.refl _)
    | with_reducible (apply Follows.onMd)

theorem configLost_follows {a₀ s : State} (r : Follows a₀ s) :
    Follows a₀ (configLost s) := by
  unfold configLost
  try dsimp only
  repeat' first
    | with_reducible (assumption)
    | with_reducible (exact Follows.refl _)
    | with_reducible (apply fwEvent_follows)
    | with_reducible (apply Follows.onCfg)
    | with_reducible (apply Follows.onBays)
    | exact Bays.Powered.same rfl
    | with_reducible rfl

theorem dropBadRuns_follows {a₀ s : State} (r : Follows a₀ s) (bad : List Nat) :
    Follows a₀ (dropBadRuns bad s) := by
  unfold dropBadRuns
  try dsimp only
  repeat' first
    | with_reducible (assumption)
    | with_reducible (exact Follows.refl _)
    | with_reducible (apply recordDwe_follows)
    | with_reducible (apply Follows.onIo)
    | with_reducible (apply Follows.foldl)
    | split
    | (refine Follows.of_fst (by assumption) ?_)
    | (refine Follows.of_snd (by assumption) ?_)
    | intro

theorem reloadRun_follows {a₀ s : State} (r : Follows a₀ s) (r : DumpRun) :
    Follows a₀ (reloadRun s r) := by
  unfold reloadRun
  try dsimp only
  repeat' first
    | with_reducible (assumption)
    | with_reducible (exact Follows.refl _)
    | with_reducible (apply Follows.onIo)

theorem reloadDump_follows {a₀ s : State} (r : Follows a₀ s) (bad : List Nat) :
    Follows a₀ (reloadDump bad s) := by
  unfold reloadDump
  try dsimp only
  repeat' first
    | with_reducible (assumption)
    | with_reducible (exact Follows.refl _)
    | with_reducible (apply Follows.ite)
    | with_reducible (apply recordDwe_follows)
    | with_reducible (apply reloadRun_follows)
    | with_reducible (apply Follows.onBays)
    | exact Bays.Powered.same rfl
    | with_reducible (apply Follows.foldl)
    | with_reducible rfl
    | rfl
    | exact id
    | exact List.length_modify ..
    | exact List.length_mapIdx ..
    | exact List.length_map ..
    | exact List.length_set ..
    | (intro hc; simpa [Dbg.Canonical] using hc)
    | split
    | (refine Follows.of_fst (by assumption) ?_)
    | (refine Follows.of_snd (by assumption) ?_)
    | intro

theorem unionBitmaps_follows {a₀ s : State} (r : Follows a₀ s) (bitmaps : List (Nat × List Nat)) :
    Follows a₀ (unionBitmaps bitmaps s) := by
  unfold unionBitmaps
  try dsimp only
  repeat' first
    | with_reducible (assumption)
    | with_reducible (exact Follows.refl _)
    | with_reducible (apply Follows.onIo)

theorem placeMembers_follows {a₀ s : State} (r : Follows a₀ s) :
    Follows a₀ (placeMembers s) := by
  unfold placeMembers
  try dsimp only
  repeat' first
    | with_reducible (assumption)
    | with_reducible (exact Follows.refl _)
    | with_reducible (apply Follows.ite)
    | with_reducible (apply Follows.onIo)

theorem dropMissing_follows {a₀ s : State} (r : Follows a₀ s) :
    Follows a₀ (dropMissing s) := by
  unfold dropMissing
  try dsimp only
  repeat' first
    | with_reducible (assumption)
    | with_reducible (exact Follows.refl _)
    | with_reducible (apply Follows.ite)
    | with_reducible (apply updArr_follows)
    | with_reducible (apply absentMember_follows)
    | with_reducible (apply Follows.foldl)
    | split
    | (refine Follows.of_fst (by assumption) ?_)
    | (refine Follows.of_snd (by assumption) ?_)
    | intro

theorem remakeMedia_follows {a₀ s : State} (r : Follows a₀ s) :
    Follows a₀ (remakeMedia s) := by
  unfold remakeMedia
  try dsimp only
  repeat' first
    | with_reducible (assumption)
    | with_reducible (exact Follows.refl _)
    | with_reducible (apply Follows.ite)
    | with_reducible (apply superblockNow_follows)
    | with_reducible (apply relabel_follows)
    | with_reducible (apply finishClose_follows)
    | with_reducible (apply Follows.foldl)
    | split
    | (refine Follows.of_fst (by assumption) ?_)
    | (refine Follows.of_snd (by assumption) ?_)
    | intro

theorem enterStandby_follows {a₀ s : State} (r : Follows a₀ s) :
    Follows a₀ (enterStandby s) := by
  have h := powerOff_follows r
  exact ⟨h.pending, r.now, h.free, h.chans, h.drives, h.leases, h.cores, h.audit, h.memories, h.sequence, h.perst⟩

theorem protectReset_follows {a₀ s : State} (r : Follows a₀ s) (why : Nat) :
    Follows a₀ (protectReset why s) := by
  unfold protectReset
  try dsimp only
  repeat' first
    | with_reducible (assumption)
    | with_reducible (exact Follows.refl _)
    | with_reducible (apply Follows.ite)
    | with_reducible (apply fwEvent_follows)
    | with_reducible (apply moduleReset_follows)
    | with_reducible (apply Follows.onMd)

theorem stopDump_follows {a₀ s : State} (r : Follows a₀ s) :
    Follows a₀ (stopDump s) := by
  unfold stopDump
  try dsimp only
  repeat' first
    | with_reducible (assumption)
    | with_reducible (exact Follows.refl _)
    | with_reducible (apply Follows.ite)
    | with_reducible (apply Follows.onBays)
    | exact Bays.Powered.same rfl
    | with_reducible rfl
    | rfl
    | exact id
    | exact List.length_modify ..
    | exact List.length_mapIdx ..
    | exact List.length_map ..
    | exact List.length_set ..
    | split

theorem rewriteLane_follows {a₀ s : State} (r : Follows a₀ s) (n : Nat) :
    Follows a₀ (rewriteLane n s) := by
  unfold rewriteLane
  try dsimp only
  repeat' first
    | with_reducible (assumption)
    | with_reducible (exact Follows.refl _)
    | with_reducible (apply Follows.ite)
    | with_reducible (apply updParser_follows)
    | with_reducible (apply Follows.foldl)
    | split
    | (refine Follows.of_fst (by assumption) ?_)
    | (refine Follows.of_snd (by assumption) ?_)
    | intro

theorem takeOut_follows {a₀ s : State} (r : Follows a₀ s) (cls : Nat) (inst : Nat) (op : Nat) (code : Nat) :
    Follows a₀ (takeOut cls inst op code s) := by
  unfold takeOut
  try dsimp only
  repeat' first
    | with_reducible (assumption)
    | with_reducible (exact Follows.refl _)
    | with_reducible (apply Follows.ite)
    | with_reducible (apply updPart_follows)
    | with_reducible (apply resendStitch_follows)
    | with_reducible (apply rewriteLane_follows)
    | with_reducible (apply Follows.onSw)
    | with_reducible (apply Follows.onPair)
    | with_reducible (apply Follows.foldl)
    | with_reducible rfl
    | rfl
    | exact id
    | exact List.length_modify ..
    | exact List.length_mapIdx ..
    | exact List.length_map ..
    | exact List.length_set ..
    | split
    | (refine Follows.of_fst (by assumption) ?_)
    | (refine Follows.of_snd (by assumption) ?_)
    | intro

theorem partOut_follows {a₀ s : State} (r : Follows a₀ s) (cls : Nat) (inst : Nat) :
    Follows a₀ (partOut cls inst s) := by
  unfold partOut
  try dsimp only
  repeat' first
    | with_reducible (assumption)
    | with_reducible (exact Follows.refl _)
    | with_reducible (apply Follows.ite)
    | with_reducible (apply updPart_follows)
    | with_reducible (apply endOper_follows)
    | split

theorem putBack_follows {a₀ s : State} (r : Follows a₀ s) (cls : Nat) (inst : Nat) (op : Option Nat) :
    Follows a₀ (putBack cls inst op s) := by
  unfold putBack
  try dsimp only
  repeat' first
    | with_reducible (assumption)
    | with_reducible (exact Follows.refl _)
    | with_reducible (apply Follows.ite)
    | with_reducible (apply updPart_follows)
    | with_reducible (apply endOper_follows)
    | with_reducible (apply partReturns_follows)
    | split

theorem recallWork_follows {a₀ s : State} (r : Follows a₀ s) (cls : Nat) (inst : Nat) :
    Follows a₀ (recallWork cls inst s) := by
  unfold recallWork
  try dsimp only
  repeat' first
    | with_reducible (assumption)
    | with_reducible (exact Follows.refl _)
    | with_reducible (apply Follows.ite)
    | with_reducible (apply updDrive_follows)
    | with_reducible (apply reachMatch_follows)
    | with_reducible (apply updCore_follows)
    | with_reducible (apply orphanDc_follows)
    | with_reducible (apply resendStitch_follows)
    | with_reducible (apply yarnLost_follows)
    | with_reducible (apply portDown_follows)
    | with_reducible (apply Follows.onIo)
    | with_reducible (apply Follows.onSw)
    | with_reducible (apply Follows.onPair)
    | with_reducible (apply Follows.foldl)
    | (intro c hc; rfl)
    | with_reducible rfl
    | rfl
    | exact id
    | exact List.length_modify ..
    | exact List.length_mapIdx ..
    | exact List.length_map ..
    | exact List.length_set ..
    | split
    | (refine Follows.of_fst (by assumption) ?_)
    | (refine Follows.of_snd (by assumption) ?_)
    | intro

theorem engineRecall_follows {a₀ s : State} (r : Follows a₀ s) (cls : Nat) (inst : Nat) :
    Follows a₀ (engineRecall cls inst s) := by
  unfold engineRecall
  try dsimp only
  repeat' first
    | with_reducible (assumption)
    | with_reducible (exact Follows.refl _)
    | with_reducible (apply Follows.ite)
    | with_reducible (apply updPart_follows)
    | with_reducible (apply endOper_follows)
    | with_reducible (apply partFails_follows)
    | with_reducible (apply recallWork_follows)
    | split

end Sys2Proof.Machine
end

