-- ==== Sys2Proof/Laws/Ops6.lean ====
section
/-! SUPPORT. What each shared operation keeps, from loseDirty to mbHandover. -/

namespace Sys2Proof.Machine

theorem loseDirty_follows {a₀ s : State} (r : Follows a₀ s) (x : Nat × Nat) :
    Follows a₀ (loseDirty s x) := by
  unfold loseDirty
  try dsimp only
  repeat' first
    | with_reducible (assumption)
    | with_reducible (exact Follows.refl _)
    | with_reducible (apply Follows.ite)
    | with_reducible (apply loseBlocks_follows)
    | with_reducible (apply strike_follows)
    | with_reducible (apply Follows.onIo)
    | split

theorem requestHandover_follows {a₀ s : State} (r : Follows a₀ s) (arr : Nat) :
    Follows a₀ (requestHandover arr s) := by
  unfold requestHandover
  try dsimp only
  repeat' first
    | with_reducible (assumption)
    | with_reducible (exact Follows.refl _)
    | with_reducible (apply putWitness_follows)
    | with_reducible (apply sendWitness_follows)
    | with_reducible (apply Follows.onPair)
    | with_reducible rfl
    | rfl
    | exact id
    | exact List.length_modify ..
    | exact List.length_mapIdx ..
    | exact List.length_map ..
    | exact List.length_set ..
    | split

theorem startProof_follows {a₀ s : State} (r : Follows a₀ s) (op : Option Nat) :
    Follows a₀ (startProof op s) := by
  unfold startProof
  try dsimp only
  repeat' first
    | with_reducible (assumption)
    | with_reducible (exact Follows.refl _)
    | with_reducible (apply Follows.onPair)
    | with_reducible rfl

theorem refuse_follows {a₀ s : State} (r : Follows a₀ s) (code : Nat) (off : Nat) :
    Follows a₀ (refuse code off s).1 := by
  unfold refuse
  try dsimp only
  repeat' first
    | with_reducible (assumption)

theorem done_follows {a₀ s : State} (r : Follows a₀ s) (payload : List Nat) :
    Follows a₀ (done payload s).1 := by
  unfold done
  try dsimp only
  repeat' first
    | with_reducible (assumption)

theorem startOper_follows {a₀ s : State} (r : Follows a₀ s) (x : MbCtx) (opcode : Nat) (obj : Nat) (f : Nat → State → State) (hf : ∀ (x0 : Nat) (z : State), Follows z (f x0 z)) :
    Follows a₀ (startOper x opcode obj f s).1 := by
  unfold startOper
  try dsimp only
  repeat' first
    | with_reducible (assumption)
    | with_reducible (exact Follows.refl _)
    | with_reducible (apply Follows.ite)
    | with_reducible (apply Follows.ite_fst)
    | with_reducible (apply Follows.cut; (apply hf))
    | with_reducible (apply refuse_follows)
    | with_reducible (apply Follows.onMbx)

theorem mbGetSetting_follows {a₀ s : State} (r : Follows a₀ s) (_x : MbCtx) (sid : Nat) (inst : Nat) :
    Follows a₀ (mbGetSetting _x sid inst s).1 := by
  unfold mbGetSetting
  try dsimp only
  repeat' first
    | with_reducible (assumption)
    | with_reducible (exact Follows.refl _)
    | with_reducible (apply Follows.ite)
    | with_reducible (apply Follows.ite_fst)
    | with_reducible (apply refuse_follows)
    | with_reducible (apply done_follows)
    | split

theorem stageBanks_follows {a₀ s : State} (r : Follows a₀ s) (f : Parser → Parser) (g : Parser → Parser) :
    Follows a₀ (stageBanks f g s) := by
  unfold stageBanks
  try dsimp only
  repeat' first
    | with_reducible (assumption)
    | with_reducible (exact Follows.refl _)
    | with_reducible (apply updParser_follows)
    | with_reducible (apply Follows.foldl)
    | split
    | (refine Follows.of_fst (by assumption) ?_)
    | (refine Follows.of_snd (by assumption) ?_)
    | intro

theorem putInstance_follows {a₀ s : State} (r : Follows a₀ s) (r : SetRow) (v : Int) (n : Nat) :
    Follows a₀ (putInstance r v s n) := by
  unfold putInstance
  try dsimp only
  repeat' first
    | with_reducible (assumption)
    | with_reducible (exact Follows.refl _)
    | with_reducible (apply updAssoc_follows)
    | with_reducible (apply putSetting_follows)
    | with_reducible (apply rebudget_follows)
    | with_reducible (apply stageBanks_follows)
    | split

theorem mbSetSetting_follows {a₀ s : State} (r : Follows a₀ s) (_x : MbCtx) (sid : Nat) (inst : Nat) (v : Int) :
    Follows a₀ (mbSetSetting _x sid inst v s).1 := by
  unfold mbSetSetting
  try dsimp only
  repeat' first
    | with_reducible (assumption)
    | with_reducible (exact Follows.refl _)
    | with_reducible (apply Follows.ite)
    | with_reducible (apply Follows.ite_fst)
    | with_reducible (apply refuse_follows)
    | with_reducible (apply done_follows)
    | with_reducible (apply putInstance_follows)
    | with_reducible (apply Follows.foldl)
    | split
    | (refine Follows.of_fst (by assumption) ?_)
    | (refine Follows.of_snd (by assumption) ?_)
    | intro

theorem mbIdentify_follows {a₀ s : State} (r : Follows a₀ s) (_x : MbCtx) :
    Follows a₀ (mbIdentify _x s).1 := by
  unfold mbIdentify
  try dsimp only
  repeat' first
    | with_reducible (assumption)
    | with_reducible (exact Follows.refl _)
    | with_reducible (apply Follows.ite)
    | with_reducible (apply Follows.ite_fst)
    | with_reducible (apply done_follows)

theorem mbGetAlarms_follows {a₀ s : State} (r : Follows a₀ s) (_x : MbCtx) :
    Follows a₀ (mbGetAlarms _x s).1 := by
  unfold mbGetAlarms
  try dsimp only
  repeat' first
    | with_reducible (assumption)
    | with_reducible (exact Follows.refl _)
    | with_reducible (apply Follows.ite)
    | with_reducible (apply Follows.ite_fst)
    | with_reducible (apply done_follows)

theorem mbClearAlarm_follows {a₀ s : State} (r : Follows a₀ s) (_x : MbCtx) :
    Follows a₀ (mbClearAlarm _x s).1 := by
  unfold mbClearAlarm
  try dsimp only
  repeat' first
    | with_reducible (assumption)
    | with_reducible (exact Follows.refl _)
    | with_reducible (apply done_follows)
    | with_reducible (apply Follows.onCfg)

theorem cancelCopy_follows {a₀ s : State} (r : Follows a₀ s) (op : Nat) :
    Follows a₀ (cancelCopy op s) := by
  unfold cancelCopy
  try dsimp only
  repeat' first
    | with_reducible (assumption)
    | with_reducible (exact Follows.refl _)
    | with_reducible (apply endOper_follows)
    | with_reducible (apply failCopy_follows)

theorem leaveService_follows {a₀ s : State} (r : Follows a₀ s) (req : Nat) (op : Nat) :
    Follows a₀ (leaveService req op s) := by
  unfold leaveService
  try dsimp only
  repeat' first
    | with_reducible (assumption)
    | with_reducible (exact Follows.refl _)
    | with_reducible (apply Follows.ite)
    | with_reducible (apply handAll_follows)
    | with_reducible (apply beginLeave_follows)
    | with_reducible (apply afterHandover_follows)
    | with_reducible (apply cancelCopy_follows)
    | with_reducible (apply Follows.onMd)
    | with_reducible (apply Follows.foldl)
    | split
    | (refine Follows.of_fst (by assumption) ?_)
    | (refine Follows.of_snd (by assumption) ?_)
    | intro

theorem mbChangeMode_follows {a₀ s : State} (r : Follows a₀ s) (x : MbCtx) (req : Nat) :
    Follows a₀ (mbChangeMode x req s).1 := by
  unfold mbChangeMode
  try dsimp only
  repeat' first
    | with_reducible (assumption)
    | with_reducible (exact Follows.refl _)
    | with_reducible (apply Follows.ite)
    | with_reducible (apply Follows.ite_fst)
    | with_reducible (apply endOper_follows)
    | with_reducible (apply bootEnd_follows)
    | with_reducible (apply beginBoot_follows)
    | with_reducible (apply refuse_follows)
    | with_reducible (apply done_follows)
    | with_reducible (apply startOper_follows)
    | with_reducible (apply leaveService_follows)
    | with_reducible (apply Follows.onMd)
    | split
    | (refine Follows.of_fst (by assumption) ?_)
    | (refine Follows.of_snd (by assumption) ?_)
    | intro

theorem mbModuleReset_follows {a₀ s : State} (r : Follows a₀ s) (x : MbCtx) :
    Follows a₀ (mbModuleReset x s).1 := by
  unfold mbModuleReset
  try dsimp only
  repeat' first
    | with_reducible (assumption)
    | with_reducible (exact Follows.refl _)
    | with_reducible (apply Follows.ite)
    | with_reducible (apply Follows.ite_fst)
    | with_reducible (apply refuse_follows)
    | with_reducible (apply done_follows)

theorem mbControllerReset_follows {a₀ s : State} (r : Follows a₀ s) (_x : MbCtx) :
    Follows a₀ (mbControllerReset _x s).1 := by
  unfold mbControllerReset
  try dsimp only
  repeat' first
    | with_reducible (assumption)
    | with_reducible (exact Follows.refl _)
    | with_reducible (apply controllerReset_follows)

theorem mbOperationStatus_follows {a₀ s : State} (r : Follows a₀ s) (_x : MbCtx) (op : Nat) :
    Follows a₀ (mbOperationStatus _x op s).1 := by
  unfold mbOperationStatus
  try dsimp only
  repeat' first
    | with_reducible (assumption)
    | with_reducible (exact Follows.refl _)
    | with_reducible (apply refuse_follows)
    | with_reducible (apply done_follows)
    | split

theorem releaseHeld_follows {a₀ s : State} (r : Follows a₀ s) :
    Follows a₀ (releaseHeld s) := by
  unfold releaseHeld
  try dsimp only
  repeat' first
    | with_reducible (assumption)
    | with_reducible (exact Follows.refl _)
    | with_reducible (apply orderAll_follows)
    | with_reducible (apply startHeld_follows)

theorem mbOperationCancel_follows {a₀ s : State} (r : Follows a₀ s) (_x : MbCtx) (op : Nat) :
    Follows a₀ (mbOperationCancel _x op s).1 := by
  unfold mbOperationCancel
  try dsimp only
  repeat' first
    | with_reducible (assumption)
    | with_reducible (exact Follows.refl _)
    | with_reducible (apply Follows.ite)
    | with_reducible (apply Follows.ite_fst)
    | with_reducible (apply endOper_follows)
    | with_reducible (apply endProof_follows)
    | with_reducible (apply partReturns_follows)
    | with_reducible (apply cancelTest_follows)
    | with_reducible (apply refuse_follows)
    | with_reducible (apply done_follows)
    | with_reducible (apply cancelCopy_follows)
    | with_reducible (apply releaseHeld_follows)
    | with_reducible (apply Follows.onImg)
    | with_reducible (apply Follows.onAudit)
    | with_reducible rfl
    | rfl
    | exact id
    | exact List.length_modify ..
    | exact List.length_mapIdx ..
    | exact List.length_map ..
    | exact List.length_set ..
    | split

theorem mbSetPortAddresses_follows {a₀ s : State} (r : Follows a₀ s) (_x : MbCtx) (port : Nat) (addrs : List Nat) :
    Follows a₀ (mbSetPortAddresses _x port addrs s).1 := by
  unfold mbSetPortAddresses
  try dsimp only
  repeat' first
    | with_reducible (assumption)
    | with_reducible (exact Follows.refl _)
    | with_reducible (apply done_follows)
    | with_reducible (apply Follows.onCfg)

theorem mbWriteIndirectionTable_follows {a₀ s : State} (r : Follows a₀ s) (_x : MbCtx) (mask : Nat) (entries : List Nat) :
    Follows a₀ (mbWriteIndirectionTable _x mask entries s).1 := by
  unfold mbWriteIndirectionTable
  try dsimp only
  repeat' first
    | with_reducible (assumption)
    | with_reducible (exact Follows.refl _)
    | with_reducible (apply Follows.ite)
    | with_reducible (apply Follows.ite_fst)
    | with_reducible (apply updParser_follows)
    | with_reducible (apply refuse_follows)
    | with_reducible (apply done_follows)
    | with_reducible (apply Follows.foldl)
    | split
    | (refine Follows.of_fst (by assumption) ?_)
    | (refine Follows.of_snd (by assumption) ?_)
    | intro

theorem mbWriteDscpTables_follows {a₀ s : State} (r : Follows a₀ s) (_x : MbCtx) (mask : Nat) (rx : List Nat) (tx : List Nat) :
    Follows a₀ (mbWriteDscpTables _x mask rx tx s).1 := by
  unfold mbWriteDscpTables
  try dsimp only
  repeat' first
    | with_reducible (assumption)
    | with_reducible (exact Follows.refl _)
    | with_reducible (apply updParser_follows)
    | with_reducible (apply done_follows)
    | with_reducible (apply Follows.foldl)
    | split
    | (refine Follows.of_fst (by assumption) ?_)
    | (refine Follows.of_snd (by assumption) ?_)
    | intro

theorem mbAssociationReset_follows {a₀ s : State} (r : Follows a₀ s) (x : MbCtx) (id : Nat) :
    Follows a₀ (mbAssociationReset x id s).1 := by
  unfold mbAssociationReset
  try dsimp only
  repeat' first
    | with_reducible (assumption)
    | with_reducible (exact Follows.refl _)
    | with_reducible (apply Follows.ite)
    | with_reducible (apply Follows.ite_fst)
    | with_reducible (apply issueStitch_follows)
    | with_reducible (apply assocReset_follows)
    | with_reducible (apply refuse_follows)
    | with_reducible (apply done_follows)
    | split

theorem mbListAssociations_follows {a₀ s : State} (r : Follows a₀ s) (_x : MbCtx) (first : Nat) :
    Follows a₀ (mbListAssociations _x first s).1 := by
  unfold mbListAssociations
  try dsimp only
  repeat' first
    | with_reducible (assumption)
    | with_reducible (exact Follows.refl _)
    | with_reducible (apply done_follows)

theorem mbPrincipalCreate_follows {a₀ s : State} (r : Follows a₀ s) (_x : MbCtx) (r : PrincRec) :
    Follows a₀ (mbPrincipalCreate _x r s).1 := by
  unfold mbPrincipalCreate
  try dsimp only
  repeat' first
    | with_reducible (assumption)
    | with_reducible (exact Follows.refl _)
    | with_reducible (apply refuse_follows)
    | with_reducible (apply done_follows)
    | with_reducible (apply Follows.onCfg)
    | split

theorem mbPrincipalModify_follows {a₀ s : State} (r : Follows a₀ s) (_x : MbCtx) (r : PrincRec) :
    Follows a₀ (mbPrincipalModify _x r s).1 := by
  unfold mbPrincipalModify
  try dsimp only
  repeat' first
    | with_reducible (assumption)
    | with_reducible (exact Follows.refl _)
    | with_reducible (apply Follows.ite)
    | with_reducible (apply Follows.ite_fst)
    | with_reducible (apply refuse_follows)
    | with_reducible (apply done_follows)
    | with_reducible (apply Follows.onCfg)
    | split

theorem mbPrincipalRemove_follows {a₀ s : State} (r : Follows a₀ s) (x : MbCtx) (idx : Nat) :
    Follows a₀ (mbPrincipalRemove x idx s).1 := by
  unfold mbPrincipalRemove
  try dsimp only
  repeat' first
    | with_reducible (assumption)
    | with_reducible (exact Follows.refl _)
    | with_reducible (apply Follows.ite)
    | with_reducible (apply Follows.ite_fst)
    | with_reducible (apply endOper_follows)
    | with_reducible (apply releaseAssoc_follows)
    | with_reducible (apply refuse_follows)
    | with_reducible (apply startOper_follows)
    | with_reducible (apply Follows.onIo)
    | with_reducible (apply Follows.onCfg)
    | with_reducible (apply Follows.onMbx)
    | with_reducible (apply Follows.foldl)
    | split
    | (refine Follows.of_fst (by assumption) ?_)
    | (refine Follows.of_snd (by assumption) ?_)
    | intro

theorem mbPrincipalList_follows {a₀ s : State} (r : Follows a₀ s) (_x : MbCtx) (first : Nat) :
    Follows a₀ (mbPrincipalList _x first s).1 := by
  unfold mbPrincipalList
  try dsimp only
  repeat' first
    | with_reducible (assumption)
    | with_reducible (exact Follows.refl _)
    | with_reducible (apply done_follows)

theorem mbGenerateUnitKey_follows {a₀ s : State} (r : Follows a₀ s) (_x : MbCtx) :
    Follows a₀ (mbGenerateUnitKey _x s).1 := by
  unfold mbGenerateUnitKey
  try dsimp only
  repeat' first
    | with_reducible (assumption)
    | with_reducible (exact Follows.refl _)
    | with_reducible (apply State.drawn_follows)
    | with_reducible (apply done_follows)
    | with_reducible (apply Follows.onCfg)

theorem mbInstallCertificate_follows {a₀ s : State} (r : Follows a₀ s) (_x : MbCtx) (cert : Nat) (key : Nat) :
    Follows a₀ (mbInstallCertificate _x cert key s).1 := by
  unfold mbInstallCertificate
  try dsimp only
  repeat' first
    | with_reducible (assumption)
    | with_reducible (exact Follows.refl _)
    | with_reducible (apply Follows.ite)
    | with_reducible (apply Follows.ite_fst)
    | with_reducible (apply refuse_follows)
    | with_reducible (apply done_follows)
    | with_reducible (apply Follows.onCfg)

theorem mbSetCredential_follows {a₀ s : State} (r : Follows a₀ s) (_x : MbCtx) (cred : Nat) (psk : Nat) (ident : Nat) :
    Follows a₀ (mbSetCredential _x cred psk ident s).1 := by
  unfold mbSetCredential
  try dsimp only
  repeat' first
    | with_reducible (assumption)
    | with_reducible (exact Follows.refl _)
    | with_reducible (apply done_follows)
    | with_reducible (apply Follows.onCfg)

theorem writtenBy_follows {a₀ s : State} (r : Follows a₀ s) (lead : Bool) (f : State → State) (hf : ∀ (z : State), Follows z (f z)) :
    Follows a₀ (writtenBy lead f s) := by
  unfold writtenBy
  try dsimp only
  repeat' first
    | with_reducible (assumption)
    | with_reducible (exact Follows.refl _)
    | with_reducible (apply Follows.ite)
    | with_reducible (apply Follows.cut; (apply hf))
    | with_reducible (apply Follows.onIo)

theorem afterWrites_follows {a₀ after : State} (r : Follows a₀ after) (before : State) :
    Follows a₀ (afterWrites before after).1 := by
  unfold afterWrites
  try dsimp only
  repeat' first
    | with_reducible (assumption)

theorem newLease_follows {a₀ s : State} (r : Follows a₀ s) (arr : Nat) (lead : Bool) :
    Follows a₀ (newLease arr lead s) := by
  unfold newLease
  try dsimp only
  repeat' first
    | with_reducible (assumption)
    | with_reducible (exact Follows.refl _)
    | with_reducible (apply Follows.ite)
    | with_reducible (apply updLease_follows)
    | with_reducible (apply sendWitness_follows)

theorem liveKeepers_follows {a₀ s : State} (r : Follows a₀ s) (arr : Nat) :
    Follows a₀ (liveKeepers arr s) := by
  unfold liveKeepers
  try dsimp only
  repeat' first
    | with_reducible (assumption)
    | with_reducible (exact Follows.refl _)
    | with_reducible (apply updArr_follows)
    | with_reducible (apply replaceKeepers_follows)

theorem writeArray_follows {a₀ s : State} (r : Follows a₀ s) (arr : Nat) :
    Follows a₀ (writeArray arr s) := by
  unfold writeArray
  try dsimp only
  repeat' first
    | with_reducible (assumption)
    | with_reducible (exact Follows.refl _)
    | with_reducible (apply writeMeta_follows)
    | with_reducible (apply writeSlot_follows)
    | with_reducible (apply ledgerNow_follows)
    | with_reducible (apply superblockNow_follows)
    | with_reducible (apply relabel_follows)
    | with_reducible (apply Follows.foldl)
    | split
    | (refine Follows.of_fst (by assumption) ?_)
    | (refine Follows.of_snd (by assumption) ?_)
    | intro

theorem mbArrayCreate_follows {a₀ s : State} (r : Follows a₀ s) (x : MbCtx) (arr : Nat) (lay : Nat) (n : Nat) (shift : Nat) (bays : List Nat) :
    Follows a₀ (mbArrayCreate x arr lay n shift bays s).1 := by
  unfold mbArrayCreate
  try dsimp only
  repeat' first
    | with_reducible (assumption)
    | with_reducible (exact Follows.refl _)
    | with_reducible (apply Follows.ite)
    | with_reducible (apply Follows.ite_fst)
    | with_reducible (apply State.drawn_follows)
    | with_reducible (apply updDrive_follows)
    | with_reducible (apply refuse_follows)
    | with_reducible (apply writtenBy_follows)
    | with_reducible (apply afterWrites_follows)
    | with_reducible (apply newLease_follows)
    | with_reducible (apply liveKeepers_follows)
    | with_reducible (apply writeArray_follows)
    | with_reducible (apply Follows.onMd)
    | with_reducible (apply Follows.onIo)
    | with_reducible (apply Follows.foldl)
    | split
    | (refine Follows.of_fst (by assumption) ?_)
    | (refine Follows.of_snd (by assumption) ?_)
    | intro

theorem mbArrayDelete_follows {a₀ s : State} (r : Follows a₀ s) (x : MbCtx) (arr : Nat) :
    Follows a₀ (mbArrayDelete x arr s).1 := by
  unfold mbArrayDelete
  try dsimp only
  repeat' first
    | with_reducible (assumption)
    | with_reducible (exact Follows.refl _)
    | with_reducible (apply Follows.ite)
    | with_reducible (apply Follows.ite_fst)
    | with_reducible (apply updDrive_follows)
    | with_reducible (apply updLease_follows)
    | with_reducible (apply issueTagged_follows)
    | with_reducible (apply sendWitness_follows)
    | with_reducible (apply stopActing_follows)
    | with_reducible (apply refuse_follows)
    | with_reducible (apply done_follows)
    | with_reducible (apply writtenBy_follows)
    | with_reducible (apply Follows.onIo)
    | with_reducible (apply Follows.foldl)
    | split
    | (refine Follows.of_fst (by assumption) ?_)
    | (refine Follows.of_snd (by assumption) ?_)
    | intro

theorem serveFailed_follows {a₀ s : State} (r : Follows a₀ s) :
    Follows a₀ (serveFailed s) := by
  unfold serveFailed
  try dsimp only
  repeat' first
    | with_reducible (assumption)
    | with_reducible (exact Follows.refl _)
    | with_reducible (apply Follows.ite)
    | with_reducible (apply seekSpare_follows)
    | with_reducible (apply Follows.foldl)
    | split
    | (refine Follows.of_fst (by assumption) ?_)
    | (refine Follows.of_snd (by assumption) ?_)
    | intro

theorem mbAssignDrive_follows {a₀ s : State} (r : Follows a₀ s) (x : MbCtx) (bay : Nat) (role : Nat) :
    Follows a₀ (mbAssignDrive x bay role s).1 := by
  unfold mbAssignDrive
  try dsimp only
  repeat' first
    | with_reducible (assumption)
    | with_reducible (exact Follows.refl _)
    | with_reducible (apply Follows.ite)
    | with_reducible (apply Follows.ite_fst)
    | with_reducible (apply updDrive_follows)
    | with_reducible (apply issueTagged_follows)
    | with_reducible (apply refuse_follows)
    | with_reducible (apply writtenBy_follows)
    | with_reducible (apply serveFailed_follows)
    | split
    | (refine Follows.of_fst (by assumption) ?_)
    | (refine Follows.of_snd (by assumption) ?_)
    | intro

theorem mbMarkFailed_follows {a₀ s : State} (r : Follows a₀ s) (_x : MbCtx) (arr : Nat) (pos : Nat) :
    Follows a₀ (mbMarkFailed _x arr pos s).1 := by
  unfold mbMarkFailed
  try dsimp only
  repeat' first
    | with_reducible (assumption)
    | with_reducible (exact Follows.refl _)
    | with_reducible (apply Follows.ite)
    | with_reducible (apply Follows.ite_fst)
    | with_reducible (apply failMember_follows)
    | with_reducible (apply endDcs_follows)
    | with_reducible (apply refuse_follows)
    | with_reducible (apply done_follows)
    | split

theorem mbArrayStatus_follows {a₀ s : State} (r : Follows a₀ s) (_x : MbCtx) (arr : Nat) :
    Follows a₀ (mbArrayStatus _x arr s).1 := by
  unfold mbArrayStatus
  try dsimp only
  repeat' first
    | with_reducible (assumption)
    | with_reducible (exact Follows.refl _)
    | with_reducible (apply refuse_follows)
    | with_reducible (apply done_follows)
    | split

theorem mbListLost_follows {a₀ s : State} (r : Follows a₀ s) (_x : MbCtx) (arr : Nat) (first : Nat) :
    Follows a₀ (mbListLost _x arr first s).1 := by
  unfold mbListLost
  try dsimp only
  repeat' first
    | with_reducible (assumption)
    | with_reducible (exact Follows.refl _)
    | with_reducible (apply refuse_follows)
    | with_reducible (apply done_follows)
    | split

theorem mbListPatrol_follows {a₀ s : State} (r : Follows a₀ s) (_x : MbCtx) (arr : Nat) (first : Nat) :
    Follows a₀ (mbListPatrol _x arr first s).1 := by
  unfold mbListPatrol
  try dsimp only
  repeat' first
    | with_reducible (assumption)
    | with_reducible (exact Follows.refl _)
    | with_reducible (apply Follows.ite)
    | with_reducible (apply Follows.ite_fst)
    | with_reducible (apply refuse_follows)
    | with_reducible (apply done_follows)
    | split

theorem mbImportArray_follows {a₀ s : State} (r : Follows a₀ s) (x : MbCtx) (mask : Nat) :
    Follows a₀ (mbImportArray x mask s).1 := by
  unfold mbImportArray
  try dsimp only
  repeat' first
    | with_reducible (assumption)
    | with_reducible (exact Follows.refl _)
    | with_reducible (apply Follows.ite)
    | with_reducible (apply Follows.ite_fst)
    | with_reducible (apply State.drawn_follows)
    | with_reducible (apply updDrive_follows)
    | with_reducible (apply refuse_follows)
    | with_reducible (apply startOper_follows)
    | with_reducible (apply newLease_follows)
    | with_reducible (apply liveKeepers_follows)
    | with_reducible (apply Follows.onIo)
    | with_reducible (apply Follows.foldl)
    | split
    | (refine Follows.of_fst (by assumption) ?_)
    | (refine Follows.of_snd (by assumption) ?_)
    | intro

theorem noteArray_follows {a₀ s : State} (r : Follows a₀ s) (arr : Nat) :
    Follows a₀ (noteArray arr s) := by
  unfold noteArray
  try dsimp only
  repeat' first
    | with_reducible (assumption)
    | with_reducible (exact Follows.refl _)
    | with_reducible (apply Follows.ite)
    | with_reducible (apply superblockNow_follows)

theorem volumeEvent_follows {a₀ s : State} (r : Follows a₀ s) :
    Follows a₀ (volumeEvent s) := by
  unfold volumeEvent
  try dsimp only
  repeat' first
    | with_reducible (assumption)
    | with_reducible (exact Follows.refl _)
    | with_reducible (apply raiseAll_follows)

theorem mbVolumeCreate_follows {a₀ s : State} (r : Follows a₀ s) (_x : MbCtx) (vol : Nat) (arr : Nat) (kind : Nat) (flags : Nat) (size : Nat) (allot : Nat) :
    Follows a₀ (mbVolumeCreate _x vol arr kind flags size allot s).1 := by
  unfold mbVolumeCreate
  try dsimp only
  repeat' first
    | with_reducible (assumption)
    | with_reducible (exact Follows.refl _)
    | with_reducible (apply Follows.ite)
    | with_reducible (apply Follows.ite_fst)
    | with_reducible (apply State.drawn_follows)
    | with_reducible (apply updArr_follows)
    | with_reducible (apply putSetting_follows)
    | with_reducible (apply refuse_follows)
    | with_reducible (apply done_follows)
    | with_reducible (apply noteArray_follows)
    | with_reducible (apply volumeEvent_follows)
    | with_reducible (apply Follows.onIo)
    | split

theorem mbVolumeDelete_follows {a₀ s : State} (r : Follows a₀ s) (_x : MbCtx) (vol : Nat) :
    Follows a₀ (mbVolumeDelete _x vol s).1 := by
  unfold mbVolumeDelete
  try dsimp only
  repeat' first
    | with_reducible (assumption)
    | with_reducible (exact Follows.refl _)
    | with_reducible (apply Follows.ite)
    | with_reducible (apply Follows.ite_fst)
    | with_reducible (apply updArr_follows)
    | with_reducible (apply refuse_follows)
    | with_reducible (apply done_follows)
    | with_reducible (apply noteArray_follows)
    | with_reducible (apply volumeEvent_follows)
    | with_reducible (apply Follows.onIo)
    | split

theorem mbVolumeResize_follows {a₀ s : State} (r : Follows a₀ s) (_x : MbCtx) (vol : Nat) (size : Nat) :
    Follows a₀ (mbVolumeResize _x vol size s).1 := by
  unfold mbVolumeResize
  try dsimp only
  repeat' first
    | with_reducible (assumption)
    | with_reducible (exact Follows.refl _)
    | with_reducible (apply Follows.ite)
    | with_reducible (apply Follows.ite_fst)
    | with_reducible (apply updArr_follows)
    | with_reducible (apply updVol_follows)
    | with_reducible (apply refuse_follows)
    | with_reducible (apply done_follows)
    | with_reducible (apply noteArray_follows)
    | with_reducible (apply volumeEvent_follows)
    | split

theorem mbCopyStart_follows {a₀ s : State} (r : Follows a₀ s) (x : MbCtx) (vol : Nat) (dstVol : Nat) (cred : Nat) (gate : Nat) (dst : Nat) :
    Follows a₀ (mbCopyStart x vol dstVol cred gate dst s).1 := by
  unfold mbCopyStart
  try dsimp only
  repeat' first
    | with_reducible (assumption)
    | with_reducible (exact Follows.refl _)
    | with_reducible (apply Follows.ite)
    | with_reducible (apply Follows.ite_fst)
    | with_reducible (apply putSetting_follows)
    | with_reducible (apply copySend_follows)
    | with_reducible (apply refuse_follows)
    | with_reducible (apply startOper_follows)
    | with_reducible (apply Follows.onIo)
    | split
    | (refine Follows.of_fst (by assumption) ?_)
    | (refine Follows.of_snd (by assumption) ?_)
    | intro

theorem startCutover_follows {a₀ s : State} (r : Follows a₀ s) (op : Nat) (mb : Option (Nat × Nat)) :
    Follows a₀ (startCutover op mb s) := by
  unfold startCutover
  try dsimp only
  repeat' first
    | with_reducible (assumption)
    | with_reducible (exact Follows.refl _)
    | with_reducible (apply updCopy_follows)
    | with_reducible (apply copyFeed_follows)
    | with_reducible (apply Follows.onIo)
    | split

theorem mbCopyCutover_follows {a₀ s : State} (r : Follows a₀ s) (x : MbCtx) (op : Nat) :
    Follows a₀ (mbCopyCutover x op s).1 := by
  unfold mbCopyCutover
  try dsimp only
  repeat' first
    | with_reducible (assumption)
    | with_reducible (exact Follows.refl _)
    | with_reducible (apply Follows.ite)
    | with_reducible (apply Follows.ite_fst)
    | with_reducible (apply refuse_follows)
    | with_reducible (apply done_follows)
    | with_reducible (apply startCutover_follows)
    | split

theorem mbListMap_follows {a₀ s : State} (r : Follows a₀ s) (_x : MbCtx) (vol : Nat) (first : Nat) :
    Follows a₀ (mbListMap _x vol first s).1 := by
  unfold mbListMap
  try dsimp only
  repeat' first
    | with_reducible (assumption)
    | with_reducible (exact Follows.refl _)
    | with_reducible (apply refuse_follows)
    | with_reducible (apply done_follows)
    | split

theorem orphanSlots_follows {a₀ s : State} (r : Follows a₀ s) (p : Slot → Bool) :
    Follows a₀ (orphanSlots p s) := by
  unfold orphanSlots
  try dsimp only
  repeat' first
    | with_reducible (assumption)
    | with_reducible (exact Follows.refl _)
    | with_reducible (apply Follows.ite)
    | with_reducible (apply Follows.onMbx)

theorem releaseHold_follows {a₀ s : State} (r : Follows a₀ s) :
    Follows a₀ (releaseHold s) := by
  unfold releaseHold
  try dsimp only
  repeat' first
    | with_reducible (assumption)
    | with_reducible (exact Follows.refl _)
    | with_reducible (apply Follows.ite)
    | with_reducible (apply dropHold_follows)
    | with_reducible (apply Follows.onPair)
    | with_reducible (apply Follows.onDbg)
    | with_reducible rfl
    | rfl
    | exact id

theorem endSession_follows {a₀ s : State} (r : Follows a₀ s) :
    Follows a₀ (endSession s) := by
  unfold endSession
  try dsimp only
  repeat' first
    | with_reducible (assumption)
    | with_reducible (exact Follows.refl _)
    | with_reducible (apply Follows.ite)
    | with_reducible (apply resumeCores_follows)
    | with_reducible (apply sessionEntry_follows)
    | with_reducible (apply releaseHeld_follows)
    | with_reducible (apply orphanSlots_follows)
    | with_reducible (apply releaseHold_follows)
    | with_reducible (apply Follows.onDbg)
    | with_reducible rfl
    | rfl
    | exact id
    | exact List.length_modify ..
    | exact List.length_mapIdx ..
    | exact List.length_map ..
    | exact List.length_set ..
    | (intro hc; simpa [Dbg.Canonical] using hc)

theorem mbWriteGateList_follows {a₀ s : State} (r : Follows a₀ s) (_x : MbCtx) (list : Nat) (base : Nat) (change : Nat) (entries : List Nat) :
    Follows a₀ (mbWriteGateList _x list base change entries s).1 := by
  unfold mbWriteGateList
  try dsimp only
  repeat' first
    | with_reducible (assumption)
    | with_reducible (exact Follows.refl _)
    | with_reducible (apply Follows.ite)
    | with_reducible (apply Follows.ite_fst)
    | with_reducible (apply done_follows)
    | with_reducible (apply Follows.onSw)

theorem mbReadGateList_follows {a₀ s : State} (r : Follows a₀ s) (_x : MbCtx) (list : Nat) :
    Follows a₀ (mbReadGateList _x list s).1 := by
  unfold mbReadGateList
  try dsimp only
  repeat' first
    | with_reducible (assumption)
    | with_reducible (exact Follows.refl _)
    | with_reducible (apply done_follows)

theorem mbSetPolicy_follows {a₀ s : State} (r : Follows a₀ s) (_x : MbCtx) (target : Nat) (idx : Nat) (p : Policy) :
    Follows a₀ (mbSetPolicy _x target idx p s).1 := by
  unfold mbSetPolicy
  try dsimp only
  repeat' first
    | with_reducible (assumption)
    | with_reducible (exact Follows.refl _)
    | with_reducible (apply Follows.ite)
    | with_reducible (apply Follows.ite_fst)
    | with_reducible (apply updAssoc_follows)
    | with_reducible (apply refuse_follows)
    | with_reducible (apply done_follows)
    | with_reducible (apply Follows.onCfg)
    | split

theorem mbClearQueues_follows {a₀ s : State} (r : Follows a₀ s) (_x : MbCtx) (cls : Nat) (inst : Nat) :
    Follows a₀ (mbClearQueues _x cls inst s).1 := by
  unfold mbClearQueues
  try dsimp only
  repeat' first
    | with_reducible (assumption)
    | with_reducible (exact Follows.refl _)
    | with_reducible (apply Follows.ite)
    | with_reducible (apply Follows.ite_fst)
    | with_reducible (apply refuse_follows)
    | with_reducible (apply done_follows)
    | with_reducible (apply Follows.onSw)

theorem meetWitness_follows {a₀ s : State} (r : Follows a₀ s) :
    Follows a₀ (meetWitness s) := by
  unfold meetWitness
  try dsimp only
  repeat' first
    | with_reducible (assumption)
    | with_reducible (exact Follows.refl _)
    | with_reducible (apply Follows.ite)
    | with_reducible (apply queryAll_follows)
    | with_reducible (apply Follows.onPair)
    | with_reducible rfl

theorem mbSetWitnessAddress_follows {a₀ s : State} (r : Follows a₀ s) (_x : MbCtx) (addr : Nat) :
    Follows a₀ (mbSetWitnessAddress _x addr s).1 := by
  unfold mbSetWitnessAddress
  try dsimp only
  repeat' first
    | with_reducible (assumption)
    | with_reducible (exact Follows.refl _)
    | with_reducible (apply Follows.ite)
    | with_reducible (apply Follows.ite_fst)
    | with_reducible (apply sendWitness_follows)
    | with_reducible (apply refuse_follows)
    | with_reducible (apply done_follows)
    | with_reducible (apply meetWitness_follows)
    | with_reducible (apply Follows.onCfg)
    | with_reducible (apply Follows.onPair)
    | with_reducible (apply Follows.foldl)
    | with_reducible rfl
    | rfl
    | exact id
    | exact List.length_modify ..
    | exact List.length_mapIdx ..
    | exact List.length_map ..
    | exact List.length_set ..
    | split
    | (refine Follows.of_fst (by assumption) ?_)
    | (refine Follows.of_snd (by assumption) ?_)
    | intro

theorem mbSetWitnessKey_follows {a₀ s : State} (r : Follows a₀ s) (_x : MbCtx) (key : Nat) :
    Follows a₀ (mbSetWitnessKey _x key s).1 := by
  unfold mbSetWitnessKey
  try dsimp only
  repeat' first
    | with_reducible (assumption)
    | with_reducible (exact Follows.refl _)
    | with_reducible (apply done_follows)
    | with_reducible (apply meetWitness_follows)
    | with_reducible (apply Follows.onCfg)

theorem mbHandover_follows {a₀ s : State} (r : Follows a₀ s) (x : MbCtx) (arr : Nat) :
    Follows a₀ (mbHandover x arr s).1 := by
  unfold mbHandover
  try dsimp only
  repeat' first
    | with_reducible (assumption)
    | with_reducible (exact Follows.refl _)
    | with_reducible (apply Follows.ite)
    | with_reducible (apply Follows.ite_fst)
    | with_reducible (apply startHandover_follows)
    | with_reducible (apply refuse_follows)
    | with_reducible (apply done_follows)

end Sys2Proof.Machine
end

