-- ==== Sys2Proof/Laws/Ops7.lean ====
section
/-! SUPPORT. What each shared operation keeps, from mbStartProof to playLost. -/

namespace Sys2Proof.Machine

theorem mbStartProof_follows {a₀ s : State} (r : Follows a₀ s) (x : MbCtx) :
    Follows a₀ (mbStartProof x s).1 := by
  unfold mbStartProof
  try dsimp only
  repeat' first
    | with_reducible (assumption)
    | with_reducible (exact Follows.refl _)
    | with_reducible (apply Follows.ite)
    | with_reducible (apply Follows.ite_fst)
    | with_reducible (apply startProof_follows)
    | with_reducible (apply refuse_follows)
    | with_reducible (apply startOper_follows)
    | split
    | (refine Follows.of_fst (by assumption) ?_)
    | (refine Follows.of_snd (by assumption) ?_)
    | intro

theorem mbClearMarks_follows {a₀ s : State} (r : Follows a₀ s) (_x : MbCtx) (mask : Nat) :
    Follows a₀ (mbClearMarks _x mask s).1 := by
  unfold mbClearMarks
  try dsimp only
  repeat' first
    | with_reducible (assumption)
    | with_reducible (exact Follows.refl _)
    | with_reducible (apply Follows.ite)
    | with_reducible (apply Follows.ite_fst)
    | with_reducible (apply enterSolo_follows)
    | with_reducible (apply done_follows)
    | with_reducible (apply Follows.onPair)
    | with_reducible rfl
    | rfl
    | exact id
    | exact List.length_modify ..
    | exact List.length_mapIdx ..

theorem mbReadDivergence_follows {a₀ s : State} (r : Follows a₀ s) (_x : MbCtx) (off : Nat) (len : Nat) :
    Follows a₀ (mbReadDivergence _x off len s).1 := by
  unfold mbReadDivergence
  try dsimp only
  repeat' first
    | with_reducible (assumption)
    | with_reducible (exact Follows.refl _)
    | with_reducible (apply done_follows)

theorem mbPairStatus_follows {a₀ s : State} (r : Follows a₀ s) (_x : MbCtx) :
    Follows a₀ (mbPairStatus _x s).1 := by
  unfold mbPairStatus
  try dsimp only
  repeat' first
    | with_reducible (assumption)
    | with_reducible (exact Follows.refl _)
    | with_reducible (apply Follows.ite)
    | with_reducible (apply Follows.ite_fst)
    | with_reducible (apply done_follows)

theorem mbBayPower_follows {a₀ s : State} (r : Follows a₀ s) (_x : MbCtx) (bay : Nat) (action : Nat) :
    Follows a₀ (mbBayPower _x bay action s).1 := by
  unfold mbBayPower
  try dsimp only
  repeat' first
    | with_reducible (assumption)
    | with_reducible (exact Follows.refl _)
    | with_reducible (apply Follows.ite)
    | with_reducible (apply Follows.ite_fst)
    | with_reducible (apply updChan_follows)
    | exact (fun _ h => h)
    | exact (fun _ _ _ => rfl)
    | with_reducible (apply gateOff_follows)
    | with_reducible (apply startRamp_follows)
    | with_reducible (apply rebudget_follows)
    | with_reducible (apply refuse_follows)
    | with_reducible (apply done_follows)
    | split

theorem mbRemovalRequest_follows {a₀ s : State} (r : Follows a₀ s) (x : MbCtx) (bay : Nat) (step : Nat) :
    Follows a₀ (mbRemovalRequest x bay step s).1 := by
  unfold mbRemovalRequest
  try dsimp only
  repeat' first
    | with_reducible (assumption)
    | with_reducible (exact Follows.refl _)
    | with_reducible (apply Follows.ite)
    | with_reducible (apply Follows.ite_fst)
    | with_reducible (apply removalPrepare_follows)
    | with_reducible (apply removalConfirm_follows)
    | with_reducible (apply removalCancel_follows)
    | with_reducible (apply refuse_follows)
    | with_reducible (apply done_follows)

theorem mbLocate_follows {a₀ s : State} (r : Follows a₀ s) (_x : MbCtx) (bay : Nat) (on : Nat) :
    Follows a₀ (mbLocate _x bay on s).1 := by
  unfold mbLocate
  try dsimp only
  repeat' first
    | with_reducible (assumption)
    | with_reducible (exact Follows.refl _)
    | with_reducible (apply Follows.ite)
    | with_reducible (apply Follows.ite_fst)
    | with_reducible (apply updChan_follows)
    | exact (fun _ h => h)
    | exact (fun _ _ (h : true = false) => Bool.noConfusion h)
    | exact (fun _ _ _ => rfl)
    | with_reducible (apply done_follows)
    | with_reducible (apply Follows.onBays)
    | exact Bays.Powered.same rfl
    | with_reducible rfl

theorem mbPowerState_follows {a₀ s : State} (r : Follows a₀ s) (x : MbCtx) (ps : Nat) :
    Follows a₀ (mbPowerState x ps s).1 := by
  unfold mbPowerState
  try dsimp only
  repeat' first
    | with_reducible (assumption)
    | with_reducible (exact Follows.refl _)
    | with_reducible (apply Follows.ite)
    | with_reducible (apply Follows.ite_fst)
    | with_reducible (apply stitchPs_follows)
    | with_reducible (apply enterPs1_follows)
    | with_reducible (apply exitPs_follows)
    | with_reducible (apply requestPs2_follows)
    | with_reducible (apply refuse_follows)
    | with_reducible (apply done_follows)

theorem mbPowerStatus_follows {a₀ s : State} (r : Follows a₀ s) (_x : MbCtx) :
    Follows a₀ (mbPowerStatus _x s).1 := by
  unfold mbPowerStatus
  try dsimp only
  repeat' first
    | with_reducible (assumption)
    | with_reducible (exact Follows.refl _)
    | with_reducible (apply done_follows)

theorem mbExportSwatch_follows {a₀ s : State} (r : Follows a₀ s) (_x : MbCtx) :
    Follows a₀ (mbExportSwatch _x s).1 := by
  unfold mbExportSwatch
  try dsimp only
  repeat' first
    | with_reducible (assumption)
    | with_reducible (exact Follows.refl _)
    | with_reducible (apply done_follows)
    | with_reducible (apply Follows.onAudit)
    | with_reducible rfl

theorem mbWriteSwatch_follows {a₀ s : State} (r : Follows a₀ s) (_x : MbCtx) (check : Nat) (entry : Nat) (v : Int) :
    Follows a₀ (mbWriteSwatch _x check entry v s).1 := by
  unfold mbWriteSwatch
  try dsimp only
  repeat' first
    | with_reducible (assumption)
    | with_reducible (exact Follows.refl _)
    | with_reducible (apply Follows.ite)
    | with_reducible (apply Follows.ite_fst)
    | with_reducible (apply refuse_follows)
    | with_reducible (apply done_follows)
    | with_reducible (apply Follows.onAudit)
    | with_reducible rfl

theorem mbReadAudit_follows {a₀ s : State} (r : Follows a₀ s) (_x : MbCtx) (first : Nat) (n : Nat) :
    Follows a₀ (mbReadAudit _x first n s).1 := by
  unfold mbReadAudit
  try dsimp only
  repeat' first
    | with_reducible (assumption)
    | with_reducible (exact Follows.refl _)
    | with_reducible (apply done_follows)

theorem mbExportAudit_follows {a₀ s : State} (r : Follows a₀ s) (x : MbCtx) (first : Nat) (last : Nat) :
    Follows a₀ (mbExportAudit x first last s).1 := by
  unfold mbExportAudit
  try dsimp only
  repeat' first
    | with_reducible (assumption)
    | with_reducible (exact Follows.refl _)
    | with_reducible (apply Follows.ite)
    | with_reducible (apply Follows.ite_fst)
    | with_reducible (apply refuse_follows)
    | with_reducible (apply startOper_follows)
    | with_reducible (apply Follows.onAudit)
    | with_reducible rfl
    | rfl
    | exact id
    | exact List.length_modify ..
    | exact List.length_mapIdx ..
    | exact List.length_map ..
    | exact List.length_set ..
    | split
    | (refine Follows.of_fst (by assumption) ?_)
    | (refine Follows.of_snd (by assumption) ?_)
    | intro

theorem mbSealAudit_follows {a₀ s : State} (r : Follows a₀ s) (x : MbCtx) (last : Nat) :
    Follows a₀ (mbSealAudit x last s).1 := by
  unfold mbSealAudit
  try dsimp only
  repeat' first
    | with_reducible (assumption)
    | with_reducible (exact Follows.refl _)
    | with_reducible (apply Follows.ite)
    | with_reducible (apply Follows.ite_fst)
    | with_reducible (apply auditPush_follows)
    | with_reducible (apply refuse_follows)

theorem mbReadObject_follows {a₀ s : State} (r : Follows a₀ s) (x : MbCtx) (addr : Nat) (off : Nat) (len : Nat) :
    Follows a₀ (mbReadObject x addr off len s).1 := by
  unfold mbReadObject
  try dsimp only
  repeat' first
    | with_reducible (assumption)
    | with_reducible (exact Follows.refl _)
    | with_reducible (apply Follows.ite)
    | with_reducible (apply Follows.ite_fst)
    | with_reducible (apply refuse_follows)
    | with_reducible (apply done_follows)
    | split

theorem mbFreeze_follows {a₀ s : State} (r : Follows a₀ s) (_x : MbCtx) (t : Nat) :
    Follows a₀ (mbFreeze _x t s).1 := by
  unfold mbFreeze
  try dsimp only
  repeat' first
    | with_reducible (assumption)
    | with_reducible (exact Follows.refl _)
    | with_reducible (apply Follows.ite)
    | with_reducible (apply Follows.ite_fst)
    | with_reducible (apply refuse_follows)
    | with_reducible (apply done_follows)
    | with_reducible (apply Follows.onAudit)
    | with_reducible rfl

theorem mbReleaseFreeze_follows {a₀ s : State} (r : Follows a₀ s) (_x : MbCtx) :
    Follows a₀ (mbReleaseFreeze _x s).1 := by
  unfold mbReleaseFreeze
  try dsimp only
  repeat' first
    | with_reducible (assumption)
    | with_reducible (exact Follows.refl _)
    | with_reducible (apply Follows.ite)
    | with_reducible (apply Follows.ite_fst)
    | with_reducible (apply refuse_follows)
    | with_reducible (apply done_follows)
    | with_reducible (apply Follows.onAudit)
    | with_reducible rfl

theorem discardStaged_follows {a₀ s : State} (r : Follows a₀ s) :
    Follows a₀ (discardStaged s) := by
  unfold discardStaged
  try dsimp only
  repeat' first
    | with_reducible (assumption)
    | with_reducible (exact Follows.refl _)
    | with_reducible (apply Follows.onImg)

theorem mbStageSegment_follows {a₀ s : State} (r : Follows a₀ s) (_x : MbCtx) (off : Nat) (len : Nat) (ident : Nat) :
    Follows a₀ (mbStageSegment _x off len ident s).1 := by
  unfold mbStageSegment
  try dsimp only
  repeat' first
    | with_reducible (assumption)
    | with_reducible (exact Follows.refl _)
    | with_reducible (apply Follows.ite)
    | with_reducible (apply Follows.ite_fst)
    | with_reducible (apply refuse_follows)
    | with_reducible (apply done_follows)
    | with_reducible (apply Follows.onImg)

theorem mbVerifyImage_follows {a₀ s : State} (r : Follows a₀ s) (x : MbCtx) (len : Nat) :
    Follows a₀ (mbVerifyImage x len s).1 := by
  unfold mbVerifyImage
  try dsimp only
  repeat' first
    | with_reducible (assumption)
    | with_reducible (exact Follows.refl _)
    | with_reducible (apply Follows.ite)
    | with_reducible (apply Follows.ite_fst)
    | with_reducible (apply refuse_follows)
    | with_reducible (apply startOper_follows)
    | with_reducible (apply Follows.onImg)
    | split
    | (refine Follows.of_fst (by assumption) ?_)
    | (refine Follows.of_snd (by assumption) ?_)
    | intro

theorem mbActivate_follows {a₀ s : State} (r : Follows a₀ s) (x : MbCtx) :
    Follows a₀ (mbActivate x s).1 := by
  unfold mbActivate
  try dsimp only
  repeat' first
    | with_reducible (assumption)
    | with_reducible (exact Follows.refl _)
    | with_reducible (apply Follows.ite)
    | with_reducible (apply Follows.ite_fst)
    | with_reducible (apply raiseAll_follows)
    | with_reducible (apply abortSelfTest_follows)
    | with_reducible (apply handAll_follows)
    | with_reducible (apply afterHandover_follows)
    | with_reducible (apply refuse_follows)
    | with_reducible (apply startOper_follows)
    | with_reducible (apply Follows.onImg)
    | split
    | (refine Follows.of_fst (by assumption) ?_)
    | (refine Follows.of_snd (by assumption) ?_)
    | intro

theorem mbDiscardImage_follows {a₀ s : State} (r : Follows a₀ s) (_x : MbCtx) :
    Follows a₀ (mbDiscardImage _x s).1 := by
  unfold mbDiscardImage
  try dsimp only
  repeat' first
    | with_reducible (assumption)
    | with_reducible (exact Follows.refl _)
    | with_reducible (apply Follows.ite)
    | with_reducible (apply Follows.ite_fst)
    | with_reducible (apply refuse_follows)
    | with_reducible (apply done_follows)
    | with_reducible (apply discardStaged_follows)

theorem mbTakeOut_follows {a₀ s : State} (r : Follows a₀ s) (x : MbCtx) (cls : Nat) (inst : Nat) :
    Follows a₀ (mbTakeOut x cls inst s).1 := by
  unfold mbTakeOut
  try dsimp only
  repeat' first
    | with_reducible (assumption)
    | with_reducible (exact Follows.refl _)
    | with_reducible (apply Follows.ite)
    | with_reducible (apply Follows.ite_fst)
    | with_reducible (apply takeOut_follows)
    | with_reducible (apply refuse_follows)
    | with_reducible (apply startOper_follows)
    | split
    | (refine Follows.of_fst (by assumption) ?_)
    | (refine Follows.of_snd (by assumption) ?_)
    | intro

theorem mbReturnPart_follows {a₀ s : State} (r : Follows a₀ s) (x : MbCtx) (cls : Nat) (inst : Nat) :
    Follows a₀ (mbReturnPart x cls inst s).1 := by
  unfold mbReturnPart
  try dsimp only
  repeat' first
    | with_reducible (assumption)
    | with_reducible (exact Follows.refl _)
    | with_reducible (apply Follows.ite)
    | with_reducible (apply Follows.ite_fst)
    | with_reducible (apply putBack_follows)
    | with_reducible (apply refuse_follows)
    | with_reducible (apply startOper_follows)
    | split
    | (refine Follows.of_fst (by assumption) ?_)
    | (refine Follows.of_snd (by assumption) ?_)
    | intro

theorem mbRunTest_follows {a₀ s : State} (r : Follows a₀ s) (x : MbCtx) (cls : Nat) (inst : Nat) (code : Nat) :
    Follows a₀ (mbRunTest x cls inst code s).1 := by
  unfold mbRunTest
  try dsimp only
  repeat' first
    | with_reducible (assumption)
    | with_reducible (exact Follows.refl _)
    | with_reducible (apply Follows.ite)
    | with_reducible (apply Follows.ite_fst)
    | with_reducible (apply updPart_follows)
    | with_reducible (apply takeOut_follows)
    | with_reducible (apply refuse_follows)
    | with_reducible (apply startOper_follows)
    | split
    | (refine Follows.of_fst (by assumption) ?_)
    | (refine Follows.of_snd (by assumption) ?_)
    | intro

theorem mbEngineRecall_follows {a₀ s : State} (r : Follows a₀ s) (_x : MbCtx) (cls : Nat) (inst : Nat) :
    Follows a₀ (mbEngineRecall _x cls inst s).1 := by
  unfold mbEngineRecall
  try dsimp only
  repeat' first
    | with_reducible (assumption)
    | with_reducible (exact Follows.refl _)
    | with_reducible (apply Follows.ite)
    | with_reducible (apply Follows.ite_fst)
    | with_reducible (apply engineRecall_follows)
    | with_reducible (apply refuse_follows)
    | with_reducible (apply done_follows)

theorem mbSetTime_follows {a₀ s : State} (r : Follows a₀ s) (_x : MbCtx) (t : Nat) :
    Follows a₀ (mbSetTime _x t s).1 := by
  unfold mbSetTime
  try dsimp only
  repeat' first
    | with_reducible (assumption)
    | with_reducible (exact Follows.refl _)
    | with_reducible (apply stepTime_follows)
    | with_reducible (apply done_follows)
    | with_reducible (apply Follows.onTime)
    | with_reducible rfl

theorem mbGetTime_follows {a₀ s : State} (r : Follows a₀ s) (_x : MbCtx) :
    Follows a₀ (mbGetTime _x s).1 := by
  unfold mbGetTime
  try dsimp only
  repeat' first
    | with_reducible (assumption)
    | with_reducible (exact Follows.refl _)
    | with_reducible (apply done_follows)

theorem mbInstallKey_follows {a₀ s : State} (r : Follows a₀ s) (_x : MbCtx) (idx : Nat) (principal : Nat) (key : Nat) :
    Follows a₀ (mbInstallKey _x idx principal key s).1 := by
  unfold mbInstallKey
  try dsimp only
  repeat' first
    | with_reducible (assumption)
    | with_reducible (exact Follows.refl _)
    | with_reducible (apply Follows.ite)
    | with_reducible (apply Follows.ite_fst)
    | with_reducible (apply refuse_follows)
    | with_reducible (apply done_follows)
    | with_reducible (apply Follows.onCfg)

theorem mbRemoveKey_follows {a₀ s : State} (r : Follows a₀ s) (_x : MbCtx) (idx : Nat) :
    Follows a₀ (mbRemoveKey _x idx s).1 := by
  unfold mbRemoveKey
  try dsimp only
  repeat' first
    | with_reducible (assumption)
    | with_reducible (exact Follows.refl _)
    | with_reducible (apply Follows.ite)
    | with_reducible (apply Follows.ite_fst)
    | with_reducible (apply refuse_follows)
    | with_reducible (apply done_follows)
    | with_reducible (apply Follows.onCfg)

theorem mbDebugPolicy_follows {a₀ s : State} (r : Follows a₀ s) (_x : MbCtx) (p : Nat) :
    Follows a₀ (mbDebugPolicy _x p s).1 := by
  unfold mbDebugPolicy
  try dsimp only
  repeat' first
    | with_reducible (assumption)
    | with_reducible (exact Follows.refl _)
    | with_reducible (apply Follows.ite)
    | with_reducible (apply Follows.ite_fst)
    | with_reducible (apply done_follows)
    | with_reducible (apply endSession_follows)
    | with_reducible (apply Follows.onCfg)

theorem mbRevokeUnlock_follows {a₀ s : State} (r : Follows a₀ s) (_x : MbCtx) :
    Follows a₀ (mbRevokeUnlock _x s).1 := by
  unfold mbRevokeUnlock
  try dsimp only
  repeat' first
    | with_reducible (assumption)
    | with_reducible (exact Follows.refl _)
    | with_reducible (apply Follows.ite)
    | with_reducible (apply Follows.ite_fst)
    | with_reducible (apply done_follows)
    | with_reducible (apply endSession_follows)

theorem mbRun_follows {a₀ s : State} (r : Follows a₀ s) (x : MbCtx) (c : MbCmd) :
    Follows a₀ (mbRun x c s).1 := by
  unfold mbRun
  try dsimp only
  repeat' first
    | with_reducible (assumption)
    | with_reducible (exact Follows.refl _)
    | with_reducible (apply mbGetSetting_follows)
    | with_reducible (apply mbSetSetting_follows)
    | with_reducible (apply mbIdentify_follows)
    | with_reducible (apply mbGetAlarms_follows)
    | with_reducible (apply mbClearAlarm_follows)
    | with_reducible (apply mbChangeMode_follows)
    | with_reducible (apply mbModuleReset_follows)
    | with_reducible (apply mbControllerReset_follows)
    | with_reducible (apply mbOperationStatus_follows)
    | with_reducible (apply mbOperationCancel_follows)
    | with_reducible (apply mbSetPortAddresses_follows)
    | with_reducible (apply mbWriteIndirectionTable_follows)
    | with_reducible (apply mbWriteDscpTables_follows)
    | with_reducible (apply mbAssociationReset_follows)
    | with_reducible (apply mbListAssociations_follows)
    | with_reducible (apply mbPrincipalCreate_follows)
    | with_reducible (apply mbPrincipalModify_follows)
    | with_reducible (apply mbPrincipalRemove_follows)
    | with_reducible (apply mbPrincipalList_follows)
    | with_reducible (apply mbGenerateUnitKey_follows)
    | with_reducible (apply mbInstallCertificate_follows)
    | with_reducible (apply mbSetCredential_follows)
    | with_reducible (apply mbArrayCreate_follows)
    | with_reducible (apply mbArrayDelete_follows)
    | with_reducible (apply mbAssignDrive_follows)
    | with_reducible (apply mbMarkFailed_follows)
    | with_reducible (apply mbArrayStatus_follows)
    | with_reducible (apply mbListLost_follows)
    | with_reducible (apply mbListPatrol_follows)
    | with_reducible (apply mbImportArray_follows)
    | with_reducible (apply mbVolumeCreate_follows)
    | with_reducible (apply mbVolumeDelete_follows)
    | with_reducible (apply mbVolumeResize_follows)
    | with_reducible (apply mbCopyStart_follows)
    | with_reducible (apply mbCopyCutover_follows)
    | with_reducible (apply mbListMap_follows)
    | with_reducible (apply mbWriteGateList_follows)
    | with_reducible (apply mbReadGateList_follows)
    | with_reducible (apply mbSetPolicy_follows)
    | with_reducible (apply mbClearQueues_follows)
    | with_reducible (apply mbSetWitnessAddress_follows)
    | with_reducible (apply mbSetWitnessKey_follows)
    | with_reducible (apply mbHandover_follows)
    | with_reducible (apply mbStartProof_follows)
    | with_reducible (apply mbClearMarks_follows)
    | with_reducible (apply mbReadDivergence_follows)
    | with_reducible (apply mbPairStatus_follows)
    | with_reducible (apply mbBayPower_follows)
    | with_reducible (apply mbRemovalRequest_follows)
    | with_reducible (apply mbLocate_follows)
    | with_reducible (apply mbPowerState_follows)
    | with_reducible (apply mbPowerStatus_follows)
    | with_reducible (apply mbExportSwatch_follows)
    | with_reducible (apply mbWriteSwatch_follows)
    | with_reducible (apply mbReadAudit_follows)
    | with_reducible (apply mbExportAudit_follows)
    | with_reducible (apply mbSealAudit_follows)
    | with_reducible (apply mbReadObject_follows)
    | with_reducible (apply mbFreeze_follows)
    | with_reducible (apply mbReleaseFreeze_follows)
    | with_reducible (apply mbStageSegment_follows)
    | with_reducible (apply mbVerifyImage_follows)
    | with_reducible (apply mbActivate_follows)
    | with_reducible (apply mbDiscardImage_follows)
    | with_reducible (apply mbTakeOut_follows)
    | with_reducible (apply mbReturnPart_follows)
    | with_reducible (apply mbRunTest_follows)
    | with_reducible (apply mbEngineRecall_follows)
    | with_reducible (apply mbSetTime_follows)
    | with_reducible (apply mbGetTime_follows)
    | with_reducible (apply mbInstallKey_follows)
    | with_reducible (apply mbRemoveKey_follows)
    | with_reducible (apply mbDebugPolicy_follows)
    | with_reducible (apply mbRevokeUnlock_follows)
    | split

theorem afterResult_follows {a₀ s : State} (r : Follows a₀ s) (a : MbAfter) :
    Follows a₀ (afterResult a s) := by
  unfold afterResult
  try dsimp only
  repeat' first
    | with_reducible (assumption)
    | with_reducible (exact Follows.refl _)
    | with_reducible (apply Follows.ite)
    | with_reducible (apply handAll_follows)
    | with_reducible (apply moduleReset_follows)
    | with_reducible (apply afterHandover_follows)
    | with_reducible (apply Follows.onAudit)
    | with_reducible rfl
    | rfl
    | exact id
    | exact List.length_modify ..
    | exact List.length_mapIdx ..
    | exact List.length_map ..
    | exact List.length_set ..
    | split

theorem mbFinish_follows {a₀ s : State} (r : Follows a₀ s) (x : Slot) (r : MbRes) :
    Follows a₀ (mbFinish x r s) := by
  unfold mbFinish
  try dsimp only
  repeat' first
    | with_reducible (assumption)
    | with_reducible (exact Follows.refl _)
    | with_reducible (apply Follows.ite)
    | with_reducible (apply auditPush_follows)
    | with_reducible (apply stitchResult_follows)
    | with_reducible (apply putResult_follows)
    | with_reducible (apply afterResult_follows)

theorem updSlot_follows {a₀ s : State} (r : Follows a₀ s) (path : Nat) (slot : Nat) (f : Slot → Slot) :
    Follows a₀ (updSlot path slot f s) := by
  unfold updSlot
  try dsimp only
  repeat' first
    | with_reducible (assumption)
    | with_reducible (exact Follows.refl _)
    | with_reducible (apply Follows.onMbx)

theorem mbExecute_follows {a₀ s : State} (r : Follows a₀ s) (path : Nat) (slot : Nat) (c : MbCmd) (lead : Bool) (op : Option Nat) :
    Follows a₀ (mbExecute path slot c lead op s) := by
  unfold mbExecute
  try dsimp only
  repeat' first
    | with_reducible (assumption)
    | with_reducible (exact Follows.refl _)
    | with_reducible (apply Follows.ite)
    | with_reducible (apply stitchResult_follows)
    | with_reducible (apply settleSlots_follows)
    | with_reducible (apply mbRun_follows)
    | with_reducible (apply mbFinish_follows)
    | with_reducible (apply updSlot_follows)
    | split

theorem proposeCmd_follows {a₀ s : State} (r : Follows a₀ s) (x : Slot) :
    Follows a₀ (proposeCmd x s) := by
  unfold proposeCmd
  try dsimp only
  repeat' first
    | with_reducible (assumption)
    | with_reducible (exact Follows.refl _)
    | with_reducible (apply issueStitch_follows)
    | with_reducible (apply Follows.onPair)
    | with_reducible rfl

theorem mbRoute_follows {a₀ s : State} (r : Follows a₀ s) (x : Slot) (c : MbCmd) :
    Follows a₀ (mbRoute x c s) := by
  unfold mbRoute
  try dsimp only
  repeat' first
    | with_reducible (assumption)
    | with_reducible (exact Follows.refl _)
    | with_reducible (apply Follows.ite)
    | with_reducible (apply mbFinish_follows)
    | with_reducible (apply updSlot_follows)
    | with_reducible (apply mbExecute_follows)
    | with_reducible (apply proposeCmd_follows)

theorem mbCounted_follows {a₀ s : State} (r : Follows a₀ s) (path : Nat) (slot : Nat) (tag : Nat) (opcode : Nat) (code : Nat) :
    Follows a₀ (mbCounted path slot tag opcode code s) := by
  unfold mbCounted
  try dsimp only
  repeat' first
    | with_reducible (assumption)
    | with_reducible (exact Follows.refl _)
    | with_reducible (apply Follows.ite)
    | with_reducible (apply Follows.onMbx)

theorem mbReceive_follows {a₀ s : State} (r : Follows a₀ s) (x : Slot) (cmd : Option MbCmd) (fieldsOk : Bool) :
    Follows a₀ (mbReceive x cmd fieldsOk s) := by
  unfold mbReceive
  try dsimp only
  repeat' first
    | with_reducible (assumption)
    | with_reducible (exact Follows.refl _)
    | with_reducible (apply Follows.ite)
    | with_reducible (apply mbFinish_follows)
    | with_reducible (apply mbRoute_follows)
    | with_reducible (apply mbCounted_follows)
    | with_reducible (apply Follows.onMbx)
    | split

theorem mbPost_follows {a₀ s : State} (r : Follows a₀ s) (f : MbF) (opcode : Nat) (cmd : Option MbCmd) :
    Follows a₀ (mbPost f opcode cmd s) := by
  unfold mbPost
  try dsimp only
  repeat' first
    | with_reducible (assumption)
    | with_reducible (exact Follows.refl _)
    | with_reducible (apply Follows.ite)
    | with_reducible (apply mbReceive_follows)
    | with_reducible (apply Follows.onMbx)
    | split

theorem mailbox_follows {a₀ s : State} (r : Follows a₀ s) (f : MbF) (c : MbCmd) :
    Follows a₀ (mailbox f c s) := by
  unfold mailbox
  try dsimp only
  repeat' first
    | with_reducible (assumption)
    | with_reducible (exact Follows.refl _)
    | with_reducible (apply mbPost_follows)

theorem takeResult_follows {a₀ s : State} (r : Follows a₀ s) (path : Nat) (slot : Nat) :
    Follows a₀ (takeResult path slot s) := by
  unfold takeResult
  try dsimp only
  repeat' first
    | with_reducible (assumption)
    | with_reducible (exact Follows.refl _)
    | with_reducible (apply freeSlot_follows)
    | with_reducible (apply Follows.onMbx)
    | split

theorem closeSession_follows {a₀ s : State} (r : Follows a₀ s) (k : Nat) :
    Follows a₀ (closeSession k s) := by
  unfold closeSession
  try dsimp only
  repeat' first
    | with_reducible (assumption)
    | with_reducible (exact Follows.refl _)
    | with_reducible (apply orphanSlots_follows)
    | with_reducible (apply Follows.onMbx)

theorem placeResult_follows {a₀ s : State} (r : Follows a₀ s) (c : Cmd) (x : Slot) :
    Follows a₀ (placeResult c x s) := by
  unfold placeResult
  try dsimp only
  repeat' first
    | with_reducible (assumption)
    | with_reducible (exact Follows.refl _)
    | with_reducible (apply freeSlot_follows)
    | with_reducible (apply placeAdmin_follows)
    | split

theorem placeRefusal_follows {a₀ s : State} (r : Follows a₀ s) (c : Cmd) (f : MbFrame) (code : Nat) :
    Follows a₀ (placeRefusal c f code s) := by
  unfold placeRefusal
  try dsimp only
  repeat' first
    | with_reducible (assumption)
    | with_reducible (exact Follows.refl _)
    | with_reducible (apply placeAdmin_follows)
    | with_reducible (apply Follows.onMbx)

theorem postInband_follows {a₀ s : State} (r : Follows a₀ s) (a : Assoc) (c : Cmd) (f : MbFrame) :
    Follows a₀ (postInband a c f s) := by
  unfold postInband
  try dsimp only
  repeat' first
    | with_reducible (assumption)
    | with_reducible (exact Follows.refl _)
    | with_reducible (apply Follows.ite)
    | with_reducible (apply updCmd_follows)
    | with_reducible (apply mbReceive_follows)
    | with_reducible (apply placeResult_follows)
    | with_reducible (apply placeRefusal_follows)
    | with_reducible (apply Follows.onMbx)
    | split

theorem dropStale_follows {a₀ s : State} (r : Follows a₀ s) :
    Follows a₀ (dropStale s) := by
  unfold dropStale
  try dsimp only
  repeat' first
    | with_reducible (assumption)
    | with_reducible (exact Follows.refl _)
    | with_reducible (apply Follows.onMbx)

theorem panelPost_follows {a₀ s : State} (r : Follows a₀ s) (c : MbCmd) :
    Follows a₀ (panelPost c s) := by
  unfold panelPost
  try dsimp only
  repeat' first
    | with_reducible (assumption)
    | with_reducible (exact Follows.refl _)
    | with_reducible (apply mailbox_follows)
    | with_reducible (apply Follows.onBays)
    | exact Bays.Powered.same rfl
    | with_reducible rfl

theorem lightUp_follows {a₀ s : State} (r : Follows a₀ s) :
    Follows a₀ (lightUp s) := by
  unfold lightUp
  try dsimp only
  repeat' first
    | with_reducible (assumption)
    | with_reducible (exact Follows.refl _)
    | with_reducible (apply Follows.onBays)
    | exact Bays.Powered.same rfl
    | with_reducible rfl

theorem countCancelled_follows {a₀ s : State} (r : Follows a₀ s) (a : Assoc) (c : Cmd) :
    Follows a₀ (countCancelled a c s) := by
  unfold countCancelled
  try dsimp only
  repeat' first
    | with_reducible (assumption)
    | with_reducible (exact Follows.refl _)
    | with_reducible (apply Follows.ite)
    | with_reducible (apply updAssoc_follows)

theorem playArrival_follows {a₀ s : State} (r : Follows a₀ s) (h : StHdr) (row : Nat) (qid : Nat) (cid : Nat) (opcode : Nat) (lane : Nat) (disp : Nat) (source : Nat) (nsid : Nat) (blocks : Nat) (slba : Nat) (status : Nat) :
    Follows a₀ (playArrival h row qid cid opcode lane disp source nsid blocks slba status s) := by
  unfold playArrival
  repeat' first
    | with_reducible (assumption)
    | with_reducible (exact Follows.refl _)
    | (lift_lets; intro x; clear_value x)
    | dsimp only [x]
    | with_reducible (apply Follows.ite)
    | with_reducible (apply updAssoc_follows)
    | with_reducible (apply updCmd_follows)
    | with_reducible (apply finish_follows)
    | with_reducible (apply cmdViolation_follows)
    | with_reducible (apply dropPush_follows)
    | with_reducible (apply confirmWrite_follows)
    | with_reducible (apply countCancelled_follows)
    | with_reducible (apply Follows.onIo)
    | split

theorem playAbort_follows {a₀ s : State} (r : Follows a₀ s) (h : StHdr) (row : Nat) (kind : Nat) (abortRow : Nat) :
    Follows a₀ (playAbort h row kind abortRow s) := by
  unfold playAbort
  try dsimp only
  repeat' first
    | with_reducible (assumption)
    | with_reducible (exact Follows.refl _)
    | with_reducible (apply Follows.ite)
    | with_reducible (apply finish_follows)
    | with_reducible (apply resetCommands_follows)
    | with_reducible (apply resetContext_follows)

theorem playDelivered_follows {a₀ s : State} (r : Follows a₀ s) (h : StHdr) (row : Nat) (status : Nat) :
    Follows a₀ (playDelivered h row status s) := by
  unfold playDelivered
  try dsimp only
  repeat' first
    | with_reducible (assumption)
    | with_reducible (exact Follows.refl _)
    | with_reducible (apply finish_follows)

theorem playZone_follows {a₀ s : State} (r : Follows a₀ s) (h : StHdr) (row : Nat) (key : Nat) (mib : Nat) :
    Follows a₀ (playZone h row key mib s) := by
  unfold playZone
  try dsimp only
  repeat' first
    | with_reducible (assumption)
    | with_reducible (exact Follows.refl _)
    | with_reducible (apply Follows.ite)
    | with_reducible (apply updAssoc_follows)
    | with_reducible (apply finish_follows)

theorem drainStep_follows {a₀ s : State} (r : Follows a₀ s) (dc : Nat) (a : Arr) :
    Follows a₀ (drainStep dc s a) := by
  unfold drainStep
  try dsimp only
  repeat' first
    | with_reducible (assumption)
    | with_reducible (exact Follows.refl _)
    | with_reducible (apply Follows.ite)
    | with_reducible (apply updArr_follows)
    | with_reducible (apply cleanOrders_follows)
    | split

theorem playDrive_follows {a₀ s : State} (r : Follows a₀ s) (h : StHdr) (row : Nat) (dc : Nat) (bay : Nat) (outcome : Nat) (status : Nat) :
    Follows a₀ (playDrive h row dc bay outcome status s) := by
  unfold playDrive
  try dsimp only
  repeat' first
    | with_reducible (assumption)
    | with_reducible (exact Follows.refl _)
    | with_reducible (apply Follows.ite)
    | with_reducible (apply updAssoc_follows)
    | with_reducible (apply finish_follows)
    | with_reducible (apply settleMedia_follows)
    | with_reducible (apply drainStep_follows)
    | with_reducible (apply Follows.foldl)
    | split
    | (refine Follows.of_fst (by assumption) ?_)
    | (refine Follows.of_snd (by assumption) ?_)
    | intro

theorem playWritePlan_follows {a₀ s : State} (r : Follows a₀ s) (h : StHdr) (row : Nat) (vol : Nat) (method : Nat) (engine : Nat) (dcs : List (Nat × Nat)) :
    Follows a₀ (playWritePlan h row vol method engine dcs s) := by
  unfold playWritePlan
  try dsimp only
  repeat' first
    | with_reducible (assumption)
    | with_reducible (exact Follows.refl _)
    | with_reducible (apply updArr_follows)
    | split

theorem playBitmap_follows {a₀ s : State} (r : Follows a₀ s) (h : StHdr) (isSet : Bool) (regions : List Nat) :
    Follows a₀ (playBitmap h isSet regions s) := by
  unfold playBitmap
  try dsimp only
  repeat' first
    | with_reducible (assumption)
    | with_reducible (exact Follows.refl _)
    | with_reducible (apply Follows.ite)
    | with_reducible (apply updArr_follows)

theorem playMember_follows {a₀ s : State} (r : Follows a₀ s) (h : StHdr) (pos : Nat) (st : MemberState) (gen : Nat) (bay : Nat) (keepers : List Nat) :
    Follows a₀ (playMember h pos st gen bay keepers s) := by
  unfold playMember
  try dsimp only
  repeat' first
    | with_reducible (assumption)
    | with_reducible (exact Follows.refl _)
    | with_reducible (apply Follows.ite)
    | with_reducible (apply updArr_follows)
    | with_reducible (apply updDrive_follows)
    | with_reducible (apply fwEvent_follows)
    | with_reducible (apply markLabels_follows)
    | with_reducible (apply joinRebuild_follows)
    | split

theorem playLost_follows {a₀ s : State} (r : Follows a₀ s) (h : StHdr) (row : Nat) (pos : Nat) (reason : Nat) (first : Nat) (cnt : Nat) (time : Nat) :
    Follows a₀ (playLost h row pos reason first cnt time s) := by
  unfold playLost
  try dsimp only
  repeat' first
    | with_reducible (assumption)
    | with_reducible (exact Follows.refl _)
    | with_reducible (apply Follows.ite)
    | with_reducible (apply updArr_follows)
    | with_reducible (apply fwEvent_follows)
    | with_reducible (apply raiseAll_follows)
    | with_reducible (apply Follows.foldl)
    | split
    | (refine Follows.of_fst (by assumption) ?_)
    | (refine Follows.of_snd (by assumption) ?_)
    | intro

end Sys2Proof.Machine
end

