-- ==== Sys2Proof/Laws/Ops8.lean ====
section
/-! SUPPORT. What each shared operation keeps, from playPatrol to releaseHoldOf. -/

namespace Sys2Proof.Machine

theorem playPatrol_follows {a₀ s : State} (r : Follows a₀ s) (h : StHdr) (row : Nat) (blk : Nat) (mask : Nat) (reported : Bool) :
    Follows a₀ (playPatrol h row blk mask reported s) := by
  unfold playPatrol
  try dsimp only
  repeat' first
    | with_reducible (assumption)
    | with_reducible (exact Follows.refl _)
    | with_reducible (apply Follows.ite)
    | with_reducible (apply updArr_follows)
    | with_reducible (apply fwEvent_follows)

theorem noteJournal_follows {a₀ s : State} (r : Follows a₀ s) (arr : Nat) (recs : List JRec) :
    Follows a₀ (noteJournal arr recs s) := by
  unfold noteJournal
  try dsimp only
  repeat' first
    | with_reducible (assumption)
    | with_reducible (exact Follows.refl _)
    | with_reducible (apply updArr_follows)
    | with_reducible (apply Follows.foldl)
    | split
    | (refine Follows.of_fst (by assumption) ?_)
    | (refine Follows.of_snd (by assumption) ?_)
    | intro

theorem openSkeinAs_follows {a₀ s : State} (r : Follows a₀ s) (arr : Nat) (vol : Nat) (skein : Nat) (frog : Bool) :
    Follows a₀ (openSkeinAs arr vol skein frog s) := by
  unfold openSkeinAs
  try dsimp only
  repeat' first
    | with_reducible (assumption)
    | with_reducible (exact Follows.refl _)
    | with_reducible (apply Follows.ite)
    | with_reducible (apply updArr_follows)
    | with_reducible (apply updVol_follows)
    | with_reducible (apply updExt_follows)
    | split

theorem playRow_follows {a₀ s : State} (r : Follows a₀ s) (h : StHdr) (vol : Nat) (skein : Nat) (row : Nat) (chunks : List (Nat × Nat × Nat × Nat)) :
    Follows a₀ (playRow h vol skein row chunks s) := by
  unfold playRow
  try dsimp only
  repeat' first
    | with_reducible (assumption)
    | with_reducible (exact Follows.refl _)
    | with_reducible (apply Follows.ite)
    | with_reducible (apply updVol_follows)
    | with_reducible (apply updExt_follows)
    | with_reducible (apply openSkeinAs_follows)
    | with_reducible (apply Follows.foldl)
    | split

theorem playCommit_follows {a₀ s : State} (r : Follows a₀ s) (h : StHdr) (vol : Nat) (skein : Nat) (row : Nat) (entries : List (Nat × Nat × Nat)) :
    Follows a₀ (playCommit h vol skein row entries s) := by
  unfold playCommit
  try dsimp only
  repeat' first
    | with_reducible (assumption)
    | with_reducible (exact Follows.refl _)
    | with_reducible (apply Follows.ite)
    | with_reducible (apply updVol_follows)
    | with_reducible (apply settleMedia_follows)
    | with_reducible (apply cleanOrders_follows)
    | with_reducible (apply updExt_follows)
    | with_reducible (apply setEntry_follows)
    | with_reducible (apply noteJournal_follows)
    | with_reducible (apply Follows.foldl)
    | split
    | (refine Follows.of_fst (by assumption) ?_)
    | (refine Follows.of_snd (by assumption) ?_)
    | intro

theorem playCheckpoint_follows {a₀ s : State} (r : Follows a₀ s) (h : StHdr) (n : Nat) (isEnd : Bool) :
    Follows a₀ (playCheckpoint h n isEnd s) := by
  unfold playCheckpoint
  try dsimp only
  repeat' first
    | with_reducible (assumption)
    | with_reducible (exact Follows.refl _)
    | with_reducible (apply Follows.ite)
    | with_reducible (apply updArr_follows)
    | with_reducible (apply noteJournal_follows)
    | with_reducible (apply Follows.onIo)

theorem playFrog_follows {a₀ s : State} (r : Follows a₀ s) (h : StHdr) (vol : Nat) (kind : Nat) (skein : Nat) :
    Follows a₀ (playFrog h vol kind skein s) := by
  unfold playFrog
  try dsimp only
  repeat' first
    | with_reducible (assumption)
    | with_reducible (exact Follows.refl _)
    | with_reducible (apply updVol_follows)
    | with_reducible (apply updExt_follows)
    | split

theorem playTimer_follows {a₀ s : State} (r : Follows a₀ s) (code : Nat) (obj : Nat) :
    Follows a₀ (playTimer code obj s) := by
  unfold playTimer
  try dsimp only
  repeat' first
    | with_reducible (assumption)
    | with_reducible (exact Follows.refl _)
    | with_reducible (apply Follows.ite)
    | with_reducible (apply updAssoc_follows)

theorem playDeferred_follows {a₀ s : State} (r : Follows a₀ s) (h : StHdr) (lba : Nat) (nsid : Nat) (cnt : Nat) (row : Nat) (cause : Nat) :
    Follows a₀ (playDeferred h lba nsid cnt row cause s) := by
  unfold playDeferred
  try dsimp only
  repeat' first
    | with_reducible (assumption)
    | with_reducible (exact Follows.refl _)
    | with_reducible (apply recordDwe_follows)

theorem playAssoc_follows {a₀ s : State} (r : Follows a₀ s) (h : StHdr) (kind : Nat) (c : AssocCtx) :
    Follows a₀ (playAssoc h kind c s) := by
  unfold playAssoc
  try dsimp only
  repeat' first
    | with_reducible (assumption)
    | with_reducible (exact Follows.refl _)
    | with_reducible (apply Follows.ite)
    | with_reducible (apply updAssoc_follows)
    | with_reducible (apply issueStitch_follows)
    | with_reducible (apply releaseAssoc_follows)
    | with_reducible (apply Follows.onIo)
    | split

theorem playAssocState_follows {a₀ s : State} (r : Follows a₀ s) (h : StHdr) (kind : Nat) :
    Follows a₀ (playAssocState h kind s) := by
  unfold playAssocState
  try dsimp only
  repeat' first
    | with_reducible (assumption)
    | with_reducible (exact Follows.refl _)
    | with_reducible (apply Follows.ite)
    | with_reducible (apply updAssoc_follows)
    | with_reducible (apply updCmd_follows)
    | with_reducible (apply issueStitch_follows)
    | with_reducible (apply tryOrder_follows)
    | with_reducible (apply forwardCmd_follows)
    | with_reducible (apply Follows.foldl)
    | split
    | (refine Follows.of_fst (by assumption) ?_)
    | (refine Follows.of_snd (by assumption) ?_)
    | intro

theorem playLease_follows {a₀ s : State} (r : Follows a₀ s) (h : StHdr) (epoch : Nat) (shadowed : Bool) (successor : Nat) :
    Follows a₀ (playLease h epoch shadowed successor s) := by
  unfold playLease
  try dsimp only
  repeat' first
    | with_reducible (assumption)
    | with_reducible (exact Follows.refl _)
    | with_reducible (apply Follows.ite)
    | with_reducible (apply updLease_follows)
    | with_reducible (apply gainLease_follows)

theorem playCopy_follows {a₀ s : State} (r : Follows a₀ s) (op : Nat) (pass : Nat) (range : Nat) :
    Follows a₀ (playCopy op pass range s) := by
  unfold playCopy
  try dsimp only
  repeat' first
    | with_reducible (assumption)
    | with_reducible (exact Follows.refl _)
    | with_reducible (apply Follows.ite)
    | with_reducible (apply endOper_follows)
    | with_reducible (apply updCopy_follows)
    | with_reducible (apply Follows.onIo)
    | split

theorem playProposal_follows {a₀ s : State} (r : Follows a₀ s) (h : StHdr) (path : Nat) (principal : Nat) (f : MbFrame) :
    Follows a₀ (playProposal h path principal f s) := by
  unfold playProposal
  try dsimp only
  repeat' first
    | with_reducible (assumption)
    | with_reducible (exact Follows.refl _)
    | with_reducible (apply Follows.ite)
    | with_reducible (apply mbFinish_follows)
    | with_reducible (apply mbExecute_follows)
    | with_reducible (apply Follows.onMbx)
    | split

theorem applyResult_follows {a₀ s : State} (r : Follows a₀ s) (x : Slot) (mine : Bool) (c : MbCmd) (code : Nat) (value : Nat) :
    Follows a₀ (applyResult x mine c code value s) := by
  unfold applyResult
  try dsimp only
  repeat' first
    | with_reducible (assumption)
    | with_reducible (exact Follows.refl _)
    | with_reducible (apply Follows.ite)
    | with_reducible (apply auditPush_follows)
    | with_reducible (apply putResult_follows)
    | with_reducible (apply mbRun_follows)
    | with_reducible (apply Follows.onPair)
    | with_reducible rfl
    | rfl
    | exact id
    | exact List.length_modify ..
    | exact List.length_mapIdx ..
    | exact List.length_map ..
    | exact List.length_set ..
    | split

theorem playResult_follows {a₀ s : State} (r : Follows a₀ s) (h : StHdr) (path : Nat) (principal : Nat) (f : MbFrame) (code : Nat) (value : Nat) :
    Follows a₀ (playResult h path principal f code value s) := by
  unfold playResult
  try dsimp only
  repeat' first
    | with_reducible (assumption)
    | with_reducible (exact Follows.refl _)
    | with_reducible (apply Follows.ite)
    | with_reducible (apply auditPush_follows)
    | with_reducible (apply putResult_follows)
    | with_reducible (apply stepTime_follows)
    | with_reducible (apply updSlot_follows)
    | with_reducible (apply mbExecute_follows)
    | with_reducible (apply applyResult_follows)
    | with_reducible (apply Follows.onMbx)
    | with_reducible (apply Follows.onPair)
    | with_reducible rfl
    | rfl
    | exact id
    | exact List.length_modify ..
    | exact List.length_mapIdx ..
    | exact List.length_map ..
    | exact List.length_set ..
    | split

theorem playInternal_follows {a₀ s : State} (r : Follows a₀ s) (kind : Nat) (value : Nat) :
    Follows a₀ (playInternal kind value s) := by
  unfold playInternal
  try dsimp only
  repeat' first
    | with_reducible (assumption)
    | with_reducible (exact Follows.refl _)
    | with_reducible (apply Follows.ite)
    | with_reducible (apply newBudget_follows)
    | with_reducible (apply enterPs1_follows)
    | with_reducible (apply beginPs2_follows)
    | with_reducible (apply exitPs_follows)
    | with_reducible (apply Follows.onPair)
    | with_reducible rfl
    | rfl
    | exact id
    | exact List.length_modify ..
    | exact List.length_mapIdx ..
    | exact List.length_map ..
    | exact List.length_set ..
    | split

theorem playSetting_follows {a₀ s : State} (r : Follows a₀ s) (h : StHdr) (proposal : Bool) (internal : Bool) (path : Nat) (principal : Nat) (f : MbFrame) (code : Nat) (kind : Nat) (value : Nat) :
    Follows a₀ (playSetting h proposal internal path principal f code kind value s) := by
  unfold playSetting
  try dsimp only
  repeat' first
    | with_reducible (assumption)
    | with_reducible (exact Follows.refl _)
    | with_reducible (apply Follows.ite)
    | with_reducible (apply playProposal_follows)
    | with_reducible (apply playResult_follows)
    | with_reducible (apply playInternal_follows)

theorem playStitch_follows {a₀ s : State} (r : Follows a₀ s) (i : Instr) :
    Follows a₀ (playStitch i s) := by
  unfold playStitch
  try dsimp only
  repeat' first
    | with_reducible (assumption)
    | with_reducible (exact Follows.refl _)
    | with_reducible (apply Follows.ite)
    | with_reducible (apply recordViolation_follows)
    | with_reducible (apply playArrival_follows)
    | with_reducible (apply playAbort_follows)
    | with_reducible (apply playDelivered_follows)
    | with_reducible (apply playZone_follows)
    | with_reducible (apply playDrive_follows)
    | with_reducible (apply playWritePlan_follows)
    | with_reducible (apply playBitmap_follows)
    | with_reducible (apply playMember_follows)
    | with_reducible (apply playLost_follows)
    | with_reducible (apply playPatrol_follows)
    | with_reducible (apply playRow_follows)
    | with_reducible (apply playCommit_follows)
    | with_reducible (apply playCheckpoint_follows)
    | with_reducible (apply playFrog_follows)
    | with_reducible (apply playTimer_follows)
    | with_reducible (apply playDeferred_follows)
    | with_reducible (apply playAssoc_follows)
    | with_reducible (apply playAssocState_follows)
    | with_reducible (apply playLease_follows)
    | with_reducible (apply playCopy_follows)
    | with_reducible (apply playSetting_follows)
    | split

theorem followTime_follows {a₀ s : State} (r : Follows a₀ s) (h : StHdr) :
    Follows a₀ (followTime h s) := by
  unfold followTime
  try dsimp only
  repeat' first
    | with_reducible (assumption)
    | with_reducible (exact Follows.refl _)
    | with_reducible (apply Follows.ite)
    | with_reducible (apply State.drawn_follows)
    | with_reducible (apply Follows.onTime)
    | with_reducible rfl

theorem judgeLag_follows {a₀ s : State} (r : Follows a₀ s) (h : StHdr) :
    Follows a₀ (judgeLag h s) := by
  unfold judgeLag
  try dsimp only
  repeat' first
    | with_reducible (assumption)
    | with_reducible (exact Follows.refl _)
    | with_reducible (apply Follows.ite)
    | with_reducible (apply fwEvent_follows)
    | with_reducible (apply pairFault_follows)
    | with_reducible (apply withdraw_follows)
    | with_reducible (apply Follows.onPair)
    | with_reducible rfl

theorem ackStitch_follows {a₀ s : State} (r : Follows a₀ s) :
    Follows a₀ (ackStitch s) := by
  unfold ackStitch
  try dsimp only
  repeat' first
    | with_reducible (assumption)
    | with_reducible (exact Follows.refl _)
    | with_reducible (apply State.drawn_follows)
    | with_reducible (apply sendYarn_follows)

theorem sendDigest_follows {a₀ s : State} (r : Follows a₀ s) :
    Follows a₀ (sendDigest s) := by
  unfold sendDigest
  try dsimp only
  repeat' first
    | with_reducible (assumption)
    | with_reducible (exact Follows.refl _)
    | with_reducible (apply Follows.ite)
    | with_reducible (apply sendYarn_follows)
    | with_reducible (apply Follows.onPair)
    | with_reducible rfl

theorem newStreams_follows {a₀ s : State} (r : Follows a₀ s) :
    Follows a₀ (newStreams s) := by
  unfold newStreams
  try dsimp only
  repeat' first
    | with_reducible (assumption)
    | with_reducible (exact Follows.refl _)
    | with_reducible (apply Follows.onPair)
    | with_reducible rfl

theorem abandonCastOn_follows {a₀ s : State} (r : Follows a₀ s) :
    Follows a₀ (abandonCastOn s) := by
  unfold abandonCastOn
  try dsimp only
  repeat' first
    | with_reducible (assumption)
    | with_reducible (exact Follows.refl _)
    | with_reducible (apply Follows.ite)
    | with_reducible (apply Follows.onPair)
    | with_reducible rfl

theorem clearPicture_follows {a₀ s : State} (r : Follows a₀ s) :
    Follows a₀ (clearPicture s) := by
  unfold clearPicture
  try dsimp only
  repeat' first
    | with_reducible (assumption)
    | with_reducible (exact Follows.refl _)
    | with_reducible (apply dropHosts_follows)
    | with_reducible (apply Follows.onIo)

theorem restartCastOn_follows {a₀ s : State} (r : Follows a₀ s) (c : CastOn) :
    Follows a₀ (restartCastOn c s) := by
  unfold restartCastOn
  try dsimp only
  repeat' first
    | with_reducible (assumption)
    | with_reducible (exact Follows.refl _)
    | with_reducible (apply Follows.ite)
    | with_reducible (apply sendYarn_follows)
    | with_reducible (apply newStreams_follows)
    | with_reducible (apply abandonCastOn_follows)
    | with_reducible (apply clearPicture_follows)
    | with_reducible (apply Follows.onPair)
    | with_reducible rfl

theorem bufferStitch_follows {a₀ s : State} (r : Follows a₀ s) (c : CastOn) (bytes : Nat) (i : Instr) :
    Follows a₀ (bufferStitch c bytes i s) := by
  unfold bufferStitch
  try dsimp only
  repeat' first
    | with_reducible (assumption)
    | with_reducible (exact Follows.refl _)
    | with_reducible (apply Follows.ite)
    | with_reducible (apply restartCastOn_follows)
    | with_reducible (apply Follows.onPair)
    | with_reducible rfl

theorem replay_follows {a₀ s : State} (r : Follows a₀ s) (h : StHdr) (body : Nat) (i : Instr) :
    Follows a₀ (replay h body i s) := by
  unfold replay
  try dsimp only
  repeat' first
    | with_reducible (assumption)
    | with_reducible (exact Follows.refl _)
    | with_reducible (apply Follows.ite)
    | with_reducible (apply yarnFreed_follows)
    | with_reducible (apply playStitch_follows)
    | with_reducible (apply followTime_follows)
    | with_reducible (apply judgeLag_follows)
    | with_reducible (apply ackStitch_follows)
    | with_reducible (apply sendDigest_follows)
    | with_reducible (apply bufferStitch_follows)
    | with_reducible (apply Follows.onPair)
    | with_reducible rfl
    | rfl
    | exact id
    | exact List.length_modify ..
    | exact List.length_mapIdx ..
    | exact List.length_map ..
    | exact List.length_set ..
    | split

theorem adoptShelf_follows {a₀ s : State} (r : Follows a₀ s) :
    Follows a₀ (adoptShelf s) := by
  unfold adoptShelf
  try dsimp only
  repeat' first
    | with_reducible (assumption)
    | with_reducible (exact Follows.refl _)
    | with_reducible (apply Follows.ite)
    | with_reducible (apply Follows.onMd)

theorem warmStandby_follows {a₀ s : State} (r : Follows a₀ s) :
    Follows a₀ (warmStandby s) := by
  unfold warmStandby
  try dsimp only
  repeat' first
    | with_reducible (assumption)
    | with_reducible (exact Follows.refl _)
    | with_reducible (apply Follows.ite)
    | with_reducible (apply clearPicture_follows)
    | with_reducible (apply Follows.onMd)
    | with_reducible (apply Follows.onPair)
    | with_reducible rfl
    | rfl
    | exact id
    | exact List.length_modify ..
    | exact List.length_mapIdx ..
    | exact List.length_map ..

theorem beginCastOn_follows {a₀ s : State} (r : Follows a₀ s) (joiner : Bool) :
    Follows a₀ (beginCastOn joiner s) := by
  unfold beginCastOn
  try dsimp only
  repeat' first
    | with_reducible (assumption)
    | with_reducible (exact Follows.refl _)
    | with_reducible (apply Follows.ite)
    | with_reducible (apply fwEvent_follows)
    | with_reducible (apply queryAll_follows)
    | with_reducible (apply adoptShelf_follows)
    | with_reducible (apply warmStandby_follows)
    | with_reducible (apply Follows.onPair)
    | with_reducible rfl
    | rfl
    | exact id
    | exact List.length_modify ..
    | exact List.length_mapIdx ..
    | exact List.length_map ..
    | exact List.length_set ..
    | split

theorem sendCast_follows {a₀ s : State} (r : Follows a₀ s) (seg : CastSeg) :
    Follows a₀ (sendCast s seg) := by
  unfold sendCast
  try dsimp only
  repeat' first
    | with_reducible (assumption)
    | with_reducible (exact Follows.refl _)
    | with_reducible (apply sendYarn_follows)

theorem sendContexts_follows {a₀ s : State} (r : Follows a₀ s) :
    Follows a₀ (sendContexts s) := by
  unfold sendContexts
  try dsimp only
  repeat' first
    | with_reducible (assumption)
    | with_reducible (exact Follows.refl _)
    | with_reducible (apply sendCast_follows)
    | with_reducible (apply Follows.foldl)
    | split
    | (refine Follows.of_fst (by assumption) ?_)
    | (refine Follows.of_snd (by assumption) ?_)
    | intro

theorem sendPicture_follows {a₀ s : State} (r : Follows a₀ s) :
    Follows a₀ (sendPicture s) := by
  unfold sendPicture
  try dsimp only
  repeat' first
    | with_reducible (assumption)
    | with_reducible (exact Follows.refl _)
    | with_reducible (apply sendCast_follows)
    | with_reducible (apply Follows.foldl)
    | split
    | (refine Follows.of_fst (by assumption) ?_)
    | (refine Follows.of_snd (by assumption) ?_)
    | intro

theorem takeSettings_follows {a₀ s : State} (r : Follows a₀ s) (l : List (Nat × Nat × Int)) :
    Follows a₀ (takeSettings l s) := by
  unfold takeSettings
  try dsimp only
  repeat' first
    | with_reducible (assumption)
    | with_reducible (exact Follows.refl _)
    | with_reducible (apply fwEvent_follows)
    | with_reducible (apply Follows.onCfg)
    | with_reducible (apply Follows.foldl)
    | split
    | (refine Follows.of_fst (by assumption) ?_)
    | (refine Follows.of_snd (by assumption) ?_)
    | intro

theorem takeValue_follows {a₀ s : State} (r : Follows a₀ s) (differs : Bool) (f : Cfg → Cfg) :
    Follows a₀ (takeValue differs f s) := by
  unfold takeValue
  try dsimp only
  repeat' first
    | with_reducible (assumption)
    | with_reducible (exact Follows.refl _)
    | with_reducible (apply Follows.ite)
    | with_reducible (apply fwEvent_follows)
    | with_reducible (apply Follows.onCfg)

theorem castArray_follows {a₀ s : State} (r : Follows a₀ s) (arr : Nat) (lay : Nat) (strip : Nat) (size : Nat) (gen : Nat) (id : Nat) (created : Nat) (pos : List CastPos) (keepers : List Nat) :
    Follows a₀ (castArray arr lay strip size gen id created pos keepers s) := by
  unfold castArray
  try dsimp only
  repeat' first
    | with_reducible (assumption)
    | with_reducible (exact Follows.refl _)
    | with_reducible (apply Follows.ite)
    | with_reducible (apply updDrive_follows)
    | with_reducible (apply markLabels_follows)
    | with_reducible (apply Follows.onIo)
    | with_reducible (apply Follows.foldl)
    | split
    | (refine Follows.of_fst (by assumption) ?_)
    | (refine Follows.of_snd (by assumption) ?_)
    | intro

theorem castDirty_follows {a₀ s : State} (r : Follows a₀ s) (vol : Nat) (lba : Nat) (b : Blk) (assoc : Nat) (row : Nat) :
    Follows a₀ (castDirty vol lba b assoc row s) := by
  unfold castDirty
  try dsimp only
  repeat' first
    | with_reducible (assumption)
    | with_reducible (exact Follows.refl _)
    | with_reducible (apply Follows.onIo)

theorem closeClass_follows {a₀ s : State} (r : Follows a₀ s) (cls : Nat) (num : Nat) :
    Follows a₀ (closeClass cls num s) := by
  unfold closeClass
  try dsimp only
  repeat' first
    | with_reducible (assumption)
    | with_reducible (exact Follows.refl _)
    | with_reducible (apply Follows.ite)
    | with_reducible (apply playStitch_follows)
    | with_reducible (apply Follows.onPair)
    | with_reducible (apply Follows.foldl)
    | with_reducible rfl
    | rfl
    | exact id
    | exact List.length_modify ..
    | exact List.length_mapIdx ..
    | exact List.length_map ..
    | exact List.length_set ..
    | split
    | (refine Follows.of_fst (by assumption) ?_)
    | (refine Follows.of_snd (by assumption) ?_)
    | intro

theorem takeCast_follows {a₀ s : State} (r : Follows a₀ s) (seg : CastSeg) (num : Nat) :
    Follows a₀ (takeCast seg num s) := by
  unfold takeCast
  try dsimp only
  repeat' first
    | with_reducible (assumption)
    | with_reducible (exact Follows.refl _)
    | with_reducible (apply Follows.ite)
    | with_reducible (apply updAssoc_follows)
    | with_reducible (apply updArr_follows)
    | with_reducible (apply updVol_follows)
    | with_reducible (apply updExt_follows)
    | with_reducible (apply touchPage_follows)
    | with_reducible (apply importVolume_follows)
    | with_reducible (apply done_follows)
    | with_reducible (apply replay_follows)
    | with_reducible (apply takeSettings_follows)
    | with_reducible (apply takeValue_follows)
    | with_reducible (apply castArray_follows)
    | with_reducible (apply castDirty_follows)
    | with_reducible (apply closeClass_follows)
    | with_reducible (apply Follows.onIo)
    | split

theorem endServing_follows {a₀ s : State} (r : Follows a₀ s) (c : CastOn) :
    Follows a₀ (endServing c s) := by
  unfold endServing
  try dsimp only
  repeat' first
    | with_reducible (assumption)
    | with_reducible (exact Follows.refl _)
    | with_reducible (apply updLease_follows)
    | with_reducible (apply issueStitch_follows)
    | with_reducible (apply renew_follows)
    | with_reducible (apply Follows.onMd)
    | with_reducible (apply Follows.onPair)
    | with_reducible (apply Follows.foldl)
    | with_reducible rfl
    | rfl
    | exact id
    | exact List.length_modify ..
    | exact List.length_mapIdx ..
    | exact List.length_map ..
    | exact List.length_set ..
    | split
    | (refine Follows.of_fst (by assumption) ?_)
    | (refine Follows.of_snd (by assumption) ?_)
    | intro

theorem endJoining_follows {a₀ s : State} (r : Follows a₀ s) :
    Follows a₀ (endJoining s) := by
  unfold endJoining
  try dsimp only
  repeat' first
    | with_reducible (assumption)
    | with_reducible (exact Follows.refl _)
    | with_reducible (apply Follows.ite)
    | with_reducible (apply Follows.onMd)
    | with_reducible (apply Follows.onIo)
    | with_reducible (apply Follows.onPair)
    | with_reducible rfl
    | rfl
    | exact id
    | exact List.length_modify ..
    | exact List.length_mapIdx ..
    | exact List.length_map ..

theorem putStep_follows {a₀ s : State} (r : Follows a₀ s) (n : Nat) (c : CastOn) :
    Follows a₀ (putStep n c s) := by
  unfold putStep
  try dsimp only
  repeat' first
    | with_reducible (assumption)
    | with_reducible (exact Follows.refl _)
    | with_reducible (apply Follows.onPair)
    | with_reducible rfl

theorem ddpRequest_follows {a₀ s : State} (r : Follows a₀ s) (q : Nat) (type : Nat) (body : State → State) (hbody : ∀ (z : State), Follows z (body z)) :
    Follows a₀ (ddpRequest q type body s) := by
  unfold ddpRequest
  try dsimp only
  repeat' first
    | with_reducible (assumption)
    | with_reducible (exact Follows.refl _)
    | with_reducible (apply Follows.ite)
    | with_reducible (apply Follows.cut; (apply hbody))
    | with_reducible (apply ddpAnswer_follows)
    | with_reducible (apply endSession_follows)
    | with_reducible (apply Follows.onDbg)
    | with_reducible rfl
    | rfl
    | exact id
    | exact List.length_modify ..
    | exact List.length_mapIdx ..
    | exact List.length_map ..
    | exact List.length_set ..
    | split

theorem haltNow_follows {a₀ s : State} (r : Follows a₀ s) (q : Nat) (n : Nat) :
    Follows a₀ (haltNow q n s) := by
  unfold haltNow
  try dsimp only
  repeat' first
    | with_reducible (assumption)
    | with_reducible (exact Follows.refl _)
    | with_reducible (apply Follows.ite)
    | with_reducible (apply ddpAnswer_follows)
    | with_reducible (apply debugEntry_follows)
    | with_reducible (apply haltCore_follows)
    | with_reducible (apply Follows.onDbg)
    | with_reducible rfl
    | rfl
    | exact id

theorem takeHold_follows {a₀ s : State} (r : Follows a₀ s) (q : Nat) (n : Nat) :
    Follows a₀ (takeHold q n s) := by
  unfold takeHold
  try dsimp only
  repeat' first
    | with_reducible (assumption)
    | with_reducible (exact Follows.refl _)
    | with_reducible (apply Follows.ite)
    | with_reducible (apply handAll_follows)
    | with_reducible (apply ddpAnswer_follows)
    | with_reducible (apply afterHandover_follows)
    | with_reducible (apply Follows.onDbg)
    | with_reducible rfl
    | rfl
    | exact id

theorem noteWrite_follows {a₀ s : State} (r : Follows a₀ s) (space : Nat) (obj : Nat) :
    Follows a₀ (noteWrite space obj s) := by
  unfold noteWrite
  try dsimp only
  repeat' first
    | with_reducible (assumption)
    | with_reducible (exact Follows.refl _)
    | with_reducible (apply Follows.ite)
    | with_reducible (apply debugEntry_follows)
    | with_reducible (apply Follows.onDbg)
    | with_reducible rfl
    | rfl
    | exact id

theorem releaseHoldOf_follows {a₀ s : State} (r : Follows a₀ s) (core : Nat) :
    Follows a₀ (releaseHoldOf core s) := by
  unfold releaseHoldOf
  try dsimp only
  repeat' first
    | with_reducible (assumption)
    | with_reducible (exact Follows.refl _)
    | with_reducible (apply Follows.ite)
    | with_reducible (apply debugHoldFails_follows)
    | with_reducible (apply releaseHold_follows)

theorem resumeStalled_follows {a₀ s : State} (r : Follows a₀ s) (port n : Nat) : Follows a₀ (resumeStalled port n s) := by
  induction n generalizing s with
  | zero => exact r
  | succ n ih =>
    unfold resumeStalled
    dsimp only
    split
    · exact r
    · exact Follows.ite r (ih (parseFrame_follows (updParser_follows r _ _) _))

end Sys2Proof.Machine
end

