-- ==== Sys2Proof/Laws/State.lean ====
section
/-! SUPPORT. Each update of one part of the state, read back part by part. -/

namespace Sys2Proof.Machine

@[simp] theorem State.onTime_time (f : Time → Time) (s : State) : (s.onTime f).time = f s.time := rfl
@[simp] theorem State.onTime_md (f : Time → Time) (s : State) : (s.onTime f).md = s.md := rfl
@[simp] theorem State.onTime_io (f : Time → Time) (s : State) : (s.onTime f).io = s.io := rfl
@[simp] theorem State.onTime_pair (f : Time → Time) (s : State) : (s.onTime f).pair = s.pair := rfl
@[simp] theorem State.onTime_sw (f : Time → Time) (s : State) : (s.onTime f).sw = s.sw := rfl
@[simp] theorem State.onTime_bays (f : Time → Time) (s : State) : (s.onTime f).bays = s.bays := rfl
@[simp] theorem State.onTime_cfg (f : Time → Time) (s : State) : (s.onTime f).cfg = s.cfg := rfl
@[simp] theorem State.onTime_mbx (f : Time → Time) (s : State) : (s.onTime f).mbx = s.mbx := rfl
@[simp] theorem State.onTime_audit (f : Time → Time) (s : State) : (s.onTime f).audit = s.audit := rfl
@[simp] theorem State.onTime_img (f : Time → Time) (s : State) : (s.onTime f).img = s.img := rfl
@[simp] theorem State.onTime_parts (f : Time → Time) (s : State) : (s.onTime f).parts = s.parts := rfl
@[simp] theorem State.onTime_dbg (f : Time → Time) (s : State) : (s.onTime f).dbg = s.dbg := rfl
@[simp] theorem State.onTime_free (f : Time → Time) (s : State) : (s.onTime f).free = s.free := rfl
@[simp] theorem State.onTime_pending (f : Time → Time) (s : State) : (s.onTime f).pending = s.pending := rfl
@[simp] theorem State.onMd_time (f : Md → Md) (s : State) : (s.onMd f).time = s.time := rfl
@[simp] theorem State.onMd_md (f : Md → Md) (s : State) : (s.onMd f).md = f s.md := rfl
@[simp] theorem State.onMd_io (f : Md → Md) (s : State) : (s.onMd f).io = s.io := rfl
@[simp] theorem State.onMd_pair (f : Md → Md) (s : State) : (s.onMd f).pair = s.pair := rfl
@[simp] theorem State.onMd_sw (f : Md → Md) (s : State) : (s.onMd f).sw = s.sw := rfl
@[simp] theorem State.onMd_bays (f : Md → Md) (s : State) : (s.onMd f).bays = s.bays := rfl
@[simp] theorem State.onMd_cfg (f : Md → Md) (s : State) : (s.onMd f).cfg = s.cfg := rfl
@[simp] theorem State.onMd_mbx (f : Md → Md) (s : State) : (s.onMd f).mbx = s.mbx := rfl
@[simp] theorem State.onMd_audit (f : Md → Md) (s : State) : (s.onMd f).audit = s.audit := rfl
@[simp] theorem State.onMd_img (f : Md → Md) (s : State) : (s.onMd f).img = s.img := rfl
@[simp] theorem State.onMd_parts (f : Md → Md) (s : State) : (s.onMd f).parts = s.parts := rfl
@[simp] theorem State.onMd_dbg (f : Md → Md) (s : State) : (s.onMd f).dbg = s.dbg := rfl
@[simp] theorem State.onMd_free (f : Md → Md) (s : State) : (s.onMd f).free = s.free := rfl
@[simp] theorem State.onMd_pending (f : Md → Md) (s : State) : (s.onMd f).pending = s.pending := rfl
@[simp] theorem State.onIo_time (f : Io → Io) (s : State) : (s.onIo f).time = s.time := rfl
@[simp] theorem State.onIo_md (f : Io → Io) (s : State) : (s.onIo f).md = s.md := rfl
@[simp] theorem State.onIo_io (f : Io → Io) (s : State) : (s.onIo f).io = f s.io := rfl
@[simp] theorem State.onIo_pair (f : Io → Io) (s : State) : (s.onIo f).pair = s.pair := rfl
@[simp] theorem State.onIo_sw (f : Io → Io) (s : State) : (s.onIo f).sw = s.sw := rfl
@[simp] theorem State.onIo_bays (f : Io → Io) (s : State) : (s.onIo f).bays = s.bays := rfl
@[simp] theorem State.onIo_cfg (f : Io → Io) (s : State) : (s.onIo f).cfg = s.cfg := rfl
@[simp] theorem State.onIo_mbx (f : Io → Io) (s : State) : (s.onIo f).mbx = s.mbx := rfl
@[simp] theorem State.onIo_audit (f : Io → Io) (s : State) : (s.onIo f).audit = s.audit := rfl
@[simp] theorem State.onIo_img (f : Io → Io) (s : State) : (s.onIo f).img = s.img := rfl
@[simp] theorem State.onIo_parts (f : Io → Io) (s : State) : (s.onIo f).parts = s.parts := rfl
@[simp] theorem State.onIo_dbg (f : Io → Io) (s : State) : (s.onIo f).dbg = s.dbg := rfl
@[simp] theorem State.onIo_free (f : Io → Io) (s : State) : (s.onIo f).free = s.free := rfl
@[simp] theorem State.onIo_pending (f : Io → Io) (s : State) : (s.onIo f).pending = s.pending := rfl
@[simp] theorem State.onPair_time (f : Pair → Pair) (s : State) : (s.onPair f).time = s.time := rfl
@[simp] theorem State.onPair_md (f : Pair → Pair) (s : State) : (s.onPair f).md = s.md := rfl
@[simp] theorem State.onPair_io (f : Pair → Pair) (s : State) : (s.onPair f).io = s.io := rfl
@[simp] theorem State.onPair_pair (f : Pair → Pair) (s : State) : (s.onPair f).pair = f s.pair := rfl
@[simp] theorem State.onPair_sw (f : Pair → Pair) (s : State) : (s.onPair f).sw = s.sw := rfl
@[simp] theorem State.onPair_bays (f : Pair → Pair) (s : State) : (s.onPair f).bays = s.bays := rfl
@[simp] theorem State.onPair_cfg (f : Pair → Pair) (s : State) : (s.onPair f).cfg = s.cfg := rfl
@[simp] theorem State.onPair_mbx (f : Pair → Pair) (s : State) : (s.onPair f).mbx = s.mbx := rfl
@[simp] theorem State.onPair_audit (f : Pair → Pair) (s : State) : (s.onPair f).audit = s.audit := rfl
@[simp] theorem State.onPair_img (f : Pair → Pair) (s : State) : (s.onPair f).img = s.img := rfl
@[simp] theorem State.onPair_parts (f : Pair → Pair) (s : State) : (s.onPair f).parts = s.parts := rfl
@[simp] theorem State.onPair_dbg (f : Pair → Pair) (s : State) : (s.onPair f).dbg = s.dbg := rfl
@[simp] theorem State.onPair_free (f : Pair → Pair) (s : State) : (s.onPair f).free = s.free := rfl
@[simp] theorem State.onPair_pending (f : Pair → Pair) (s : State) : (s.onPair f).pending = s.pending := rfl
@[simp] theorem State.onSw_time (f : Sw → Sw) (s : State) : (s.onSw f).time = s.time := rfl
@[simp] theorem State.onSw_md (f : Sw → Sw) (s : State) : (s.onSw f).md = s.md := rfl
@[simp] theorem State.onSw_io (f : Sw → Sw) (s : State) : (s.onSw f).io = s.io := rfl
@[simp] theorem State.onSw_pair (f : Sw → Sw) (s : State) : (s.onSw f).pair = s.pair := rfl
@[simp] theorem State.onSw_sw (f : Sw → Sw) (s : State) : (s.onSw f).sw = f s.sw := rfl
@[simp] theorem State.onSw_bays (f : Sw → Sw) (s : State) : (s.onSw f).bays = s.bays := rfl
@[simp] theorem State.onSw_cfg (f : Sw → Sw) (s : State) : (s.onSw f).cfg = s.cfg := rfl
@[simp] theorem State.onSw_mbx (f : Sw → Sw) (s : State) : (s.onSw f).mbx = s.mbx := rfl
@[simp] theorem State.onSw_audit (f : Sw → Sw) (s : State) : (s.onSw f).audit = s.audit := rfl
@[simp] theorem State.onSw_img (f : Sw → Sw) (s : State) : (s.onSw f).img = s.img := rfl
@[simp] theorem State.onSw_parts (f : Sw → Sw) (s : State) : (s.onSw f).parts = s.parts := rfl
@[simp] theorem State.onSw_dbg (f : Sw → Sw) (s : State) : (s.onSw f).dbg = s.dbg := rfl
@[simp] theorem State.onSw_free (f : Sw → Sw) (s : State) : (s.onSw f).free = s.free := rfl
@[simp] theorem State.onSw_pending (f : Sw → Sw) (s : State) : (s.onSw f).pending = s.pending := rfl
@[simp] theorem State.onBays_time (f : Bays → Bays) (s : State) : (s.onBays f).time = s.time := rfl
@[simp] theorem State.onBays_md (f : Bays → Bays) (s : State) : (s.onBays f).md = s.md := rfl
@[simp] theorem State.onBays_io (f : Bays → Bays) (s : State) : (s.onBays f).io = s.io := rfl
@[simp] theorem State.onBays_pair (f : Bays → Bays) (s : State) : (s.onBays f).pair = s.pair := rfl
@[simp] theorem State.onBays_sw (f : Bays → Bays) (s : State) : (s.onBays f).sw = s.sw := rfl
@[simp] theorem State.onBays_bays (f : Bays → Bays) (s : State) : (s.onBays f).bays = f s.bays := rfl
@[simp] theorem State.onBays_cfg (f : Bays → Bays) (s : State) : (s.onBays f).cfg = s.cfg := rfl
@[simp] theorem State.onBays_mbx (f : Bays → Bays) (s : State) : (s.onBays f).mbx = s.mbx := rfl
@[simp] theorem State.onBays_audit (f : Bays → Bays) (s : State) : (s.onBays f).audit = s.audit := rfl
@[simp] theorem State.onBays_img (f : Bays → Bays) (s : State) : (s.onBays f).img = s.img := rfl
@[simp] theorem State.onBays_parts (f : Bays → Bays) (s : State) : (s.onBays f).parts = s.parts := rfl
@[simp] theorem State.onBays_dbg (f : Bays → Bays) (s : State) : (s.onBays f).dbg = s.dbg := rfl
@[simp] theorem State.onBays_free (f : Bays → Bays) (s : State) : (s.onBays f).free = s.free := rfl
@[simp] theorem State.onBays_pending (f : Bays → Bays) (s : State) : (s.onBays f).pending = s.pending := rfl
@[simp] theorem State.onCfg_time (f : Cfg → Cfg) (s : State) : (s.onCfg f).time = s.time := rfl
@[simp] theorem State.onCfg_md (f : Cfg → Cfg) (s : State) : (s.onCfg f).md = s.md := rfl
@[simp] theorem State.onCfg_io (f : Cfg → Cfg) (s : State) : (s.onCfg f).io = s.io := rfl
@[simp] theorem State.onCfg_pair (f : Cfg → Cfg) (s : State) : (s.onCfg f).pair = s.pair := rfl
@[simp] theorem State.onCfg_sw (f : Cfg → Cfg) (s : State) : (s.onCfg f).sw = s.sw := rfl
@[simp] theorem State.onCfg_bays (f : Cfg → Cfg) (s : State) : (s.onCfg f).bays = s.bays := rfl
@[simp] theorem State.onCfg_cfg (f : Cfg → Cfg) (s : State) : (s.onCfg f).cfg = f s.cfg := rfl
@[simp] theorem State.onCfg_mbx (f : Cfg → Cfg) (s : State) : (s.onCfg f).mbx = s.mbx := rfl
@[simp] theorem State.onCfg_audit (f : Cfg → Cfg) (s : State) : (s.onCfg f).audit = s.audit := rfl
@[simp] theorem State.onCfg_img (f : Cfg → Cfg) (s : State) : (s.onCfg f).img = s.img := rfl
@[simp] theorem State.onCfg_parts (f : Cfg → Cfg) (s : State) : (s.onCfg f).parts = s.parts := rfl
@[simp] theorem State.onCfg_dbg (f : Cfg → Cfg) (s : State) : (s.onCfg f).dbg = s.dbg := rfl
@[simp] theorem State.onCfg_free (f : Cfg → Cfg) (s : State) : (s.onCfg f).free = s.free := rfl
@[simp] theorem State.onCfg_pending (f : Cfg → Cfg) (s : State) : (s.onCfg f).pending = s.pending := rfl
@[simp] theorem State.onMbx_time (f : Mbx → Mbx) (s : State) : (s.onMbx f).time = s.time := rfl
@[simp] theorem State.onMbx_md (f : Mbx → Mbx) (s : State) : (s.onMbx f).md = s.md := rfl
@[simp] theorem State.onMbx_io (f : Mbx → Mbx) (s : State) : (s.onMbx f).io = s.io := rfl
@[simp] theorem State.onMbx_pair (f : Mbx → Mbx) (s : State) : (s.onMbx f).pair = s.pair := rfl
@[simp] theorem State.onMbx_sw (f : Mbx → Mbx) (s : State) : (s.onMbx f).sw = s.sw := rfl
@[simp] theorem State.onMbx_bays (f : Mbx → Mbx) (s : State) : (s.onMbx f).bays = s.bays := rfl
@[simp] theorem State.onMbx_cfg (f : Mbx → Mbx) (s : State) : (s.onMbx f).cfg = s.cfg := rfl
@[simp] theorem State.onMbx_mbx (f : Mbx → Mbx) (s : State) : (s.onMbx f).mbx = f s.mbx := rfl
@[simp] theorem State.onMbx_audit (f : Mbx → Mbx) (s : State) : (s.onMbx f).audit = s.audit := rfl
@[simp] theorem State.onMbx_img (f : Mbx → Mbx) (s : State) : (s.onMbx f).img = s.img := rfl
@[simp] theorem State.onMbx_parts (f : Mbx → Mbx) (s : State) : (s.onMbx f).parts = s.parts := rfl
@[simp] theorem State.onMbx_dbg (f : Mbx → Mbx) (s : State) : (s.onMbx f).dbg = s.dbg := rfl
@[simp] theorem State.onMbx_free (f : Mbx → Mbx) (s : State) : (s.onMbx f).free = s.free := rfl
@[simp] theorem State.onMbx_pending (f : Mbx → Mbx) (s : State) : (s.onMbx f).pending = s.pending := rfl
@[simp] theorem State.onAudit_time (f : Audit → Audit) (s : State) : (s.onAudit f).time = s.time := rfl
@[simp] theorem State.onAudit_md (f : Audit → Audit) (s : State) : (s.onAudit f).md = s.md := rfl
@[simp] theorem State.onAudit_io (f : Audit → Audit) (s : State) : (s.onAudit f).io = s.io := rfl
@[simp] theorem State.onAudit_pair (f : Audit → Audit) (s : State) : (s.onAudit f).pair = s.pair := rfl
@[simp] theorem State.onAudit_sw (f : Audit → Audit) (s : State) : (s.onAudit f).sw = s.sw := rfl
@[simp] theorem State.onAudit_bays (f : Audit → Audit) (s : State) : (s.onAudit f).bays = s.bays := rfl
@[simp] theorem State.onAudit_cfg (f : Audit → Audit) (s : State) : (s.onAudit f).cfg = s.cfg := rfl
@[simp] theorem State.onAudit_mbx (f : Audit → Audit) (s : State) : (s.onAudit f).mbx = s.mbx := rfl
@[simp] theorem State.onAudit_audit (f : Audit → Audit) (s : State) : (s.onAudit f).audit = f s.audit := rfl
@[simp] theorem State.onAudit_img (f : Audit → Audit) (s : State) : (s.onAudit f).img = s.img := rfl
@[simp] theorem State.onAudit_parts (f : Audit → Audit) (s : State) : (s.onAudit f).parts = s.parts := rfl
@[simp] theorem State.onAudit_dbg (f : Audit → Audit) (s : State) : (s.onAudit f).dbg = s.dbg := rfl
@[simp] theorem State.onAudit_free (f : Audit → Audit) (s : State) : (s.onAudit f).free = s.free := rfl
@[simp] theorem State.onAudit_pending (f : Audit → Audit) (s : State) : (s.onAudit f).pending = s.pending := rfl
@[simp] theorem State.onImg_time (f : Image → Image) (s : State) : (s.onImg f).time = s.time := rfl
@[simp] theorem State.onImg_md (f : Image → Image) (s : State) : (s.onImg f).md = s.md := rfl
@[simp] theorem State.onImg_io (f : Image → Image) (s : State) : (s.onImg f).io = s.io := rfl
@[simp] theorem State.onImg_pair (f : Image → Image) (s : State) : (s.onImg f).pair = s.pair := rfl
@[simp] theorem State.onImg_sw (f : Image → Image) (s : State) : (s.onImg f).sw = s.sw := rfl
@[simp] theorem State.onImg_bays (f : Image → Image) (s : State) : (s.onImg f).bays = s.bays := rfl
@[simp] theorem State.onImg_cfg (f : Image → Image) (s : State) : (s.onImg f).cfg = s.cfg := rfl
@[simp] theorem State.onImg_mbx (f : Image → Image) (s : State) : (s.onImg f).mbx = s.mbx := rfl
@[simp] theorem State.onImg_audit (f : Image → Image) (s : State) : (s.onImg f).audit = s.audit := rfl
@[simp] theorem State.onImg_img (f : Image → Image) (s : State) : (s.onImg f).img = f s.img := rfl
@[simp] theorem State.onImg_parts (f : Image → Image) (s : State) : (s.onImg f).parts = s.parts := rfl
@[simp] theorem State.onImg_dbg (f : Image → Image) (s : State) : (s.onImg f).dbg = s.dbg := rfl
@[simp] theorem State.onImg_free (f : Image → Image) (s : State) : (s.onImg f).free = s.free := rfl
@[simp] theorem State.onImg_pending (f : Image → Image) (s : State) : (s.onImg f).pending = s.pending := rfl
@[simp] theorem State.onParts_time (f : List Part → List Part) (s : State) : (s.onParts f).time = s.time := rfl
@[simp] theorem State.onParts_md (f : List Part → List Part) (s : State) : (s.onParts f).md = s.md := rfl
@[simp] theorem State.onParts_io (f : List Part → List Part) (s : State) : (s.onParts f).io = s.io := rfl
@[simp] theorem State.onParts_pair (f : List Part → List Part) (s : State) : (s.onParts f).pair = s.pair := rfl
@[simp] theorem State.onParts_sw (f : List Part → List Part) (s : State) : (s.onParts f).sw = s.sw := rfl
@[simp] theorem State.onParts_bays (f : List Part → List Part) (s : State) : (s.onParts f).bays = s.bays := rfl
@[simp] theorem State.onParts_cfg (f : List Part → List Part) (s : State) : (s.onParts f).cfg = s.cfg := rfl
@[simp] theorem State.onParts_mbx (f : List Part → List Part) (s : State) : (s.onParts f).mbx = s.mbx := rfl
@[simp] theorem State.onParts_audit (f : List Part → List Part) (s : State) : (s.onParts f).audit = s.audit := rfl
@[simp] theorem State.onParts_img (f : List Part → List Part) (s : State) : (s.onParts f).img = s.img := rfl
@[simp] theorem State.onParts_parts (f : List Part → List Part) (s : State) : (s.onParts f).parts = f s.parts := rfl
@[simp] theorem State.onParts_dbg (f : List Part → List Part) (s : State) : (s.onParts f).dbg = s.dbg := rfl
@[simp] theorem State.onParts_free (f : List Part → List Part) (s : State) : (s.onParts f).free = s.free := rfl
@[simp] theorem State.onParts_pending (f : List Part → List Part) (s : State) : (s.onParts f).pending = s.pending := rfl
@[simp] theorem State.onDbg_time (f : Dbg → Dbg) (s : State) : (s.onDbg f).time = s.time := rfl
@[simp] theorem State.onDbg_md (f : Dbg → Dbg) (s : State) : (s.onDbg f).md = s.md := rfl
@[simp] theorem State.onDbg_io (f : Dbg → Dbg) (s : State) : (s.onDbg f).io = s.io := rfl
@[simp] theorem State.onDbg_pair (f : Dbg → Dbg) (s : State) : (s.onDbg f).pair = s.pair := rfl
@[simp] theorem State.onDbg_sw (f : Dbg → Dbg) (s : State) : (s.onDbg f).sw = s.sw := rfl
@[simp] theorem State.onDbg_bays (f : Dbg → Dbg) (s : State) : (s.onDbg f).bays = s.bays := rfl
@[simp] theorem State.onDbg_cfg (f : Dbg → Dbg) (s : State) : (s.onDbg f).cfg = s.cfg := rfl
@[simp] theorem State.onDbg_mbx (f : Dbg → Dbg) (s : State) : (s.onDbg f).mbx = s.mbx := rfl
@[simp] theorem State.onDbg_audit (f : Dbg → Dbg) (s : State) : (s.onDbg f).audit = s.audit := rfl
@[simp] theorem State.onDbg_img (f : Dbg → Dbg) (s : State) : (s.onDbg f).img = s.img := rfl
@[simp] theorem State.onDbg_parts (f : Dbg → Dbg) (s : State) : (s.onDbg f).parts = s.parts := rfl
@[simp] theorem State.onDbg_dbg (f : Dbg → Dbg) (s : State) : (s.onDbg f).dbg = f s.dbg := rfl
@[simp] theorem State.onDbg_free (f : Dbg → Dbg) (s : State) : (s.onDbg f).free = s.free := rfl
@[simp] theorem State.onDbg_pending (f : Dbg → Dbg) (s : State) : (s.onDbg f).pending = s.pending := rfl
@[simp] theorem State.drawn_time (s : State) : s.drawn.time = s.time := rfl
@[simp] theorem State.drawn_md (s : State) : s.drawn.md = s.md := rfl
@[simp] theorem State.drawn_io (s : State) : s.drawn.io = s.io := rfl
@[simp] theorem State.drawn_pair (s : State) : s.drawn.pair = s.pair := rfl
@[simp] theorem State.drawn_sw (s : State) : s.drawn.sw = s.sw := rfl
@[simp] theorem State.drawn_bays (s : State) : s.drawn.bays = s.bays := rfl
@[simp] theorem State.drawn_cfg (s : State) : s.drawn.cfg = s.cfg := rfl
@[simp] theorem State.drawn_mbx (s : State) : s.drawn.mbx = s.mbx := rfl
@[simp] theorem State.drawn_audit (s : State) : s.drawn.audit = s.audit := rfl
@[simp] theorem State.drawn_img (s : State) : s.drawn.img = s.img := rfl
@[simp] theorem State.drawn_parts (s : State) : s.drawn.parts = s.parts := rfl
@[simp] theorem State.drawn_dbg (s : State) : s.drawn.dbg = s.dbg := rfl
@[simp] theorem State.drawn_free (s : State) : s.drawn.free = s.free + 1 := rfl
@[simp] theorem State.drawn_pending (s : State) : s.drawn.pending = s.pending := rfl
@[simp] theorem updAssoc_time (a : Nat) (f : Assoc → Assoc) (s : State) : (updAssoc a f s).time = s.time := rfl
@[simp] theorem updAssoc_md (a : Nat) (f : Assoc → Assoc) (s : State) : (updAssoc a f s).md = s.md := rfl
@[simp] theorem updAssoc_pair (a : Nat) (f : Assoc → Assoc) (s : State) : (updAssoc a f s).pair = s.pair := rfl
@[simp] theorem updAssoc_sw (a : Nat) (f : Assoc → Assoc) (s : State) : (updAssoc a f s).sw = s.sw := rfl
@[simp] theorem updAssoc_bays (a : Nat) (f : Assoc → Assoc) (s : State) : (updAssoc a f s).bays = s.bays := rfl
@[simp] theorem updAssoc_cfg (a : Nat) (f : Assoc → Assoc) (s : State) : (updAssoc a f s).cfg = s.cfg := rfl
@[simp] theorem updAssoc_mbx (a : Nat) (f : Assoc → Assoc) (s : State) : (updAssoc a f s).mbx = s.mbx := rfl
@[simp] theorem updAssoc_audit (a : Nat) (f : Assoc → Assoc) (s : State) : (updAssoc a f s).audit = s.audit := rfl
@[simp] theorem updAssoc_img (a : Nat) (f : Assoc → Assoc) (s : State) : (updAssoc a f s).img = s.img := rfl
@[simp] theorem updAssoc_parts (a : Nat) (f : Assoc → Assoc) (s : State) : (updAssoc a f s).parts = s.parts := rfl
@[simp] theorem updAssoc_dbg (a : Nat) (f : Assoc → Assoc) (s : State) : (updAssoc a f s).dbg = s.dbg := rfl
@[simp] theorem updAssoc_free (a : Nat) (f : Assoc → Assoc) (s : State) : (updAssoc a f s).free = s.free := rfl
@[simp] theorem updAssoc_pending (a : Nat) (f : Assoc → Assoc) (s : State) : (updAssoc a f s).pending = s.pending := rfl
@[simp] theorem updCmd_time (a r : Nat) (f : Cmd → Cmd) (s : State) : (updCmd a r f s).time = s.time := rfl
@[simp] theorem updCmd_md (a r : Nat) (f : Cmd → Cmd) (s : State) : (updCmd a r f s).md = s.md := rfl
@[simp] theorem updCmd_pair (a r : Nat) (f : Cmd → Cmd) (s : State) : (updCmd a r f s).pair = s.pair := rfl
@[simp] theorem updCmd_sw (a r : Nat) (f : Cmd → Cmd) (s : State) : (updCmd a r f s).sw = s.sw := rfl
@[simp] theorem updCmd_bays (a r : Nat) (f : Cmd → Cmd) (s : State) : (updCmd a r f s).bays = s.bays := rfl
@[simp] theorem updCmd_cfg (a r : Nat) (f : Cmd → Cmd) (s : State) : (updCmd a r f s).cfg = s.cfg := rfl
@[simp] theorem updCmd_mbx (a r : Nat) (f : Cmd → Cmd) (s : State) : (updCmd a r f s).mbx = s.mbx := rfl
@[simp] theorem updCmd_audit (a r : Nat) (f : Cmd → Cmd) (s : State) : (updCmd a r f s).audit = s.audit := rfl
@[simp] theorem updCmd_img (a r : Nat) (f : Cmd → Cmd) (s : State) : (updCmd a r f s).img = s.img := rfl
@[simp] theorem updCmd_parts (a r : Nat) (f : Cmd → Cmd) (s : State) : (updCmd a r f s).parts = s.parts := rfl
@[simp] theorem updCmd_dbg (a r : Nat) (f : Cmd → Cmd) (s : State) : (updCmd a r f s).dbg = s.dbg := rfl
@[simp] theorem updCmd_free (a r : Nat) (f : Cmd → Cmd) (s : State) : (updCmd a r f s).free = s.free := rfl
@[simp] theorem updCmd_pending (a r : Nat) (f : Cmd → Cmd) (s : State) : (updCmd a r f s).pending = s.pending := rfl
@[simp] theorem updArr_time (n : Nat) (f : Arr → Arr) (s : State) : (updArr n f s).time = s.time := rfl
@[simp] theorem updArr_md (n : Nat) (f : Arr → Arr) (s : State) : (updArr n f s).md = s.md := rfl
@[simp] theorem updArr_pair (n : Nat) (f : Arr → Arr) (s : State) : (updArr n f s).pair = s.pair := rfl
@[simp] theorem updArr_sw (n : Nat) (f : Arr → Arr) (s : State) : (updArr n f s).sw = s.sw := rfl
@[simp] theorem updArr_bays (n : Nat) (f : Arr → Arr) (s : State) : (updArr n f s).bays = s.bays := rfl
@[simp] theorem updArr_cfg (n : Nat) (f : Arr → Arr) (s : State) : (updArr n f s).cfg = s.cfg := rfl
@[simp] theorem updArr_mbx (n : Nat) (f : Arr → Arr) (s : State) : (updArr n f s).mbx = s.mbx := rfl
@[simp] theorem updArr_audit (n : Nat) (f : Arr → Arr) (s : State) : (updArr n f s).audit = s.audit := rfl
@[simp] theorem updArr_img (n : Nat) (f : Arr → Arr) (s : State) : (updArr n f s).img = s.img := rfl
@[simp] theorem updArr_parts (n : Nat) (f : Arr → Arr) (s : State) : (updArr n f s).parts = s.parts := rfl
@[simp] theorem updArr_dbg (n : Nat) (f : Arr → Arr) (s : State) : (updArr n f s).dbg = s.dbg := rfl
@[simp] theorem updArr_free (n : Nat) (f : Arr → Arr) (s : State) : (updArr n f s).free = s.free := rfl
@[simp] theorem updArr_pending (n : Nat) (f : Arr → Arr) (s : State) : (updArr n f s).pending = s.pending := rfl
@[simp] theorem updVol_time (n : Nat) (f : Volume → Volume) (s : State) : (updVol n f s).time = s.time := rfl
@[simp] theorem updVol_md (n : Nat) (f : Volume → Volume) (s : State) : (updVol n f s).md = s.md := rfl
@[simp] theorem updVol_pair (n : Nat) (f : Volume → Volume) (s : State) : (updVol n f s).pair = s.pair := rfl
@[simp] theorem updVol_sw (n : Nat) (f : Volume → Volume) (s : State) : (updVol n f s).sw = s.sw := rfl
@[simp] theorem updVol_bays (n : Nat) (f : Volume → Volume) (s : State) : (updVol n f s).bays = s.bays := rfl
@[simp] theorem updVol_cfg (n : Nat) (f : Volume → Volume) (s : State) : (updVol n f s).cfg = s.cfg := rfl
@[simp] theorem updVol_mbx (n : Nat) (f : Volume → Volume) (s : State) : (updVol n f s).mbx = s.mbx := rfl
@[simp] theorem updVol_audit (n : Nat) (f : Volume → Volume) (s : State) : (updVol n f s).audit = s.audit := rfl
@[simp] theorem updVol_img (n : Nat) (f : Volume → Volume) (s : State) : (updVol n f s).img = s.img := rfl
@[simp] theorem updVol_parts (n : Nat) (f : Volume → Volume) (s : State) : (updVol n f s).parts = s.parts := rfl
@[simp] theorem updVol_dbg (n : Nat) (f : Volume → Volume) (s : State) : (updVol n f s).dbg = s.dbg := rfl
@[simp] theorem updVol_free (n : Nat) (f : Volume → Volume) (s : State) : (updVol n f s).free = s.free := rfl
@[simp] theorem updVol_pending (n : Nat) (f : Volume → Volume) (s : State) : (updVol n f s).pending = s.pending := rfl
@[simp] theorem updDc_time (n : Nat) (f : DrvCmd → DrvCmd) (s : State) : (updDc n f s).time = s.time := rfl
@[simp] theorem updDc_md (n : Nat) (f : DrvCmd → DrvCmd) (s : State) : (updDc n f s).md = s.md := rfl
@[simp] theorem updDc_pair (n : Nat) (f : DrvCmd → DrvCmd) (s : State) : (updDc n f s).pair = s.pair := rfl
@[simp] theorem updDc_sw (n : Nat) (f : DrvCmd → DrvCmd) (s : State) : (updDc n f s).sw = s.sw := rfl
@[simp] theorem updDc_bays (n : Nat) (f : DrvCmd → DrvCmd) (s : State) : (updDc n f s).bays = s.bays := rfl
@[simp] theorem updDc_cfg (n : Nat) (f : DrvCmd → DrvCmd) (s : State) : (updDc n f s).cfg = s.cfg := rfl
@[simp] theorem updDc_mbx (n : Nat) (f : DrvCmd → DrvCmd) (s : State) : (updDc n f s).mbx = s.mbx := rfl
@[simp] theorem updDc_audit (n : Nat) (f : DrvCmd → DrvCmd) (s : State) : (updDc n f s).audit = s.audit := rfl
@[simp] theorem updDc_img (n : Nat) (f : DrvCmd → DrvCmd) (s : State) : (updDc n f s).img = s.img := rfl
@[simp] theorem updDc_parts (n : Nat) (f : DrvCmd → DrvCmd) (s : State) : (updDc n f s).parts = s.parts := rfl
@[simp] theorem updDc_dbg (n : Nat) (f : DrvCmd → DrvCmd) (s : State) : (updDc n f s).dbg = s.dbg := rfl
@[simp] theorem updDc_free (n : Nat) (f : DrvCmd → DrvCmd) (s : State) : (updDc n f s).free = s.free := rfl
@[simp] theorem updDc_pending (n : Nat) (f : DrvCmd → DrvCmd) (s : State) : (updDc n f s).pending = s.pending := rfl
@[simp] theorem updChan_time (n : Nat) (f : Chan → Chan) (s : State) : (updChan n f s).time = s.time := rfl
@[simp] theorem updChan_md (n : Nat) (f : Chan → Chan) (s : State) : (updChan n f s).md = s.md := rfl
@[simp] theorem updChan_io (n : Nat) (f : Chan → Chan) (s : State) : (updChan n f s).io = s.io := rfl
@[simp] theorem updChan_pair (n : Nat) (f : Chan → Chan) (s : State) : (updChan n f s).pair = s.pair := rfl
@[simp] theorem updChan_sw (n : Nat) (f : Chan → Chan) (s : State) : (updChan n f s).sw = s.sw := rfl
@[simp] theorem updChan_cfg (n : Nat) (f : Chan → Chan) (s : State) : (updChan n f s).cfg = s.cfg := rfl
@[simp] theorem updChan_mbx (n : Nat) (f : Chan → Chan) (s : State) : (updChan n f s).mbx = s.mbx := rfl
@[simp] theorem updChan_audit (n : Nat) (f : Chan → Chan) (s : State) : (updChan n f s).audit = s.audit := rfl
@[simp] theorem updChan_img (n : Nat) (f : Chan → Chan) (s : State) : (updChan n f s).img = s.img := rfl
@[simp] theorem updChan_parts (n : Nat) (f : Chan → Chan) (s : State) : (updChan n f s).parts = s.parts := rfl
@[simp] theorem updChan_dbg (n : Nat) (f : Chan → Chan) (s : State) : (updChan n f s).dbg = s.dbg := rfl
@[simp] theorem updChan_free (n : Nat) (f : Chan → Chan) (s : State) : (updChan n f s).free = s.free := rfl
@[simp] theorem updChan_pending (n : Nat) (f : Chan → Chan) (s : State) : (updChan n f s).pending = s.pending := rfl
@[simp] theorem updDrive_time (n : Nat) (f : Drive → Drive) (s : State) : (updDrive n f s).time = s.time := rfl
@[simp] theorem updDrive_md (n : Nat) (f : Drive → Drive) (s : State) : (updDrive n f s).md = s.md := rfl
@[simp] theorem updDrive_io (n : Nat) (f : Drive → Drive) (s : State) : (updDrive n f s).io = s.io := rfl
@[simp] theorem updDrive_pair (n : Nat) (f : Drive → Drive) (s : State) : (updDrive n f s).pair = s.pair := rfl
@[simp] theorem updDrive_sw (n : Nat) (f : Drive → Drive) (s : State) : (updDrive n f s).sw = s.sw := rfl
@[simp] theorem updDrive_cfg (n : Nat) (f : Drive → Drive) (s : State) : (updDrive n f s).cfg = s.cfg := rfl
@[simp] theorem updDrive_mbx (n : Nat) (f : Drive → Drive) (s : State) : (updDrive n f s).mbx = s.mbx := rfl
@[simp] theorem updDrive_audit (n : Nat) (f : Drive → Drive) (s : State) : (updDrive n f s).audit = s.audit := rfl
@[simp] theorem updDrive_img (n : Nat) (f : Drive → Drive) (s : State) : (updDrive n f s).img = s.img := rfl
@[simp] theorem updDrive_parts (n : Nat) (f : Drive → Drive) (s : State) : (updDrive n f s).parts = s.parts := rfl
@[simp] theorem updDrive_dbg (n : Nat) (f : Drive → Drive) (s : State) : (updDrive n f s).dbg = s.dbg := rfl
@[simp] theorem updDrive_free (n : Nat) (f : Drive → Drive) (s : State) : (updDrive n f s).free = s.free := rfl
@[simp] theorem updDrive_pending (n : Nat) (f : Drive → Drive) (s : State) : (updDrive n f s).pending = s.pending := rfl
@[simp] theorem updLease_time (n : Nat) (f : Lease → Lease) (s : State) : (updLease n f s).time = s.time := rfl
@[simp] theorem updLease_md (n : Nat) (f : Lease → Lease) (s : State) : (updLease n f s).md = s.md := rfl
@[simp] theorem updLease_io (n : Nat) (f : Lease → Lease) (s : State) : (updLease n f s).io = s.io := rfl
@[simp] theorem updLease_sw (n : Nat) (f : Lease → Lease) (s : State) : (updLease n f s).sw = s.sw := rfl
@[simp] theorem updLease_bays (n : Nat) (f : Lease → Lease) (s : State) : (updLease n f s).bays = s.bays := rfl
@[simp] theorem updLease_cfg (n : Nat) (f : Lease → Lease) (s : State) : (updLease n f s).cfg = s.cfg := rfl
@[simp] theorem updLease_mbx (n : Nat) (f : Lease → Lease) (s : State) : (updLease n f s).mbx = s.mbx := rfl
@[simp] theorem updLease_audit (n : Nat) (f : Lease → Lease) (s : State) : (updLease n f s).audit = s.audit := rfl
@[simp] theorem updLease_img (n : Nat) (f : Lease → Lease) (s : State) : (updLease n f s).img = s.img := rfl
@[simp] theorem updLease_parts (n : Nat) (f : Lease → Lease) (s : State) : (updLease n f s).parts = s.parts := rfl
@[simp] theorem updLease_dbg (n : Nat) (f : Lease → Lease) (s : State) : (updLease n f s).dbg = s.dbg := rfl
@[simp] theorem updLease_free (n : Nat) (f : Lease → Lease) (s : State) : (updLease n f s).free = s.free := rfl
@[simp] theorem updLease_pending (n : Nat) (f : Lease → Lease) (s : State) : (updLease n f s).pending = s.pending := rfl
@[simp] theorem updParser_time (p : Nat) (f : Parser → Parser) (s : State) : (updParser p f s).time = s.time := rfl
@[simp] theorem updParser_md (p : Nat) (f : Parser → Parser) (s : State) : (updParser p f s).md = s.md := rfl
@[simp] theorem updParser_io (p : Nat) (f : Parser → Parser) (s : State) : (updParser p f s).io = s.io := rfl
@[simp] theorem updParser_pair (p : Nat) (f : Parser → Parser) (s : State) : (updParser p f s).pair = s.pair := rfl
@[simp] theorem updParser_bays (p : Nat) (f : Parser → Parser) (s : State) : (updParser p f s).bays = s.bays := rfl
@[simp] theorem updParser_cfg (p : Nat) (f : Parser → Parser) (s : State) : (updParser p f s).cfg = s.cfg := rfl
@[simp] theorem updParser_mbx (p : Nat) (f : Parser → Parser) (s : State) : (updParser p f s).mbx = s.mbx := rfl
@[simp] theorem updParser_audit (p : Nat) (f : Parser → Parser) (s : State) : (updParser p f s).audit = s.audit := rfl
@[simp] theorem updParser_img (p : Nat) (f : Parser → Parser) (s : State) : (updParser p f s).img = s.img := rfl
@[simp] theorem updParser_parts (p : Nat) (f : Parser → Parser) (s : State) : (updParser p f s).parts = s.parts := rfl
@[simp] theorem updParser_dbg (p : Nat) (f : Parser → Parser) (s : State) : (updParser p f s).dbg = s.dbg := rfl
@[simp] theorem updParser_free (p : Nat) (f : Parser → Parser) (s : State) : (updParser p f s).free = s.free := rfl
@[simp] theorem updParser_pending (p : Nat) (f : Parser → Parser) (s : State) : (updParser p f s).pending = s.pending := rfl

end Sys2Proof.Machine
end

