-- ==== Sys2Proof/WellFormed.lean ====
section
/-! DEFINITION. Which commands can be sent: every field within the width that its packet, frame or event gives it. What a
command does when a field is well-formed and still out of range for this unit is the machine's matter (log 10). -/

namespace Sys2Proof

/-- A number fits in n bits. -/
def fits (n x : Nat) : Bool := decide (x < 2 ^ n)
/-- A number is below a bound. -/
def below (n x : Nat) : Bool := decide (x < n)
/-- A signed number fits in 64 bits. -/
def fitsInt (x : Int) : Bool := decide (-9223372036854775808 ≤ x) && decide (x < 9223372036854775808)

/-- A block's data and protection information fit (R120, R168). -/
def Blk.wf (b : Blk) : Bool := fits 32768 b.data && fits 128 b.pi

/-- Field widths of the VDT header (R41). -/
def Hdr.wf (h : Hdr) : Bool :=
  below 48 h.port && fits 128 h.src && below 8 h.cls && below 256 h.phase && fits 64 h.assoc
    && fits 64 h.seq && fits 64 h.sack && fits 64 h.row && fits 64 h.key
    && fits 64 h.off && below 65536 h.len && below 17 h.attempt

/-- Field widths of HELLO-1 (R47). -/
def Hello.wf (h : Hello) : Bool :=
  below 8 h.port && fits 128 h.src && below 256 h.auth && below 65536 h.maxPayload
    && below 65536 h.udpPort && fits 64 h.resumed && below 65536 h.identLen

/-- Field widths of a submission entry (R107). -/
def Sqe.wf (q : Sqe) : Bool :=
  below 256 q.opcode && below 4 q.fuse && below 65536 q.cid && fits 32 q.nsid
    && below 65536 q.qid && fits 32 q.cdw10 && fits 32 q.cdw11 && fits 32 q.cdw12
    && fits 32 q.cdw13 && fits 32 q.cdw14 && fits 32 q.cdw15

/-- Field widths of a policy record (R363). -/
def Policy.wf (p : Policy) : Bool :=
  fits 64 p.cir && fits 64 p.pir && fits 32 p.cbs && fits 32 p.pbs
    && fits 64 p.shRate && below 65536 p.tagLimit

/-- Field widths of a principal record (R450). -/
def PrincRec.wf (r : PrincRec) : Bool := below 65536 r.idx && below 256 r.roles && below 256 r.auth

/-- The groups that have settings, and so the opcodes xx01h and xx02h (R452, R453). -/
def settingGroups : List Nat := [1, 2, 4, 5, 6, 7, 8, 14]

/-- Field widths of a mailbox frame's header (R439). -/
def MbF.wf (f : MbF) : Bool :=
  below 8 f.path && below 16 f.slot && below 65536 f.tag && below 65536 f.principal

/-- Field widths of a mailbox frame carried by another packet (R439). -/
def MbFrame.wf (f : MbFrame) : Bool := fits 32 f.tag && below 16 f.slot && below 65536 f.opcode

/-- Field widths of a stitch header (R277). -/
def StHdr.wf (h : StHdr) : Bool := fits 64 h.num && below 256 h.arr && fits 64 h.assoc

/-- Field widths of a received frame (R329 to R331). -/
def Frame.wf (f : Frame) : Bool :=
  below 48 f.port && below 8 f.pcp && below 64 f.dscp && below 65536 f.sport && below 65536 f.dport
    && decide (f.bytes ≤ 9216) && f.h.wf

/-- Field widths of a drive's identification (R163). -/
def DriveInfo.wf (d : DriveInfo) : Bool := fits 64 d.cap

/-- Field widths of a witness message (R262). -/
def WMsg.wf (m : WMsg) : Bool :=
  below 2 m.unit && below 256 m.arr && fits 64 m.ctr && fits 64 m.echo && fits 64 m.epoch

/-- Field widths of an association context (R278). -/
def AssocCtx.wf (c : AssocCtx) : Bool := fits 128 c.src && below 65536 c.udpPort && below 65536 c.tagLimit

/-- A command can be sent as it stands. -/
def Instr.wf : Instr → Bool
  | .hello1 h => h.wf
  | .hello1Resume h => h.wf
  | .keys3 h _ _ _ => h.wf
  | .helloLockoutExpiry _ => true
  | .halfOpenExpiry assoc => fits 64 assoc
  | .cmd h q _ _ frame => h.wf && q.wf && frame.all MbFrame.wf
  | .push h _ => h.wf
  | .ack h => h.wf
  | .nak h reason _ => h.wf && below 256 reason
  | .vdtFlush h _ _ => h.wf
  | .flushAck h _ status => h.wf && below 65536 status
  | .violation h reason _ len _ key off row => h.wf && below 256 reason && fits 32 len && fits 64 key && fits 64 off && fits 64 row
  | .keepalive h _ => h.wf
  | .acknowledgementDelayExpiry assoc => fits 64 assoc
  | .gapDelayExpiry assoc => fits 64 assoc
  | .retransmissionTimerExpiry assoc _ => fits 64 assoc
  | .resumeWindowExpiry assoc => fits 64 assoc
  | .keepaliveIntervalExpiry assoc => fits 64 assoc
  | .keyPhaseTimeout assoc => fits 64 assoc
  | .previousKeyDiscard assoc => fits 64 assoc
  | .violationIntervalEnd => true
  | .windowRegister assoc row => fits 64 assoc && fits 64 row
  | .windowRevoke assoc row => fits 64 assoc && fits 64 row
  | .zoneGrant assoc row => fits 64 assoc && fits 64 row
  | .zoneRelease assoc row => fits 64 assoc && fits 64 row
  | .windowDrainEnd assoc key => fits 64 assoc && fits 64 key
  | .zoneDataWaitExpiry assoc => fits 64 assoc
  | .zoneDrainEnd assoc => fits 64 assoc
  | .getLogPage assoc row => fits 64 assoc && fits 64 row
  | .identify assoc row => fits 64 assoc && fits 64 row
  | .abort assoc row => fits 64 assoc && fits 64 row
  | .setFeatures assoc row => fits 64 assoc && fits 64 row
  | .getFeatures assoc row => fits 64 assoc && fits 64 row
  | .asynchronousEventRequest assoc row => fits 64 assoc && fits 64 row
  | .deviceSelfTest assoc row => fits 64 assoc && fits 64 row
  | .selfTestResume => true
  | .selfTestEnd _ _ => true
  | .keepAlive assoc row => fits 64 assoc && fits 64 row
  | .katoExpiry assoc => fits 64 assoc
  | .vendorMailboxPassthrough assoc row => fits 64 assoc && fits 64 row
  | .flush assoc row => fits 64 assoc && fits 64 row
  | .write assoc row => fits 64 assoc && fits 64 row
  | .writeExecutable assoc row => fits 64 assoc && fits 64 row
  | .writeStart assoc row => fits 64 assoc && fits 64 row
  | .read assoc row => fits 64 assoc && fits 64 row
  | .readAdmission assoc row => fits 64 assoc && fits 64 row
  | .shaperRelease assoc => fits 64 assoc
  | .writeZeroes assoc row => fits 64 assoc && fits 64 row
  | .datasetManagement assoc row => fits 64 assoc && fits 64 row
  | .verify assoc row => fits 64 assoc && fits 64 row
  | .nvmeTcpConnection _ port _ _ _ qid => below 48 port && below 65536 qid
  | .nvmeTcpCommandCapsule assoc q len _ _ => fits 64 assoc && q.wf && fits 32 len
  | .nvmeTcpH2cData assoc row off len _ => fits 64 assoc && fits 64 row && fits 64 off && fits 32 len
  | .driveCompletion _ _ status _ blocks => below 65536 status && blocks.all Blk.wf
  | .orphanTimerExpiry _ => true
  | .driveCommandTimeout _ => true
  | .driveReady bay _ => below 24 bay
  | .driveReadyTimeout bay => below 24 bay
  | .driveSubmission bay => below 24 bay
  | .drainRow arr vol row => below 8 arr && below 1024 vol && fits 64 row
  | .drainRowComplete arr row => below 8 arr && fits 64 row
  | .bitmapSetRecorded arr region => below 8 arr && fits 32 region
  | .bitmapIdleExpiry arr region => below 8 arr && fits 32 region
  | .resyncRow arr row => below 8 arr && fits 64 row
  | .rebuildRow arr row => below 8 arr && fits 64 row
  | .memberAbsent arr pos => below 8 arr && below 24 pos
  | .memberReturn arr pos bay => below 8 arr && below 24 pos && below 24 bay
  | .returnGraceExpiry arr pos => below 8 arr && below 24 pos
  | .keeperCopyComplete arr pos => below 8 arr && below 24 pos
  | .patrolRow arr row _ => below 8 arr && fits 64 row
  | .importEnd arr _ => below 8 arr
  | .copyPassEnd _ => true
  | .copyFinalPassEnd _ => true
  | .copyFinalPassTimeout _ => true
  | .chunkCompressed vol chunk engine _ _ _ => below 1024 vol && fits 32 chunk && below 256 engine
  | .rowTimeout vol _ => below 1024 vol
  | .rowCommit vol skein row => below 1024 vol && below 65535 skein && fits 64 row
  | .checkpointIntervalExpiry arr => below 8 arr
  | .checkpointEnd arr => below 8 arr
  | .frogSelect vol skein => below 1024 vol && below 65535 skein
  | .mapPageFetch vol page _ => below 1024 vol && fits 32 page
  | .leaseRenewalTimer arr => below 8 arr
  | .grant m => m.wf
  | .refuse m => m.wf
  | .state m => m.wf
  | .witnessPoll => true
  | .stopPoint arr => below 8 arr
  | .relay _ m _ => m.wf
  | .promise arr _ => below 8 arr
  | .promiseExpiry arr => below 8 arr
  | .claimWaitExpiry arr => below 8 arr
  | .yarnLinkDown link => below 2 link
  | .yarnLinkUp link => below 2 link
  | .heartbeatTimer link => below 2 link
  | .heartbeat link _ _ _ _ _ _ slot _ _ => below 2 link && below 16 slot
  | .stitchRetransmitTimer _ => true
  | .stitchAck _ _ => true
  | .arrivalStitch h row qid cid opcode _ disp source nsid _ slba status => h.wf && fits 64 row && below 65536 qid && below 65536 cid && below 65536 opcode && below 7 disp && below 3 source && fits 32 nsid && fits 64 slba && below 65536 status
  | .driveStitch h row _ bay _ status lba => h.wf && fits 64 row && below 24 bay && below 65536 status && fits 64 lba
  | .timerStitch h _ _ => h.wf
  | .writePlanStitch h row vol method engine _ => h.wf && fits 64 row && below 1024 vol && below 4 method && below 256 engine
  | .bitmapStitch h _ _ => h.wf
  | .memberStitch h pos _ _ bay _ => h.wf && below 24 pos && below 24 bay
  | .lostStitch h row pos reason _ _ _ => h.wf && fits 64 row && below 24 pos && below 256 reason
  | .patrolStitch h row _ _ _ => h.wf && fits 64 row
  | .rowStitch h vol skein row _ => h.wf && below 1024 vol && below 65535 skein && fits 64 row
  | .commitStitch h vol skein row _ => h.wf && below 1024 vol && below 65535 skein && fits 64 row
  | .checkpointStitch h _ _ => h.wf
  | .frogStitch h vol _ skein chunk => h.wf && below 1024 vol && below 65535 skein && fits 32 chunk
  | .abortStitch h row _ _ => h.wf && fits 64 row
  | .deliveredStitch h row status => h.wf && fits 64 row && below 65536 status
  | .deferredStitch h _ lba nsid _ row _ => h.wf && fits 64 lba && fits 32 nsid && fits 64 row
  | .assocStitch h _ c => h.wf && c.wf
  | .assocStateStitch h _ => h.wf
  | .zoneStitch h row key _ => h.wf && fits 64 row && fits 64 key
  | .violationStitch h reason key off row len => h.wf && below 256 reason && fits 64 key && fits 64 off && fits 64 row && fits 32 len
  | .leaseStitch h epoch _ _ => h.wf && fits 64 epoch
  | .settingStitch h _ _ _ path _ frame _ _ _ => h.wf && below 8 path && frame.wf
  | .copyStitch h _ _ _ => h.wf
  | .confirm assoc row => fits 64 assoc && fits 64 row
  | .missing assoc row => fits 64 assoc && fits 64 row
  | .forward assoc row cls key off q blocks => fits 64 assoc && fits 64 row && below 8 cls && fits 64 key && fits 64 off && q.wf && blocks.all Blk.wf
  | .twinWaitExpiry assoc row => fits 64 assoc && fits 64 row
  | .singleSidedEntry assoc => fits 64 assoc
  | .twinlessHoldExpiry assoc row => fits 64 assoc && fits 64 row
  | .relayRead assoc row status blocks => fits 64 assoc && fits 64 row && below 65536 status && (blocks.all fun x => x.2.wf)
  | .digest _ _ _ => true
  | .warm assoc row status _ _ => fits 64 assoc && fits 64 row && below 65536 status
  | .cast _ _ => true
  | .handoverDrainDeadline arr => below 8 arr
  | .handoverResendTimer arr => below 8 arr
  | .proofRunStart => true
  | .proofRunNext _ _ => true
  | .castOnStart _ => true
  | .castOnStepComplete _ => true
  | .castOnDeadline => true
  | .castOnRetry => true
  | .jointStartYield _ => true
  | .frameReceive f => f.wf
  | .contextFetchComplete assoc => fits 64 assoc
  | .slowPathFrame => true
  | .pauseRepeatTimer port prio => below 48 port && below 8 prio
  | .pauseFrame port cls quanta => below 48 port && below 8 cls && below 65536 quanta
  | .pauseExpiry port cls => below 48 port && below 8 cls
  | .creditReturnTimer link cls => below 2 link && below 8 cls
  | .yarnCredit link cls _ => below 2 link && below 8 cls
  | .egressSelect port => below 48 port
  | .ageingSweep => true
  | .planeFailure plane _ => below 4 plane
  | .bankSwapPause port => below 48 port
  | .parserStop port => below 48 port
  | .bankSwap port => below 48 port
  | .gateIntervalEnd list => below 8 list
  | .queueSample => true
  | .bayInsert bay d => below 24 bay && d.wf
  | .bayRemove bay => below 24 bay
  | .outputReachesThreshold bay => below 24 bay
  | .rampTimeout bay => below 24 bay
  | .qualificationComplete bay => below 24 bay
  | .faultTimerStart bay => below 24 bay
  | .faultTimerClear bay => below 24 bay
  | .faultTimerExpiry bay => below 24 bay
  | .modelOverTemperature bay => below 24 bay
  | .powerGoodLoss bay => below 24 bay
  | .perstRelease bay => below 24 bay
  | .coolDownEnd bay _ => below 24 bay
  | .retryBudgetRestore bay => below 24 bay
  | .bayRelink bay => below 24 bay
  | .partnerSlotEmptyTimeout => true
  | .bayButtonPress bay => below 24 bay
  | .bayButtonHeld bay => below 24 bay
  | .removalPreparationLapse bay => below 24 bay
  | .removalFlushDeadline bay => below 24 bay
  | .removalShutdownDeadline bay _ => below 24 bay
  | .lineVoltageChange volts => below 65536 volts
  | .budgetRiseHold => true
  | .powerMeasurementCheck _ => true
  | .mainsLoss => true
  | .holdUpDriveDeadline => true
  | .holdUpDumpEnd _ => true
  | .holdUpEnd => true
  | .mainsReturn => true
  | .dumpRateMeasurement arr _ => below 8 arr
  | .holdUpTimeMeasurement _ => true
  | .fanLoop _ _ _ failing => failing.all (below 24)
  | .fanFailure fan => below 6 fan
  | .osfpPresence cage _ watts => below 8 cage && below 65536 watts
  | .osfpMonitor cage _ _ => below 8 cage
  | .serviceKeyTouch => true
  | .serviceKeyHold => true
  | .serviceKeyLongHold => true
  | .backlightTimeout => true
  | .mainsApplied => true
  | .serviceDomainReady _ _ _ => true
  | .rootLock => true
  | .managementFirmwareRunning _ volts => below 65536 volts
  | .bayGroupTimer => true
  | .driveReadyWaitExpiry bay => below 24 bay
  | .arraysAssembled _ _ _ => true
  | .modeDrainComplete => true
  | .watchdogLapse => true
  | .rootLockLoss => true
  | .thermalLimit => true
  | .thermalRecovery => true
  | .ptpMessage _ => true
  | .announceReceiptTimeout => true
  | .deviceTimeSave => true
  | .leapSecond => true
  | .ps1Entry _ _ => true
  | .ps2IdleExpiry => true
  | .ps2SafePoint => true
  | .powerStateExit why => below 256 why
  | .mailboxBadFrame path slot tag opcode session _ => below 8 path && below 16 slot && below 65536 tag && below 65536 opcode && below 256 session
  | .mailboxUnknownOpcode f _ => f.wf
  | .serviceBusResultRead slot => below 16 slot
  | .managementSessionOpen _ => true
  | .sessionIdleTimeout session => below 256 session
  | .getSetting f grp sid inst => f.wf && settingGroups.contains grp && fits 16 sid && fits 32 inst
  | .setSetting f grp sid inst val => f.wf && settingGroups.contains grp && fits 16 sid && fits 32 inst && fitsInt val
  | .unitIdentify f => f.wf
  | .getAlarms f => f.wf
  | .clearConfigurationAlarm f => f.wf
  | .changeMode f req => f.wf && fits 8 req
  | .moduleReset f => f.wf
  | .controllerReset f => f.wf
  | .operationStatus f op => f.wf && fits 32 op
  | .operationCancel f op => f.wf && fits 32 op
  | .setPortAddresses f port _ => f.wf && fits 8 port
  | .writeIndirectionTable f mask _ => f.wf && fits 64 mask
  | .writeDscpTables f mask _ _ => f.wf && fits 64 mask
  | .associationReset f assoc => f.wf && fits 64 assoc
  | .listAssociations f first => f.wf && fits 64 first
  | .principalCreate f r => f.wf && r.wf
  | .principalModify f r => f.wf && r.wf
  | .principalRemove f idx => f.wf && fits 16 idx
  | .principalList f first => f.wf && fits 64 first
  | .generateUnitKey f => f.wf
  | .installUnitCertificate f len _ _ => f.wf && fits 32 len
  | .setOutboundCredential f cred len psk _ => f.wf && fits 8 cred && fits 32 len && fits 256 psk
  | .arrayCreate f arr lay n shift _ => f.wf && fits 8 arr && fits 8 lay && fits 16 n && fits 8 shift
  | .arrayDelete f arr => f.wf && fits 8 arr
  | .assignDrive f bay role => f.wf && fits 8 bay && fits 8 role
  | .markMemberFailed f arr pos => f.wf && fits 8 arr && fits 8 pos
  | .arrayStatus f arr => f.wf && fits 8 arr
  | .listLostBlocks f arr first => f.wf && fits 8 arr && fits 64 first
  | .listPatrolReports f arr first => f.wf && fits 8 arr && fits 64 first
  | .importArray f mask => f.wf && fits 64 mask
  | .volumeCreate f vol arr kind flags size allot => f.wf && fits 16 vol && fits 8 arr && fits 8 kind && fits 8 flags && fits 64 size && fits 32 allot
  | .volumeDelete f vol => f.wf && fits 16 vol
  | .volumeResize f vol size => f.wf && fits 16 vol && fits 64 size
  | .copyStart f vol dstVol cred gate dst => f.wf && fits 16 vol && fits 16 dstVol && fits 8 cred && fits 8 gate && fits 128 dst
  | .copyCutover f op => f.wf && fits 32 op
  | .listMapInconsistencies f vol first => f.wf && fits 16 vol && fits 64 first
  | .writeGateList f list base change _ => f.wf && fits 8 list && fits 64 base && fits 64 change
  | .readGateList f list => f.wf && fits 8 list
  | .setPolicyRecord f target idx p => f.wf && fits 8 target && fits 16 idx && p.wf
  | .clearQueueRecords f cls inst => f.wf && fits 16 cls && fits 32 inst
  | .setWitnessAddress f addr => f.wf && fits 128 addr
  | .setWitnessKey f _ => f.wf
  | .handover f arr => f.wf && fits 8 arr
  | .startProofRun f => f.wf
  | .clearNoClaimMarks f mask => f.wf && fits 64 mask
  | .readDivergenceSnapshot f off len => f.wf && fits 32 off && fits 32 len
  | .pairStatus f => f.wf
  | .bayPower f bay action => f.wf && fits 8 bay && fits 8 action
  | .removalRequest f bay step => f.wf && fits 8 bay && fits 8 step
  | .locate f bay on => f.wf && fits 8 bay && fits 8 on
  | .powerStateRequest f ps => f.wf && fits 8 ps
  | .powerStatus f => f.wf
  | .exportSwatch f => f.wf
  | .writeSwatchEntry f check entry val => f.wf && fits 32 check && fits 16 entry && fitsInt val
  | .readAuditEntries f first n => f.wf && fits 64 first && fits 16 n
  | .exportAuditLog f first last => f.wf && fits 64 first && fits 64 last
  | .sealAuditLog f last => f.wf && fits 64 last
  | .readObject f addr off len => f.wf && fits 128 addr && fits 32 off && fits 32 len
  | .freeze f us => f.wf && fits 32 us
  | .freezeExpiry => true
  | .releaseFreeze f => f.wf
  | .stageSegment f off len _ => f.wf && fits 32 off && fits 32 len
  | .verifyStagedImage f len => f.wf && fits 32 len
  | .activate f => f.wf
  | .activationDrainEnd => true
  | .activationDrainTimeout => true
  | .discardStagedImage f => f.wf
  | .takeOutOfService f cls inst => f.wf && fits 16 cls && fits 32 inst
  | .partDrainComplete cls _ => below 8 cls
  | .returnToService f cls inst => f.wf && fits 16 cls && fits 32 inst
  | .runOnlineTest f cls inst code => f.wf && fits 16 cls && fits 32 inst && fits 8 code
  | .onlineTestEnd cls _ _ => below 8 cls
  | .engineRecall f cls inst => f.wf && fits 16 cls && fits 32 inst
  | .tileWatchdog cls _ _ => below 8 cls
  | .hbmUncorrectedError pcp _ => below 256 pcp
  | .hbmCopyComplete pcp => below 256 pcp
  | .netPortDrainEnd port => below 48 port
  | .setTime f t => f.wf && fits 64 t
  | .getTime f => f.wf
  | .installUnlockKey f idx principal _ => f.wf && fits 16 idx && fits 16 principal
  | .removeUnlockKey f idx => f.wf && fits 16 idx
  | .debugPortPolicy f p => f.wf && fits 8 p
  | .revokeUnlock f => f.wf
  | .ddpConnect q => below 256 q
  | .ddpUnlock q key _ => below 256 q && fits 64 key
  | .ddpHalt q core => below 256 q && below 256 core
  | .ddpResume q core => below 256 q && below 256 core
  | .ddpStep q core => below 256 q && below 256 core
  | .ddpState q core => below 256 q && below 256 core
  | .ddpSetBreak q core idx _ addr => below 256 q && below 256 core && below 256 idx && fits 64 addr
  | .ddpSetWatch q core idx access shift addr => below 256 q && below 256 core && below 256 idx && below 4 access && below 64 shift && fits 64 addr
  | .ddpRegRead q core idx => below 256 q && below 256 core && below 256 idx
  | .ddpRegWrite q core idx val => below 256 q && below 256 core && below 256 idx && fits 64 val
  | .ddpMemRead q space core len off addr => below 256 q && below 8 space && below 256 core && fits 32 len && fits 64 off && fits 64 addr
  | .ddpMemWrite q space core off addr bytes => below 256 q && below 8 space && below 256 core && fits 64 off && fits 64 addr && bytes.all (fits 8)
  | .ddpMailbox q slot f => below 256 q && below 16 slot && f.wf
  | .ddpMailboxResult q slot => below 256 q && below 16 slot
  | .ddpDebugReset q core => below 256 q && below 256 core
  | .ddpDisconnect q => below 256 q
  | .ddpBadPacket q type _ => below 256 q && below 128 type
  | .linkReset => true
  | .debugPresenceChange _ => true
  | .breakpointHit core idx => below 36 core && below 256 idx
  | .watchpointHit core idx => below 36 core && below 256 idx
  | .debugHoldEnd => true
  | .unlockLockoutExpiry => true
  | .challengeExpiry => true
  | .consoleReceive char => below 256 char
  | .portLinkStateChange port _ _ => below 48 port
  | .bayLinkStateChange bay _ => below 24 bay
  | .partnerPresenceChange _ => true
  | .modPresBreak => true
  | .recoveryRungOverrun rung _ => below 16 rung
  | .debugHoldDeadline => true
  | .ps2RequestTimeout => true
  | .witnessQueryRepeat => true
  | .standbyShutdownDeadline => true
  | .inbandSlotWaitExpiry assoc row => fits 64 assoc && fits 64 row
  | .stagedImageVerifyEnd _ _ _ => true
  | .auditExportEnd => true
  | .activationRestartComplete => true
  | .ledgerHeaderWriteTimer arr => below 8 arr
  | .managementSessionClose session => below 256 session
  | .nvmeTcpConnectionClose assoc qid => fits 64 assoc && below 65536 qid
  | .copyAssociationPacket _ _ => true

end Sys2Proof
end

