-- ==== Sys2Proof/Tests/Slice0.lean ====
section
/-! SUPPORT. Small tests of single steps and of well-formedness. -/

namespace Sys2Proof.Tests

/-- A bay event on bay 24 is ill-formed (R18). -/
theorem test_wf_bay : (Instr.bayRemove 24).wf = false := by decide

end Sys2Proof.Tests
end

section
/-! PROOFS. A packet whose GCM tag fails stops at the checks of R69 (R57), so that no packet type's own effect is reached. -/

namespace Sys2Proof.Machine

/-- The state that a packet failing the GCM check leaves: its port's failed-tag counter has gained 1 (R57). -/
def countBadTag (port : Nat) (s : State) : State := updParser port (fun p => { p with badTag := p.badTag + 1 }) s

/-- A packet of a live association in its current phase meets no check of R69 before the tag's; a failed tag stops it, whatever its type. -/
theorem arrivalCheck_of_failedTag {h : Hdr} {a : Assoc} {s : State} (ty : Nat) (hup : s.holdUp = false) (hserves : s.serves = true)
    (hfind : (s.io.assocs.find? fun a => a.id == h.assoc && a.src == h.src && !a.tcp) = some a)
    (hlive : a.st = .live) (hphase : h.phase = a.rxPhase) (htag : h.gcmOk = false) :
    arrivalCheck h ty s = .stop (countBadTag h.port s) := by
  have notSuspended : (a.st == .suspended) = false := by rw [hlive]; rfl
  have notHalfOpen : (a.st == .halfOpen) = false := by rw [hlive]; rfl
  have phaseKnown : (h.phase != a.rxPhase) = false := by simp [hphase]
  simp [arrivalCheck, countBadTag, hup, hserves, hfind, notSuspended, notHalfOpen, phaseKnown, htag]

theorem onArrival_of_stop {h : Hdr} {ty : Nat} {s t : State} (f : Assoc → State → State) (hstop : arrivalCheck h ty s = .stop t) :
    onArrival h ty f s = t := by
  simp only [onArrival, hstop]

theorem execCmd_of_stop {h : Hdr} {s t : State} (q : Sqe) (data : Nat) (ranges : List (Nat × Nat)) (frame : Option MbFrame)
    (hstop : arrivalCheck h 1 s = .stop t) : execCmd h q data ranges frame s = .next t := by
  simp only [execCmd, hstop]

/-- Settles O17: `arrivalCheck` stops the packet for every type, and a stopped packet's command has no further effect. -/
theorem failedTagChangesNothing : Obligations.FailedTagChangesNothing := by
  intro h a s t hup hserves hfind hlive hphase htag ht
  have hstop (ty : Nat) : arrivalCheck h ty s = .stop t :=
    ht ▸ arrivalCheck_of_failedTag ty hup hserves hfind hlive hphase htag
  have arrives (ty : Nat) (f : Assoc → State → State) : Host.Outcome.next (onArrival h ty f s) = (.next t : Host.Outcome State Fault Refusal) :=
    congrArg _ (onArrival_of_stop f (hstop ty))
  exact ⟨fun q data ranges frame => execCmd_of_stop q data ranges frame (hstop 1),
    fun _ => arrives 2 _,
    arrives 5 _,
    fun _ _ => arrives 6 _,
    fun _ _ => arrives 7 _,
    fun _ _ => arrives 8 _,
    fun _ _ _ _ _ _ _ => arrives 9 _,
    fun _ => arrives 12 _⟩

/-- A unit in SOLO, which serves, with one live association in key phase 0. -/
def servingHost : State := { State.reset with md := { mode := .solo }, io := { assocs := [{ st := .live }] } }

/-- O17's hypotheses are met on `servingHost` by an ACK with a failed tag: the counter goes from 0 to 1, and the associations stay. -/
theorem ack_failedTag_servingHost : ∃ t, exec (.ack { gcmOk := false }) servingHost = .next t
    ∧ (servingHost.parser 0).badTag = 0 ∧ (t.parser 0).badTag = 1 ∧ t.io = servingHost.io := by
  obtain ⟨-, -, hack, -⟩ := failedTagChangesNothing { gcmOk := false } { st := .live } servingHost _ rfl rfl rfl rfl rfl rfl rfl
  exact ⟨_, hack, rfl, rfl, rfl⟩

end Sys2Proof.Machine
end

section
/-! PROOFS. The revoked-key list of an association (R99): what a revocation, a registration and a grant leave in it. -/

namespace Sys2Proof.Machine

/-- An update that keeps the association's ID is what a lookup of that ID reads. -/
theorem assoc?_updAssoc_same {id : Nat} {f : Assoc → Assoc} (hid : ∀ x, (f x).id = x.id) (s : State) :
    (updAssoc id f s).assoc? id = (s.assoc? id).map f := by
  have sameId : ((fun x : Assoc => x.id == id) ∘ fun x => if x.id == id then f x else x) = fun x => x.id == id := by
    funext x
    simp only [Function.comp_apply]
    split <;> simp [hid]
  simp only [State.assoc?, updAssoc, State.onIo_io, updWhere, List.find?_map, sameId]
  refine Option.map_congr fun x hx => ?_
  rw [if_pos (List.find?_some hx :)]

@[simp] theorem revokeKey_revoked (k : Nat) (a : Assoc) :
    (revokeKey k a).revoked = (k :: a.revoked.filter (· != k)).take 64 := rfl

@[simp] theorem grantZone_revoked (key mib : Nat) (a : Assoc) :
    (grantZone key mib a).revoked = a.revoked.filter (· != key) := rfl

theorem not_mem_revoked_grantZone (key mib : Nat) (a : Assoc) : key ∉ (grantZone key mib a).revoked := by simp

/-- A new key in a full list takes the place of the oldest. -/
theorem revokeKey_revoked_of_full {k : Nat} {a : Assoc} (hfull : a.revoked.length = 64) (hnew : k ∉ a.revoked) :
    (revokeKey k a).revoked = k :: a.revoked.dropLast := by
  have keepsAll : a.revoked.filter (· != k) = a.revoked :=
    List.filter_eq_self.2 fun x hx => bne_iff_ne.2 (ne_of_mem_of_not_mem hx hnew)
  rw [revokeKey_revoked, keepsAll, List.take_succ_cons, List.dropLast_eq_take, hfull]

theorem revokeKey_revoked_length_le (k : Nat) (a : Assoc) : (revokeKey k a).revoked.length ≤ 64 :=
  List.length_take_le ..

/-- What a Window Register that is accepted does to its association (R87, R99). -/
def registerWindow (key len : Nat) (a : Assoc) : Assoc :=
  { a with windows := a.windows ++ [{ key := key, len := len }], revoked := a.revoked.filter (· != key) }

@[simp] theorem registerWindow_id (key len : Nat) (a : Assoc) : (registerWindow key len a).id = a.id := rfl

@[simp] theorem registerWindow_revoked (key len : Nat) (a : Assoc) :
    (registerWindow key len a).revoked = a.revoked.filter (· != key) := rfl

/-- A Window Register that is ready, with a key, a length and room that R82 and R87 allow, is `registerWindow` and the completion. -/
theorem exec_windowRegister_of_room {id row : Nat} {a : Assoc} {c : Cmd} {s : State} (hready : s.windowReady id row 0xD0 = some (a, c))
    (hkey : c.sqe.key ≠ 0) (hmin : 4096 ≤ c.sqe.wlen) (hmax : c.sqe.wlen ≤ 2 ^ 57) (hpage : c.sqe.wlen % 4096 = 0)
    (hnew : a.windows.any (·.key == c.sqe.key) = false) (hroom : a.windows.length < 256) :
    exec (.windowRegister id row) s
      = .next (finishAdm c scOk (a.windows.length + 1) 0 (updAssoc id (registerWindow c.sqe.key c.sqe.wlen) s)) := by
  have fieldsAllowed : (c.sqe.key == 0 || decide (c.sqe.wlen < 4096) || decide (2 ^ 57 < c.sqe.wlen) || c.sqe.wlen % 4096 != 0) = false := by
    simpa [hkey, hmin, hpage] using hmax
  change execWindowRegister id row s = _
  simp only [execWindowRegister, hready, fieldsAllowed, hnew, Nat.not_le.2 hroom, if_false, Bool.false_eq_true]
  rfl

/-- Whatever association a lookup finds after a registration, the registered key is not on its revoked-key list. -/
theorem not_mem_revoked_of_registerWindow {id key len : Nat} {b : Assoc} {s : State}
    (hb : (updAssoc id (registerWindow key len) s).assoc? id = some b) : key ∉ b.revoked := by
  rw [assoc?_updAssoc_same (registerWindow_id key len), Option.map_eq_some_iff] at hb
  obtain ⟨a, -, rfl⟩ := hb
  simp

/-- Settles O18: each list is the one that `revokeKey`, `grantZone` or `registerWindow` leaves. -/
theorem revokedKeys : Obligations.RevokedKeys := by
  refine ⟨revokeKey_revoked, fun _ _ => revokeKey_revoked_of_full, fun k a _ => revokeKey_revoked_length_le k a,
    fun key mib a => not_mem_revoked_grantZone key mib a, ?registered⟩
  case registered =>
    intro id row a b c s t _ _ _ _ _ _ _ _ ht hb
    exact not_mem_revoked_of_registerWindow (ht ▸ hb)

/-- A Window Register of key 7 and 4,096 bytes, ordered and ready to execute. -/
def registerKey7 : Cmd := { row := 1, sqe := { opcode := 0xD0, cdw10 := 7, cdw12 := 4096 }, ordered := true }

/-- A live association that has revoked the keys 9, 7 and 5. -/
def revokedHost : Assoc := { st := .live, revoked := [9, 7, 5], arrFloor := 2 }

/-- A unit in SOLO whose one association, `revokedHost`, has sent `registerKey7`. -/
def registeringHost : State := { State.reset with md := { mode := .solo }, io := { assocs := [revokedHost], cmds := [registerKey7] } }

/-- O18's hypotheses are met on `registeringHost`, which executes `registerKey7`: the keys 9, 7 and 5 become 9 and 5. -/
theorem windowRegister_registeringHost : ∃ t b, exec (.windowRegister 0 1) registeringHost = .next (finishAdm registerKey7 scOk 1 0 t)
    ∧ t.assoc? 0 = some b ∧ b.revoked = [9, 5] ∧ 7 ∉ b.revoked := by
  have hready : registeringHost.windowReady 0 1 0xD0 = some (revokedHost, registerKey7) := by decide
  have hexec := exec_windowRegister_of_room hready (by decide) (by decide) (by decide) (by decide) rfl (by decide)
  have hfind : (updAssoc 0 (registerWindow 7 4096) registeringHost).assoc? 0 = some (registerWindow 7 4096 revokedHost) := rfl
  obtain ⟨-, -, -, -, hregistered⟩ := revokedKeys
  exact ⟨_, _, hexec, hfind, by decide, hregistered 0 1 revokedHost _ registerKey7 registeringHost _ hready (by decide) (by decide)
    (by decide) (by decide) rfl (by decide) hexec rfl hfind⟩

end Sys2Proof.Machine
end

section
/-! PROOFS. Every command keeps what every operation keeps (`Follows`): a lemma for each command whose meaning takes more than a line, by
the branches of its definition, and `exec_keeps` over all of them. -/

namespace Sys2Proof.Machine

/-! ### Rules for the shapes that commands share -/

/-- An update of the bays beside the channels. -/
theorem Follows.onBays_of_ch {a s : State} (r : Follows a s) (f : Bays → Bays) (h : (f s.bays).ch = s.bays.ch := by rfl)
    (k : (f s.bays).drives.length = s.bays.drives.length := by rfl) : Follows a (s.onBays f) :=
  r.onBays f (congrArg _ h) k (Bays.Powered.same h)

/-- One update of every channel at once. -/
theorem Follows.onBays_map {a s : State} (r : Follows a s) {f : Bays → Bays} {g : Chan → Chan}
    (e : (f s.bays).ch = s.bays.ch.map g) (k : (f s.bays).drives.length = s.bays.drives.length)
    (p : ∀ c, (c.perst = false → c.pg = true) → (g c).perst = false → (g c).pg = true) : Follows a (s.onBays f) :=
  r.onBays f (by rw [e, List.length_map]) k (Bays.Powered.map p e)

/-- An update of every channel by its number. -/
theorem Follows.onBays_mapIdx {a s : State} (r : Follows a s) {f : Bays → Bays} {g : Nat → Chan → Chan}
    (e : (f s.bays).ch = s.bays.ch.mapIdx g) (k : (f s.bays).drives.length = s.bays.drives.length)
    (p : ∀ n c, (c.perst = false → c.pg = true) → (g n c).perst = false → (g n c).pg = true) : Follows a (s.onBays f) :=
  r.onBays f (by rw [e, List.length_mapIdx]) k (Bays.Powered.mapIdx p e)

theorem Follows.whenDue {d : Option Nat} {f : State → State} {s : State} (h : ∀ t, Follows t (f t)) :
    Follows s (whenDue d f s) :=
  whenDue_follows (.refl s) d f h

theorem Follows.onArrival {p : Hdr} {type : Nat} {f : Assoc → State → State} {s : State} (h : ∀ a t, Follows t (f a t)) :
    Follows s (onArrival p type f s) :=
  onArrival_follows (.refl s) p type f h

theorem Follows.ddpRequest {q type : Nat} {body : State → State} {s : State} (h : ∀ t, Follows t (body t)) :
    Follows s (ddpRequest q type body s) :=
  ddpRequest_follows (.refl s) q type body h

/-- The update of one channel that needs only this channel's own power-good for PERST# to be released. -/
theorem updChan_follows_of_chan {n : Nat} {f : Chan → Chan} {s : State}
    (p : (f (s.chan n)).perst = false → (f (s.chan n)).pg = true) : Follows s (updChan n f s) := by
  refine .onBays (.refl s) _ (List.length_modify ..) rfl fun powered c hc => ?_
  obtain ⟨i, hi⟩ := List.getElem?_of_mem hc
  rw [List.getElem?_modify] at hi
  obtain ⟨d, hd, rfl⟩ := Option.map_eq_some_iff.mp hi
  split
  next hn =>
    have hchan : s.chan n = d := by rw [State.chan, List.getD_eq_getElem?_getD, hn, hd]; rfl
    exact hchan ▸ p
  next => exact powered d (List.mem_of_getElem? hd)

theorem unlockFailed_follows {a s : State} (r : Follows a s) : Follows a (execDdpUnlock.unlockFailed s) := by
  unfold execDdpUnlock.unlockFailed
  refine r.onDbg _ ?_ ?_
  · split <;> rfl
  · split <;> exact id

/-! ### Packed volumes -/

theorem execChunkCompressed_keeps (vol chunk engine streamLen crc : Nat) (zero : Bool) (s : State) :
    Keeps s (execChunkCompressed vol chunk engine streamLen crc zero s) := by
  refine .next ?_
  split
  · exact .refl _
  · exact .ite (.refl _) <| .ite (zeroChunk_follows (.refl _) ..) <| placeChunk_follows (.refl _) ..

theorem execRowTimeout_keeps (vol : Nat) (frog : Bool) (s : State) : Keeps s (execRowTimeout vol frog s) := by
  refine .next ?_
  split
  · exact .refl _
  · exact .ite (.whenDue fun _ => forceRow_follows (issueStitch_follows (.refl _) ..) ..) <| .refl _

theorem execRowCommit_keeps (vol skein row : Nat) (s : State) : Keeps s (execRowCommit vol skein row s) := by
  have committed (f : Volume → Volume) (chunks : List Asm) : Follows s (chunks.foldl (commitChunk vol skein) (updVol vol f s)) :=
    .foldl (updVol_follows (.refl _) ..) _ _ fun _ _ => commitChunk_follows (.refl _) ..
  refine .next ?_
  split
  · exact .refl _
  · split
    · exact .ite (.refl _) <| .ite (finishClose_follows (rowFailed_follows (.refl _) ..) ..) <| .ite (.refl _) <|
        checkJournal_follows (checkFreed_follows (settleMedia_follows (finishClose_follows
          (issueStitch_follows (committed _ _) ..) ..)) ..) ..
    · exact .refl _

theorem execCheckpointIntervalExpiry_keeps (arr : Nat) (s : State) : Keeps s (execCheckpointIntervalExpiry arr s) := by
  refine .next ?_
  split
  · exact .refl _
  · exact .ite (.whenDue fun _ => startCheckpoint_follows (.refl _) ..) <| .refl _

theorem execCheckpointEnd_keeps (arr : Nat) (s : State) : Keeps s (execCheckpointEnd arr s) := by
  refine .next ?_
  split
  · exact .refl _
  · split
    · exact .refl _
    · exact .ite (.refl _) <| issueStitch_follows (ledgerNow_follows (updArr_follows (journal_follows (.onIo (.refl _) _) ..) ..) ..) ..

theorem execFrogSelect_keeps (vol skein : Nat) (s : State) : Keeps s (execFrogSelect vol skein s) := by
  refine .next ?_
  split
  · exact .refl _
  · split
    · exact .refl _
    · refine .ite (.refl _) <| checkFreed_follows (.foldl ?marked _ _ fun _ _ => .ite ?placed (.refl _)) ..
      case marked => exact issueStitch_follows (updVol_follows (updExt_follows (.refl _) ..) ..) ..
      case placed => exact issueStitch_follows (placeChunk_follows (.refl _) ..) ..

theorem execMapPageFetch_keeps (vol page : Nat) (entries : List (Nat × Nat)) (s : State) :
    Keeps s (execMapPageFetch vol page entries s) := by
  refine .next ?_
  split
  · exact .refl _
  · exact .ite (.refl _) <| .foldl (cachePage_follows (updVol_follows (.refl _) ..) ..) _ _ fun _ _ =>
      startRead_follows (.refl _) ..

/-! ### Draining rows -/

theorem execDrainRow_keeps (arr vol row : Nat) (s : State) : Keeps s (execDrainRow arr vol row s) := by
  refine .next ?_
  split
  · refine .ite (.refl _) <| drainIssue_follows (updArr_follows (setBits_follows ?read ..) ..) ..
    case read => exact .foldl (.refl _) _ _ fun _ _ => issueDc_follows (.refl _) ..
  · exact .refl _

theorem execDrainRowComplete_keeps (arr row : Nat) (s : State) : Keeps s (execDrainRowComplete arr row s) := by
  have taken (f : Arr → Arr) := updArr_follows (.refl s) arr f
  refine .next ?_
  split
  · exact .refl _
  · split
    · exact .refl _
    · exact .ite (.refl _) <|
        .ite (settleMedia_follows (.onIo (.foldl (loseBlocks_follows (strike_follows (taken _) ..) ..) _ _ fun _ _ =>
          issueTagged_follows (.refl _) ..) _)) <|
        settleMedia_follows (cleanOrders_follows (.ite (strike_follows (writeLost_follows (updArr_follows (taken _) ..) ..) ..) <|
          writeLost_follows (updArr_follows (taken _) ..) ..) ..)

theorem execBitmapSetRecorded_keeps (arr region : Nat) (s : State) : Keeps s (execBitmapSetRecorded arr region s) := by
  refine .next ?_
  split
  · exact .refl _
  · exact .ite (.refl _) <| .foldl (updArr_follows (.refl _) ..) _ _ fun _ _ => drainIssue_follows (.refl _) ..

theorem execBitmapIdleExpiry_keeps (arr region : Nat) (s : State) : Keeps s (execBitmapIdleExpiry arr region s) := by
  refine .next ?_
  split
  · exact .refl _
  · exact .ite (.refl _) <| .whenDue fun _ =>
      writeBits_follows (issueStitch_follows (issueStitch_follows (updArr_follows (.refl _) ..) ..) ..) ..

/-! ### Rows of an array -/

theorem execResyncRow_keeps (arr row : Nat) (s : State) : Keeps s (execResyncRow arr row s) := by
  refine .next ?_
  split
  · exact .refl _
  · exact .ite (.refl _) <| .ite (.ite (.refl _) (.ite (jobDone_follows (.refl _) ..) (startJob_follows (.refl _) ..))) <|
      .ite (startJob_follows (.refl _) ..) <| .refl _

theorem execRebuildRow_keeps (arr row : Nat) (s : State) : Keeps s (execRebuildRow arr row s) := by
  refine .next ?_
  split
  · exact .refl _
  · split
    · exact .refl _
    · exact .ite (.refl _) <| .ite (passEnd_follows (.refl _) ..) <| .ite (.refl _) <| startJob_follows (.refl _) ..

theorem execPatrolRow_keeps (arr row : Nat) (finding : List (List (Nat × Bool))) (s : State) :
    Keeps s (execPatrolRow arr row finding s) := by
  refine .next ?_
  split
  · exact .refl _
  next a _ =>
    have found (f : Arr → Arr) (l : List (Nat × List (Nat × Bool))) :
        Follows s (l.foldl (patrolOffset arr row a.layout) (updArr arr f s)) :=
      .foldl (updArr_follows (.refl _) ..) _ _ fun _ _ => patrolOffset_follows (.refl _) ..
    exact .ite (.refl _) <| ledgerSoon_follows (updArr_follows (updArr_follows
      (.ite (.refl _) <| .ite (found _ _) <| startJob_follows (found _ _) ..) ..) ..) ..

/-! ### Volume copies -/

theorem execCopyPassEnd_keeps (op : Nat) (s : State) : Keeps s (execCopyPassEnd op s) := by
  refine .next ?_
  split
  · exact .refl _
  · exact .ite (.refl _) <| copyFeed_follows (updCopy_follows (issueStitch_follows (.refl _) ..) ..) ..

theorem execCopyFinalPassEnd_keeps (op : Nat) (s : State) : Keeps s (execCopyFinalPassEnd op s) := by
  refine .next ?_
  split
  · exact .refl _
  · split
    · exact .refl _
    · refine .ite (.refl _) <| startHeld_follows (endOper_follows ?_ ..)
      split
      · exact answerSlot_follows (.onIo (stitchCopyEnd_follows (.refl _) ..) _) ..
      · exact .onIo (stitchCopyEnd_follows (.refl _) ..) _

theorem execCopyFinalPassTimeout_keeps (op : Nat) (s : State) : Keeps s (execCopyFinalPassTimeout op s) := by
  refine .next ?_
  split
  · exact .refl _
  · refine .whenDue fun _ => copyFeed_follows (startHeld_follows ?_) ..
    split
    · exact answerSlot_follows (updCopy_follows (.onIo (.refl _) _) ..) ..
    · exact updCopy_follows (.onIo (.refl _) _) ..

theorem execCopyAssociationPacket_keeps (op : Nat) (p : CopyPkt) (s : State) :
    Keeps s (execCopyAssociationPacket op p s) := by
  refine .next ?_
  split
  · exact .refl _
  · split
    · exact .ite (.refl _) <| .ite (copySend_follows (updCopy_follows (.refl _) ..) ..) <|
        failCopy_follows (.refl _) ..
    · exact .ite (.refl _) <| .ite (copyFeed_follows (updCopy_follows (.refl _) ..) ..) <|
        failCopy_follows (.refl _) ..
    · refine .ite (.refl _) ?_
      split
      · exact copySend_follows (updCopy_follows (.refl _) ..) ..
      · exact .ite (failCopy_follows (copySend_follows (updCopy_follows (.refl _) ..) ..) ..) <|
          copyFeed_follows (issueStitch_follows (updCopy_follows (copySend_follows (updCopy_follows (.refl _) ..) ..) ..) ..) ..
    · exact .refl _
    · exact .ite (copySend_follows (updCopy_follows (.refl _) ..) ..) <|
        .ite (failCopy_follows (.refl _) ..) <| .refl _
    · exact .ite (copySend_follows (copySend_follows (updCopy_follows (.refl _) ..) ..) ..) <| .refl _

/-! ### Drive commands and members -/

theorem execDriveCompletion_keeps (dc : Nat) (ok : Bool) (status : Nat) (fatal : Bool) (blocks : List Blk) (s : State) :
    Keeps s (execDriveCompletion dc ok status fatal blocks s) := by
  have ended := driveEnds_follows (.refl s) dc ok status fatal blocks
  refine .next ?_
  cases s.dc? dc with
  | none => exact ended
  | some d => exact removalFlush_follows ended ..

theorem execOrphanTimerExpiry_keeps (dc : Nat) (s : State) : Keeps s (execOrphanTimerExpiry dc s) := by
  refine .next ?_
  split
  · exact .refl _
  · exact .whenDue fun _ => removalFlush_follows (orphanDc_follows (.refl _) ..) ..

theorem execDriveCommandTimeout_keeps (dc : Nat) (s : State) : Keeps s (execDriveCommandTimeout dc s) := by
  refine .next ?_
  split
  · exact .refl _
  · split
    · exact .refl _
    · exact .ite (.refl _) <| .whenDue fun _ => issueDc_follows (updDc_follows (.refl _) ..) ..

theorem execDriveReadyTimeout_keeps (bay : Nat) (s : State) : Keeps s (execDriveReadyTimeout bay s) := by
  refine .ite (.fault _) <| .next ?_
  split
  · exact .refl _
  · exact .whenDue fun _ => failBay_follows (updDrive_follows (.refl _) ..) ..

theorem execMemberAbsent_keeps (arr pos : Nat) (s : State) : Keeps s (execMemberAbsent arr pos s) := by
  refine .next ?_
  split
  · exact .refl _
  · exact .ite (.refl _) <| .ite (startHandover_follows (.refl _) ..) <|
      endDcs_follows (absentMember_follows (.refl _) ..) ..

theorem execMemberReturn_keeps (arr pos bay : Nat) (s : State) : Keeps s (execMemberReturn arr pos bay s) := by
  refine .ite (.fault _) <| .next ?_
  split
  · split
    · exact .ite (returnMember_follows (.refl _) ..) <| .refl _
    · exact .refl _
  · exact .refl _

theorem execReturnGraceExpiry_keeps (arr pos : Nat) (s : State) : Keeps s (execReturnGraceExpiry arr pos s) := by
  refine .next ?_
  split
  · exact .refl _
  · exact .ite (.refl _) <| .whenDue fun _ => failMember_follows (issueStitch_follows (.refl _) ..) ..

theorem execImportEnd_keeps (arr : Nat) (vols : List ImpVol) (s : State) : Keeps s (execImportEnd arr vols s) := by
  have imported (f : Arr → Arr) :
      Follows s (ledgerNow arr (relabel arr (superblockNow arr (vols.foldl (importVolume arr) (updArr arr f s))))) :=
    ledgerNow_follows (relabel_follows (superblockNow_follows
      (.foldl (updArr_follows (.refl _) ..) _ _ fun _ _ => importVolume_follows (.refl _) ..) ..) ..) ..
  refine .next ?_
  split
  · exact .refl _
  · refine .ite (.refl _) ?_
    dsimp only
    split
    · exact endOper_follows (imported _) ..
    · exact imported _

/-! ### The host transport -/

theorem execHello1_keeps (h : Hello) (s : State) : Keeps s (execHello1 h s) := by
  refine .next <| .ite (.refl _) <| .ite (helloRefused_follows (.refl _) ..) <|
    .ite (failHandshake_follows (sendNakClear_follows (.refl _) ..) ..) ?_
  split
  · exact sendHello2_follows (.refl _) ..
  · exact .ite (.onIo (.refl _) _) <| .ite (sendNakClear_follows (.refl _) ..) <|
      .ite (updParser_follows (sendNakClear_follows (.refl _) ..) ..) <|
      sendHello2_follows (.onSw (.onIo (State.drawn_follows (.refl _)) _) _) ..

theorem execHello1Resume_keeps (h : Hello) (s : State) : Keeps s (execHello1Resume h s) := by
  refine .next <| .ite (.refl _) <| .ite (helloRefused_follows (.refl _) ..) <|
    .ite (failHandshake_follows (sendNakClear_follows (.refl _) ..) ..) ?_
  split
  · exact sendNakClear_follows (.refl _) ..
  · refine .ite (sendHello2_follows (.refl _) ..) ?_
    dsimp only
    split
    · exact sendHello2_follows (State.drawn_follows (updAssoc_follows (suspend_follows (.refl _) ..) ..)) ..
    · exact suspend_follows (.refl _) ..

theorem execKeys3_keeps (h : Hdr) (finishedOk sigOk chainOk : Bool) (s : State) :
    Keeps s (execKeys3 h finishedOk sigOk chainOk s) := by
  refine .next ?_
  split
  · exact .onArrival fun _ _ => .refl _
  · refine .ite (.onArrival fun _ _ => .refl _) ?_
    split
    next stopped => exact keys3Stop_follows _ _ _ _ stopped
    next a _ _ _ =>
      have failed := failHandshake_follows (.refl s) a.src
      have received := fun f => receive_follows (updAssoc_follows (.refl s) a.id f) h 11
      exact .ite (.ite (freeAssoc_follows failed ..) (updAssoc_follows failed ..)) <|
        .ite (updAssoc_follows (issueStitch_follows (received _) ..) ..) <| sendKeys4_follows (received _) ..

theorem execHalfOpenExpiry_keeps (assoc : Nat) (s : State) : Keeps s (execHalfOpenExpiry assoc s) := by
  refine .next ?_
  split
  · exact .refl _
  · exact .ite (.whenDue fun _ => freeAssoc_follows (.refl _) ..) <|
      .ite (.whenDue fun _ => updAssoc_follows (.refl _) ..) <| .refl _

theorem execCmd_keeps (h : Hdr) (q : Sqe) (data : Nat) (ranges : List (Nat × Nat)) (frame : Option MbFrame) (s : State) :
    Keeps s (execCmd h q data ranges frame s) := by
  refine .next ?_
  split
  next stopped => exact (arrivalCheck_follows h 1 s).follows stopped
  next a _ =>
    refine .ite (sinkCells_follows (updParser_follows (.refl _) ..) ..) ?_
    have received : Follows s (sinkCells a.id h.seq (receive h 1 (if h.cls == permittedClass 1 h.cls then s
        else updParser h.port (fun p => { p with badClass := p.badClass + 1 }) s))) :=
      sinkCells_follows (receive_follows (.ite (.refl _) (updParser_follows (.refl _) ..)) ..) ..
    dsimp only
    split
    · exact .ite received <| confirmWrite_follows (updAssoc_follows (updCmd_follows received ..) ..) ..
    · refine .ite (resendResp_follows received ..) <| .ite received ?_
      split
      · exact acceptCmd_follows (updAssoc_follows received ..) ..
      · exact updAssoc_follows received ..

theorem execPush_keeps (h : Hdr) (data : Nat) (s : State) : Keeps s (execPush h data s) := by
  refine .next <| .onArrival fun a _ => ?_
  dsimp only
  generalize zoneReason a h.key h.off h.len = reason
  split
  · exact violate_follows (updAssoc_follows (.refl _) ..) ..
  · exact .ite (.refl _) <| confirmWrite_follows
      (.ite (forwardCmd_follows (tryOrder_follows (updAssoc_follows (.refl _) ..) ..) ..) (updAssoc_follows (.refl _) ..)) ..

theorem execNak_keeps (h : Hdr) (reason : Nat) (ranges : List (Nat × Nat)) (s : State) :
    Keeps s (execNak h reason ranges s) :=
  .next <| .onArrival fun _ _ => .ite (.refl _) <| .foldl (.refl _) _ _ fun _ _ => retransmit_follows (.refl _) ..

theorem execFlushAck_keeps (h : Hdr) (id status : Nat) (s : State) : Keeps s (execFlushAck h id status s) := by
  refine .next <| .onArrival fun _ _ => ?_
  split
  · exact .refl _
  · exact .ite (sendYarn_follows (updCmd_follows (.refl _) ..) ..) <|
      .ite (.refl _) <| finishVia_follows (.refl _) ..

theorem execViolation_keeps (h : Hdr) (reason offType len offSeq key off row : Nat) (s : State) :
    Keeps s (execViolation h reason offType len offSeq key off row s) :=
  .next <| .onArrival fun _ _ => issueStitch_follows (updCmd_follows (recordViolation_follows (.refl _) ..) ..) ..

theorem execKeepalive_keeps (h : Hdr) (release : Bool) (s : State) : Keeps s (execKeepalive h release s) := by
  refine .next <| .onArrival fun _ _ => .ite (.refl _) <| releaseAssoc_follows ?_ ..
  split
  · exact resetCommands_follows (.refl _) ..
  · exact enqueue_follows (updAssoc_follows (resetCommands_follows (.refl _) ..) ..) ..

theorem execAcknowledgementDelayExpiry_keeps (assoc : Nat) (s : State) :
    Keeps s (execAcknowledgementDelayExpiry assoc s) := by
  refine .next ?_
  split
  · exact .ite (.whenDue fun _ => sendAck_follows (.refl _) ..) <| .refl _
  · exact .refl _

theorem execGapDelayExpiry_keeps (assoc : Nat) (s : State) : Keeps s (execGapDelayExpiry assoc s) := by
  refine .next ?_
  split
  · split
    · exact .ite (.refl _) <| .whenDue fun _ => sendNak_follows (updAssoc_follows (.refl _) ..) ..
    · exact .refl _
  · exact .refl _

theorem execRetransmissionTimerExpiry_keeps (assoc seq : Nat) (s : State) :
    Keeps s (execRetransmissionTimerExpiry assoc seq s) := by
  refine .next ?_
  split
  · exact .refl _
  · split
    · exact .refl _
    · exact .ite (.refl _) <| .whenDue fun _ => .ite (suspend_follows (.refl _) ..) <|
        retransmit_follows (updAssoc_follows (.refl _) ..) ..

theorem execResumeWindowExpiry_keeps (assoc : Nat) (s : State) : Keeps s (execResumeWindowExpiry assoc s) := by
  refine .next ?_
  split
  · exact .ite (.whenDue fun _ => releaseAssoc_follows (.refl _) ..) <| .refl _
  · exact .refl _

theorem execKeepaliveIntervalExpiry_keeps (assoc : Nat) (s : State) :
    Keeps s (execKeepaliveIntervalExpiry assoc s) := by
  refine .next ?_
  split
  · exact .ite (.whenDue fun _ => sendSeq_follows (updAssoc_follows (.refl _) ..) ..) <| .refl _
  · exact .refl _

theorem execKeyPhaseTimeout_keeps (assoc : Nat) (s : State) : Keeps s (execKeyPhaseTimeout assoc s) := by
  refine .next ?_
  split
  · exact .ite (.whenDue fun _ => updAssoc_follows (.refl _) ..) <| .refl _
  · exact .refl _

theorem execPreviousKeyDiscard_keeps (assoc : Nat) (s : State) : Keeps s (execPreviousKeyDiscard assoc s) := by
  refine .next ?_
  split
  · exact .ite (.whenDue fun _ => updAssoc_follows (.refl _) ..) <| .refl _
  · exact .refl _

theorem execViolationIntervalEnd_keeps (s : State) : Keeps s (execViolationIntervalEnd s) :=
  .next <| .whenDue fun _ => .ite (.onAudit (.refl _) _ rfl rfl) <|
    auditPush_follows (.onAudit (.refl _) _ rfl rfl) ..

/-! ### Windows of memory -/

theorem execWindowRegister_keeps (assoc row : Nat) (s : State) : Keeps s (execWindowRegister assoc row s) := by
  refine .next ?_
  split
  · exact .refl _
  · exact .ite (finishAdm_follows (.refl _) ..) <| .ite (finishAdm_follows (.refl _) ..) <|
      .ite (finishAdm_follows (.refl _) ..) <| finishAdm_follows (updAssoc_follows (.refl _) ..) ..

theorem execWindowRevoke_keeps (assoc row : Nat) (s : State) : Keeps s (execWindowRevoke assoc row s) := by
  refine .next ?_
  split
  · exact .refl _
  · dsimp only
    split
    · exact finishAdm_follows (.refl _) ..
    · exact .ite (updAssoc_follows (updCmd_follows (.refl _) ..) ..) <|
        .foldl (updAssoc_follows (updCmd_follows (.refl _) ..) ..) _ _ fun _ _ =>
        cancelRevoked_follows (.refl _) ..

theorem execZoneGrant_keeps (assoc row : Nat) (s : State) : Keeps s (execZoneGrant assoc row s) := by
  refine .next ?_
  split
  · exact .refl _
  · exact .ite (finishAdm_follows (.refl _) ..) <| .ite (.refl _) <| .ite (finishVia_follows (.refl _) ..) <|
      finishVia_follows (updAssoc_follows (.refl _) ..) ..

theorem execZoneRelease_keeps (assoc row : Nat) (s : State) : Keeps s (execZoneRelease assoc row s) := by
  refine .next ?_
  split
  · exact .refl _
  · split
    · exact finishAdm_follows (.refl _) ..
    · exact .ite (finishAdm_follows (.refl _) ..) <| updAssoc_follows (updCmd_follows (.refl _) ..) ..

theorem execWindowDrainEnd_keeps (assoc key : Nat) (s : State) : Keeps s (execWindowDrainEnd assoc key s) := by
  refine .next ?_
  split
  · exact .refl _
  · split
    · exact .refl _
    · exact .ite (.refl _) <| endRevokes_follows (updAssoc_follows (.refl _) ..) ..

theorem execZoneDataWaitExpiry_keeps (assoc : Nat) (s : State) : Keeps s (execZoneDataWaitExpiry assoc s) := by
  refine .next ?_
  split
  · exact .refl _
  · split
    · exact .refl _
    · exact .ite (.refl _) <| .whenDue fun _ =>
        .foldl (updAssoc_follows (.ite (issueStitch_follows (.refl _) ..) (.refl _)) ..) _ _ fun _ _ =>
        cancelRevoked_follows (.refl _) ..

theorem execZoneDrainEnd_keeps (assoc : Nat) (s : State) : Keeps s (execZoneDrainEnd assoc s) := by
  refine .next ?_
  split
  · exact .refl _
  · split
    · exact .refl _
    · exact .ite (.refl _) <| endRevokes_follows (updAssoc_follows (.refl _) ..) ..

/-! ### Admin commands -/

theorem execGetLogPage_keeps (assoc row : Nat) (s : State) : Keeps s (execGetLogPage assoc row s) := by
  refine .next ?_
  split
  · exact .refl _
  · exact placeAdmin_follows (State.drawn_follows (.ite (.refl _) (updAssoc_follows (.refl _) ..))) ..

theorem execIdentify_keeps (assoc row : Nat) (s : State) : Keeps s (execIdentify assoc row s) := by
  refine .next ?_
  split
  · exact .refl _
  · exact placeAdmin_follows (.refl _) ..

theorem execAbort_keeps (assoc row : Nat) (s : State) : Keeps s (execAbort assoc row s) := by
  refine .next ?_
  split
  · exact .refl _
  · refine .ite (.refl _) ?_
    dsimp only
    split
    · exact .ite (updCmd_follows (.refl _) ..) <| endAbort_follows (.ite (updCmd_follows (.refl _) ..) (.refl _)) ..
    · exact .ite (reachMatch_follows (.ite (updCmd_follows (updCmd_follows (.refl _) ..) ..) (updCmd_follows (.refl _) ..)) ..) <|
        updCmd_follows (.refl _) ..

theorem execSetFeatures_keeps (assoc row : Nat) (s : State) : Keeps s (execSetFeatures assoc row s) := by
  refine .next ?_
  split
  · exact .refl _
  · dsimp only
    split
    · exact finishAdm_follows (updAssoc_follows (.refl _) ..) ..
    · exact .ite (finishAdm_follows (.refl _) ..) <| finishAdm_follows (.refl _) ..
    · exact .ite (finishAdm_follows (.refl _) ..) <| finishAdm_follows (updAssoc_follows (.refl _) ..) ..
    · exact finishAdm_follows (updAssoc_follows (.refl _) ..) ..
    · exact finishAdm_follows (updAssoc_follows (.refl _) ..) ..

theorem execGetFeatures_keeps (assoc row : Nat) (s : State) : Keeps s (execGetFeatures assoc row s) := by
  refine .next ?_
  split
  · exact .refl _
  · exact finishAdm_follows (.refl _) ..

theorem execAsynchronousEventRequest_keeps (assoc row : Nat) (s : State) :
    Keeps s (execAsynchronousEventRequest assoc row s) := by
  refine .next ?_
  split
  · exact .refl _
  · split
    · exact finishAdm_follows (updAssoc_follows (.refl _) ..) ..
    · exact updCmd_follows (.refl _) ..

theorem execDeviceSelfTest_keeps (assoc row : Nat) (s : State) : Keeps s (execDeviceSelfTest assoc row s) := by
  refine .next ?_
  split
  · exact .refl _
  · exact .ite (finishAdm_follows (abortSelfTest_follows (.refl _) ..) ..) <|
      .ite (finishAdm_follows (.refl _) ..) <|
      finishAdm_follows (.foldl (.onIo (.refl _) _) _ _ fun _ _ => issueDc_follows (.refl _) ..) ..

theorem execSelfTestResume_keeps (s : State) : Keeps s (execSelfTestResume s) := by
  refine .next ?_
  split
  · exact .refl _
  · exact .ite (.refl _) <| .whenDue fun _ => .onIo (.refl _) _

theorem execSelfTestEnd_keeps (result segment : Nat) (s : State) : Keeps s (execSelfTestEnd result segment s) := by
  refine .next ?_
  split
  · exact .refl _
  · exact .ite (.refl _) <| .onAudit (.onIo (.refl _) _) _ rfl rfl

theorem execKeepAlive_keeps (assoc row : Nat) (s : State) : Keeps s (execKeepAlive assoc row s) := by
  refine .next ?_
  split
  · exact .refl _
  · exact finishAdm_follows (.refl _) ..

theorem execKatoExpiry_keeps (assoc : Nat) (s : State) : Keeps s (execKatoExpiry assoc s) := by
  refine .next ?_
  split
  · exact .refl _
  · exact .ite (.refl _) <| .whenDue fun _ => assocReset_follows (issueStitch_follows (issueStitch_follows (.refl _) ..) ..) ..

/-! ### Host packets -/

theorem execFrameReceive_keeps (f : Frame) (s : State) : Keeps s (execFrameReceive f s) := by
  unfold execFrameReceive
  split
  · exact .fault _
  · exact .next <| .ite (.refl _) <| .ite (updParser_follows (.refl _) ..) <|
      .ite (updPort_follows (.refl _) ..) <| .ite (updParser_follows (.refl _) ..) <| parseFrame_follows (.refl _) ..

theorem execContextFetchComplete_keeps (assoc : Nat) (s : State) : Keeps s (execContextFetchComplete assoc s) := by
  refine .next <| .ite (.refl _) <|
    .foldl (.foldl (useContext_follows (.onSw (.refl _) _) ..) _ _ fun st _ => authenticate_follows ?_ ..) _ _ fun _ _ =>
      resumeStalled_follows (.refl _) ..
  cases st.assoc? assoc with
  | none => exact .refl _
  | some a => exact meterFrame_follows (.refl _) ..

theorem execSlowPathFrame_keeps (s : State) : Keeps s (execSlowPathFrame s) := by
  refine .next ?_
  split
  · exact .refl _
  · split
    · exact updParser_follows (.onSw (.refl _) _) ..
    · refine .ite (updParser_follows (.onSw (.refl _) _) ..) ?_
      split
      · exact .ite (enqueue_follows (.onSw (.refl _) _) ..) <| .onSw (.refl _) _
      · exact .ite (enqueue_follows (.onSw (.onSw (.refl _) _) _) ..) <| .onSw (.refl _) _
      · exact .onSw (.refl _) _
      · exact .onSw (.refl _) _

theorem execBankSwapPause_keeps (port : Nat) (s : State) : Keeps s (execBankSwapPause port s) :=
  .ite (.fault _) <| .next <| .ite (.refl _) <| .foldl (updParser_follows (.refl _) ..) _ _ fun _ _ =>
    updPort_follows (.onSw (.refl _) _) ..

theorem execBankSwap_keeps (port : Nat) (s : State) : Keeps s (execBankSwap port s) :=
  .ite (.fault _) <| .next <| .ite (.refl _) <| .whenDue fun _ =>
    resumeStalled_follows (.foldl (updParser_follows (.refl _) ..) _ _ fun _ _ => .ite (.refl _) (.onSw (.refl _) _)) ..

/-! ### Arbitration and scheduling -/

theorem execDriveSubmission_keeps (bay : Nat) (s : State) : Keeps s (execDriveSubmission bay s) := by
  refine .ite (.fault _) <| .next <| .ite (.refl _) ?_
  have deferred (l : List (Nat × Nat)) : Follows s (l.foldl (fun st x =>
      updDc x.2 (fun d => { d with held := true }) (updPort (8 + bay) x.1 (fun r => { r with defer := r.defer + 1 }) st)) s) :=
    .foldl (.refl _) _ _ fun _ _ => updDc_follows (updPort_follows (.refl _) ..) ..
  dsimp only
  split
  · exact arbitrate_follows (deferred _) ..
  · exact .ite (emptied_follows (.ite (enqueue_follows (updDc_follows (arbitrate_follows (deferred _) ..) ..) ..) <|
        updDc_follows (arbitrate_follows (deferred _) ..) ..) ..) <|
      .ite (enqueue_follows (updDc_follows (arbitrate_follows (deferred _) ..) ..) ..) <|
      updDc_follows (arbitrate_follows (deferred _) ..) ..

theorem execPauseRepeatTimer_keeps (port prio : Nat) (s : State) : Keeps s (execPauseRepeatTimer port prio s) := by
  refine .next ?_
  split
  · exact .refl _
  · exact .whenDue fun _ => updPort_follows (.onSw (.refl _) _) ..

theorem execPauseFrame_keeps (port cls quanta : Nat) (s : State) : Keeps s (execPauseFrame port cls quanta s) := by
  unfold execPauseFrame
  split
  · exact .fault _
  · exact .next <| .ite (closePause_follows (.refl _) ..) <| updPort_follows (.onSw (closePause_follows (.refl _) ..) _) ..

theorem execPauseExpiry_keeps (port cls : Nat) (s : State) : Keeps s (execPauseExpiry port cls s) := by
  refine .next ?_
  split
  · exact .refl _
  · exact .whenDue fun _ => closePause_follows (.refl _) ..

theorem execCreditReturnTimer_keeps (link cls : Nat) (s : State) : Keeps s (execCreditReturnTimer link cls s) := by
  refine .next ?_
  split
  · exact .refl _
  · exact .ite (.onSw (.refl _) _) <| .refl _

theorem execEgressSelect_keeps (port : Nat) (s : State) : Keeps s (execEgressSelect port s) := by
  have aged : Follows s ((s.aged (· == port)).foldl ageItem s) := .foldl (.refl _) _ _ fun _ _ => ageItem_follows (.refl _) ..
  refine .ite (.fault _) <| .next <| .ite aged ?_
  have starved (l : List Nat) := aged.foldl (fun st c => updPort port c (fun r => { r with pSent := r.pSent + 1 }) st) l
    fun _ _ => updPort_follows (.refl _) ..
  cases gateHolder port with
  | none =>
    dsimp only
    split
    · exact starved _
    · exact .ite (emptied_follows (depart_follows (starved _) ..) ..) <| depart_follows (starved _) ..
  | some h =>
    dsimp only
    split
    · exact arbitrate_follows (starved _) ..
    · exact .ite (emptied_follows (depart_follows (arbitrate_follows (starved _) ..) ..) ..) <|
        depart_follows (arbitrate_follows (starved _) ..) ..

theorem execPlaneFailure_keeps (plane : Nat) (lost : List Nat) (s : State) : Keeps s (execPlaneFailure plane lost s) :=
  .next <| .ite (.refl _) <| partFails_follows (.foldl (.onSw (.refl _) _) _ _ fun _ _ => recoverLost_follows (.refl _) ..) ..

theorem execGateIntervalEnd_keeps (list : Nat) (s : State) : Keeps s (execGateIntervalEnd list s) := by
  refine .next <| .ite ?_ <| .ite (.refl _) ?_
  · split
    · exact .refl _
    · exact .ite (.onSw (.refl _) _) <| .refl _
  · split
    · exact .ite (.onSw (.refl _) _) <| .onSw (.refl _) _
    · exact .onSw (.refl _) _

/-! ### Leases -/

theorem execLeaseRenewalTimer_keeps (arr : Nat) (s : State) : Keeps s (execLeaseRenewalTimer arr s) :=
  .next <| .ite (.refl _) <| .whenDue fun _ => renew_follows (updLease_follows (.refl _) ..) ..

theorem execGrant_keeps (m : WMsg) (s : State) : Keeps s (execGrant m s) :=
  .next <| .ite (renewTies_follows (granted_follows (noteWitness_follows (.refl _) ..) ..)) <| carryBack_follows (.refl _) ..

theorem execRefuse_keeps (m : WMsg) (s : State) : Keeps s (execRefuse m s) := by
  have noted := noteWitness_follows (.refl s) m m.holder
  have answered := answered_follows noted m.arr m.echo
  refine .next <| .ite (carryBack_follows (.refl _) ..) ?_
  dsimp only
  split
  · exact noted
  · exact .ite (handFailed_follows answered ..) <|
      .ite (.ite (settleRecord_follows (updLease_follows answered ..) ..) (updLease_follows answered ..)) answered

theorem execState_keeps (m : WMsg) (s : State) : Keeps s (execState m s) := by
  have answered := answered_follows (noteWitness_follows (.refl s) m m.holder) m.arr m.echo
  refine .next <| .ite (carryBack_follows (.refl _) ..) ?_
  dsimp only
  split
  · exact answered
  · exact renewTies_follows (.ite answered (settleRecord_follows answered ..))

theorem execWitnessPoll_keeps (s : State) : Keeps s (execWitnessPoll s) := by
  refine .next ?_
  split
  · exact .refl _
  · exact .onSw (.onPair (.refl _) _ rfl) _

theorem execStopPoint_keeps (arr : Nat) (s : State) : Keeps s (execStopPoint arr s) :=
  .next <| .ite (.refl _) <| .ite (isolate_follows (stopActing_follows (.onPair (.refl _) _ rfl) ..)) <|
    stopActing_follows (.onPair (.refl _) _ rfl) ..

theorem execRelay_keeps (isAnswer : Bool) (m : WMsg) (reachable : Bool) (s : State) :
    Keeps s (execRelay isAnswer m reachable s) := by
  have noted := noteWitness_follows (.refl s) m m.holder
  exact .next <| .ite (.ite (.refl _) <| .ite (renewTies_follows (granted_follows noted ..)) (answered_follows noted ..)) <|
    .ite (.refl _) <| .ite (putWitness_follows (.onPair (.refl _) _ rfl) ..) <|
    sendYarn_follows (updLease_follows (.refl _) ..) ..

theorem execPromise_keeps (arr expiry : Nat) (s : State) : Keeps s (execPromise arr expiry s) := by
  refine .next ?_
  split
  · exact .refl _
  · exact .ite (.refl _) <| updLease_follows (gainLease_follows (answered_follows (.refl _) ..) ..) ..

theorem execPromiseExpiry_keeps (arr : Nat) (s : State) : Keeps s (execPromiseExpiry arr s) :=
  .next <| .ite (.refl _) <| .whenDue fun _ => checkSolo_follows (takeOver_follows (updLease_follows (.refl _) ..) ..)

/-! ### The yarn -/

theorem execYarnLinkDown_keeps (link : Nat) (s : State) : Keeps s (execYarnLinkDown link s) :=
  .next <| .ite (.refl _) <| .whenDue fun _ =>
      .ite (.foldl (.onPair (.refl _) _ rfl) _ _ fun _ _ => resendStitch_follows (.refl _) ..) <|
    yarnLost_follows (.onPair (.refl _) _ rfl)

theorem execYarnLinkUp_keeps (link : Nat) (s : State) : Keeps s (execYarnLinkUp link s) :=
  .next <| .ite (.refl _) <| .ite (.onPair (.refl _) _ rfl) <| yarnReturned_follows (.onPair (.refl _) _ rfl)

theorem execHeartbeatTimer_keeps (link : Nat) (s : State) : Keeps s (execHeartbeatTimer link s) :=
  .next <| .ite (.refl _) <| .whenDue fun _ => jointYield_follows (.onSw (.onPair (.refl _) _ rfl) _)

theorem execHeartbeat_keeps (link : Nat) (mode : Mode) (mains : Bool) (high dialect shelf pool slot : Nat)
    (endBoot ptpLocked : Bool)
    (s : State) : Keeps s (execHeartbeat link mode mains high dialect shelf pool slot endBoot ptpLocked s) := by
  have heard {c : Prop} [Decidable c] (f : Pair → Pair) (h : ∀ p, (f p).leases = p.leases) :
      Follows s ((if c then fwEvent 0x15 0 unitObj s else s).onPair f) :=
    .onPair (.ite (fwEvent_follows (.refl _) ..) (.refl _)) _ (congrArg _ (h _))
  exact .next <| .ite (.refl _) <| jointYield_follows <|
    .ite (partnerLeft_follows (heard _ fun _ => rfl)) (heard _ fun _ => rfl)

theorem execStitchRetransmitTimer_keeps (num : Nat) (s : State) : Keeps s (execStitchRetransmitTimer num s) := by
  refine .next ?_
  split
  · exact .refl _
  · exact .whenDue fun _ => .ite (.refl _) <| resendStitch_follows (.refl _) ..

theorem execStitchAck_keeps (num credits : Nat) (s : State) : Keeps s (execStitchAck num credits s) := by
  have acked (done : List Cmd) : Follows s (done.foldl (fun st c => finish c.assoc c.row c.sc c.dw0 c.dw1 c.more st)
      ((takeRtt num (yarnFreed 7 32 s)).onPair fun p =>
        { p with stitches := p.stitches.filter fun x => decide (num < x.num), credits := credits })) :=
    .foldl (.onPair (takeRtt_follows (yarnFreed_follows (.refl _) ..) ..) _ rfl) _ _ fun _ _ => finish_follows (.refl _) ..
  have checked (done : List Cmd) (keys : List Nat) := checkDigests_follows
    ((acked done).foldl (fun st id => sendKeys4 id st) keys fun _ _ => sendKeys4_follows (.refl _) ..)
  exact .next <| .ite (.refl _) <| .ite (orderAll_follows (checked _ _) ..) (checked _ _)

theorem execConfirm_keeps (assoc row : Nat) (s : State) : Keeps s (execConfirm assoc row s) := by
  have freed (f : Assoc → Assoc) := updAssoc_follows (yarnFreed_follows (.refl s) 7 64) assoc f
  refine .next ?_
  dsimp only
  split
  · exact freed _
  · exact .ite (checkDigests_follows (markAcked_follows (finish_follows (updCmd_follows (freed _) ..) ..) ..)) <|
      updCmd_follows (freed _) ..

theorem execMissing_keeps (assoc row : Nat) (s : State) : Keeps s (execMissing assoc row s) := by
  refine .next ?_
  dsimp only
  split
  · exact sendForward_follows (updCmd_follows (updAssoc_follows (yarnFreed_follows (.refl _) ..) ..) ..) ..
  · exact updAssoc_follows (yarnFreed_follows (.refl _) ..) ..

theorem execForward_keeps (assoc row cls key off : Nat) (q : Sqe) (blocks : List Blk) (s : State) :
    Keeps s (execForward assoc row cls key off q blocks s) := by
  have freed := yarnFreed_follows (.refl s) 3 (128 + 4112 * blocks.length)
  refine .next ?_
  dsimp only
  split
  · exact freed
  · refine .ite freed ?_
    split
    · exact .ite freed <| confirmWrite_follows (updAssoc_follows (updCmd_follows freed ..) ..) ..
    · split
      · exact acceptCmd_follows (updAssoc_follows freed ..) ..
      · exact updAssoc_follows freed ..

theorem execTwinWaitExpiry_keeps (assoc row : Nat) (s : State) : Keeps s (execTwinWaitExpiry assoc row s) := by
  refine .next ?_
  split
  · exact .whenDue fun _ => .ite (updCmd_follows (.refl _) ..) <|
      .ite (sendYarn_follows (updCmd_follows (.refl _) ..) ..) <| .ite (updCmd_follows (.refl _) ..) <|
      .ite (updCmd_follows (.refl _) ..) <| sendForward_follows (updCmd_follows (updCmd_follows (.refl _) ..) ..) ..
  · exact .refl _

theorem execSingleSidedEntry_keeps (assoc : Nat) (s : State) : Keeps s (execSingleSidedEntry assoc s) := by
  refine .next ?_
  split
  · exact .refl _
  · exact .ite (.refl _) <| .foldl (issueStitch_follows (updAssoc_follows (.refl _) ..) ..) _ _ fun _ _ =>
      forwardCmd_follows (tryOrder_follows (updCmd_follows (.refl _) ..) ..) ..

theorem execTwinlessHoldExpiry_keeps (assoc row : Nat) (s : State) : Keeps s (execTwinlessHoldExpiry assoc row s) := by
  refine .next ?_
  split
  · exact .whenDue fun _ => .ite (finishAdm_follows (updCmd_follows (issueStitch_follows (updCmd_follows (.refl _) ..) ..) ..) ..) <|
      finish_follows (updCmd_follows (.refl _) ..) ..
  · exact .refl _

theorem execRelayRead_keeps (assoc row status : Nat) (blocks : List (Nat × Blk)) (s : State) :
    Keeps s (execRelayRead assoc row status blocks s) := by
  have freed := yarnFreed_follows (.refl s) 2 (64 + 4096 * blocks.length)
  refine .next ?_
  dsimp only
  split
  · exact freed
  · refine .ite (.ite (finishVia_follows (updCmd_follows freed ..) ..) freed) ?_
    split
    · exact freed
    · exact .ite freed <| placeData_follows (updCmd_follows freed ..) ..

theorem execDigest_keeps (block value : Nat) (ownStream : Bool) (s : State) :
    Keeps s (execDigest block value ownStream s) :=
  .next <| .ite (.refl _) <| .ite (checkDigests_follows (.onPair (yarnFreed_follows (.refl _) ..) _ rfl)) <|
    withdraw_follows (pairFault_follows (saveSnapshot_follows (yarnFreed_follows (.refl _) ..) ..))

theorem execJointStartYield_keeps (_arrs : List Nat) (s : State) : Keeps s (execJointStartYield _arrs s) :=
  .next <| .ite (.foldl (.refl _) _ _ fun _ _ => .ite (.refl _) (claim_follows (.refl _) ..)) <| .ite (.refl _) <|
      .foldl (enterSolo_follows (.onMd (takePool_follows (.refl _)) _)) _ _ fun _ _ =>
    .ite (.refl _) <| claim_follows (.refl _) ..

/-! ### Bays, budget, fans and cages -/

theorem execDriveReady_keeps (bay : Nat) (label : Option DriveLabel) (s : State) :
    Keeps s (execDriveReady bay label s) := by
  have ready {c : Chan → Chan} (h : ∀ x, (c x).perst = x.perst ∧ (c x).pg = x.pg) {d : Drive → Drive} {again : Bool} :
      Follows s (placeState again bay (updDrive bay d (updChan bay c s))) :=
    placeState_follows (updDrive_follows (updChan_follows (.refl _) _ _ (by simp [h])) ..) ..
  refine .ite (.fault _) <| .next ?_
  split
  · exact .refl _
  · refine .ite (.refl _) <| .ite (.foldl (ready (by simp)) _ _ fun _ _ => ?_) (ready (by simp))
    split
    · exact seekSpare_follows (.refl _) ..
    · exact .refl _

theorem execBayInsert_keeps (bay : Nat) (d : DriveInfo) (s : State) : Keeps s (execBayInsert bay d s) := by
  have inserted (drv : Option Drive) : Follows s (updChan bay (fun x => { x with present := true })
      (s.onBays fun b => { b with drives := b.drives.set bay drv })) :=
    updChan_follows (.onBays_of_ch (.refl _) _ rfl List.length_set) _ _ (by simp)
  refine .ite (.fault _) <| .next <| .ite (.refl _) <| .ite (updChan_follows (inserted _) _ _ (by simp)) <|
    .ite (rebudget_follows (.ite (updChan_follows (updChan_follows (inserted _) _ _ (by simp)) _ _ (by simp)) <|
      .ite (startRamp_follows (updChan_follows (inserted _) _ _ (by simp)) ..) <|
      updChan_follows (updChan_follows (inserted _) _ _ (by simp)) _ _ (by simp))) ?_
  split
  · exact updChan_follows (inserted _) _ _ (by simp)
  · exact updChan_follows (inserted _) _ _ (by simp)
  · exact updChan_follows (inserted _) _ _ (by simp)
  · exact rebudget_follows (.ite (startRamp_follows (inserted _) ..) (updChan_follows (inserted _) _ _ (by simp)))

theorem execBayRemove_keeps (bay : Nat) (s : State) : Keeps s (execBayRemove bay s) :=
  .ite (.fault _) <| .next <| .ite (.refl _) <| rebudget_follows
    (.onBays_of_ch (gateOff_follows (updChan_follows (.refl _) _ _ (by simp)) ..) _ rfl List.length_set)

theorem execOutputReachesThreshold_keeps (bay : Nat) (s : State) : Keeps s (execOutputReachesThreshold bay s) :=
  .ite (.fault _) <| .next <| .ite (.refl _) <| updChan_follows (.refl _) _ _ (by simp)

theorem execQualificationComplete_keeps (bay : Nat) (s : State) : Keeps s (execQualificationComplete bay s) :=
  .ite (.fault _) <| .next <| .ite (.refl _) <| .whenDue fun _ =>
    rebudget_follows (updChan_follows (.refl _) _ _ (by simp))

theorem execPowerGoodLoss_keeps (bay : Nat) (s : State) : Keeps s (execPowerGoodLoss bay s) :=
  .ite (.fault _) <| .next <| .ite (.refl _) <| bayDown_follows (updChan_follows (.refl _) _ _ (by simp)) ..

theorem execPerstRelease_keeps (bay : Nat) (s : State) : Keeps s (execPerstRelease bay s) := by
  by_cases hpg : (s.chan bay).pg = true
  case neg =>
    have withdrawn : ((s.chan bay).st != .on || !(s.chan bay).pg || !(s.chan bay).perst) = true := by simp [hpg]
    exact .ite (.fault _) <| .next <| by rw [if_pos withdrawn]; exact .refl s
  case pos =>
    refine .ite (.fault _) <| .next <| .ite (.refl _) ?_
    unfold whenDue
    exact .ite (updChan_follows_of_chan fun _ => hpg) (.refl _)

theorem execCoolDownEnd_keeps (bay : Nat) (temp : Int) (s : State) : Keeps s (execCoolDownEnd bay temp s) :=
  .ite (.fault _) <| .next <| .ite (.refl _) <| .whenDue fun _ =>
    .ite (startRamp_follows (updChan_follows (updChan_follows (.refl _) _ _ (by simp)) _ _ (by simp)) ..) <|
    updChan_follows (updChan_follows (.refl _) _ _ (by simp)) _ _ (by simp)

theorem execRetryBudgetRestore_keeps (bay : Nat) (s : State) : Keeps s (execRetryBudgetRestore bay s) :=
  .ite (.fault _) <| .next <| .ite (.whenDue fun _ => updChan_follows (.refl _) _ _ (by simp)) <| .refl _

theorem execBayRelink_keeps (bay : Nat) (s : State) : Keeps s (execBayRelink bay s) :=
  .ite (.fault _) <| .next <| .ite (.refl _) <| bayDown_follows (updChan_follows (.refl _) _ _ (by simp)) ..

theorem execRemovalPreparationLapse_keeps (bay : Nat) (s : State) : Keeps s (execRemovalPreparationLapse bay s) :=
  .ite (.fault _) <| .next <| .whenDue fun _ => updChan_follows (.refl _) _ _ (by simp)

theorem execRemovalFlushDeadline_keeps (bay : Nat) (s : State) : Keeps s (execRemovalFlushDeadline bay s) := by
  have ended (f : Io → Io) := (endDcs_follows (.refl s) fun d => d.bay == bay && d.why != .removal).onIo f
  exact .ite (.fault _) <| .next <| .ite (.refl _) <|
    issueDc_follows (updChan_follows (.ite (ended _) (fwEvent_follows (ended _) ..)) _ _ (by simp)) ..

theorem execRemovalShutdownDeadline_keeps (bay : Nat) (done : Bool) (s : State) :
    Keeps s (execRemovalShutdownDeadline bay done s) :=
  .ite (.fault _) <| .next <| .ite (.refl _) <|
    rebudget_follows (.onIo (gateOff_follows (updChan_follows (.refl _) _ _ (by simp)) ..) _)

theorem execBudgetRiseHold_keeps (s : State) : Keeps s (execBudgetRiseHold s) := by
  refine .next ?_
  split
  · exact .refl _
  · exact .whenDue fun _ => rebudget_follows (.onBays_of_ch (.refl _) _)

theorem execPowerMeasurementCheck_keeps (powers : List Nat) (s : State) :
    Keeps s (execPowerMeasurementCheck powers s) := by
  have lowers (f : Nat → Nat) {t : State} (r : Follows s t) : Follows s (applyStates (t.onBays fun b =>
      { b with ch := b.ch.map fun c => if c.live then { c with lowered := f c.lowered } else c })) :=
    applyStates_follows (r.onBays_map rfl rfl fun c h => by split <;> exact h)
  have measured : Follows s (s.onBays fun b => { b with ch := b.ch.mapIdx fun n c =>
      { c with power := powers.getD n 0, cur := powers.getD n 0 * 25 / 3, energy := c.energy + powers.getD n 0 / 10 } }) :=
    .onBays_mapIdx (.refl _) rfl rfl (by simp)
  refine .next <| .ite (lowers (· + 10) (.onBays_of_ch measured _)) ?_
  split
  · exact .onBays_of_ch measured _
  · exact .ite (lowers (· - 10) measured) measured

theorem execFanLoop_keeps (sensors : List Int) (drives tachs failing : List Nat) (s : State) :
    Keeps s (execFanLoop sensors drives tachs failing s) :=
  .next <| .foldl (raiseAll_follows (.onBays_of_ch (State.drawn_follows (.refl _)) _ rfl List.length_mapIdx) ..) _ _ fun _ _ =>
    .ite (failBay_follows (.refl _) ..) (.refl _)

theorem execFanFailure_keeps (fan : Nat) (s : State) : Keeps s (execFanFailure fan s) :=
  .next <| .ite (.refl _) <| .ite (.onBays_of_ch (.refl _) _) <| alarmEvent_follows (.onBays_of_ch (.refl _) _) ..

theorem execOsfpPresence_keeps (cage : Nat) (present : Bool) (watts : Nat) (s : State) :
    Keeps s (execOsfpPresence cage present watts s) := by
  have put (o : Osfp) : Follows s (s.onBays fun b => { b with osfp := b.osfp.set cage o }) := .onBays_of_ch (.refl _) _
  exact .ite (.fault _) <| .next <| .ite (refreshBudget_follows (portDown_follows (put _) ..)) <|
    .ite (refreshBudget_follows (put _)) <| refreshBudget_follows (fwEvent_follows (portDown_follows (put _) ..) ..)

theorem execDriveReadyWaitExpiry_keeps (bay : Nat) (s : State) : Keeps s (execDriveReadyWaitExpiry bay s) := by
  refine .ite (.fault _) <| .next <| .whenDue fun _ => ?_
  dsimp only
  split
  · exact .ite (endDcs_follows (absentMember_follows (updChan_follows (.refl _) _ _ (by simp)) ..) ..) <|
      updChan_follows (.refl _) _ _ (by simp)
  · exact updChan_follows (.refl _) _ _ (by simp)

theorem execPortLinkStateChange_keeps (port : Nat) (up : Bool) (rate : Nat) (s : State) :
    Keeps s (execPortLinkStateChange port up rate s) :=
  .ite (.fault _) <| .next <| .ite (portDown_follows (.refl _) ..) <| .ite (.refl _) <| .onSw (.refl _) _

theorem execBayLinkStateChange_keeps (bay : Nat) (up : Bool) (s : State) : Keeps s (execBayLinkStateChange bay up s) :=
  .ite (.fault _) <| .next <| .ite (.refl _) <| .ite (bayDown_follows (.refl _) ..) <|
    .ite (.refl _) <| updDrive_follows (.refl _) ..

/-! ### Mains, hold-up and thermal trips -/

theorem execMainsLoss_keeps (s : State) : Keeps s (execMainsLoss s) := by
  have saved : Follows s ((((cancelTests (fun _ => true) (resumeCores (·.halted) s)).onMd
      fun m => { m with mains := false }).onTime
      fun t => { t with saved := t.dev }).onBays
      fun b => { b with rise := none, ch := b.ch.map fun c => { c with prep := none } }) :=
    .onBays_map (.onTime (.onMd (cancelTests_follows (resumeCores_follows (.refl _) ..) ..) _) _ rfl) rfl rfl (by simp)
  refine .next <| .ite (.refl _) ?_
  dsimp only
  split
  · exact .onBays_of_ch saved _
  · exact .ite (handAll_follows (.onBays_of_ch saved _) ..) <| .onBays_map saved rfl rfl fun c h => by split <;> exact h

theorem execHoldUpDriveDeadline_keeps (s : State) : Keeps s (execHoldUpDriveDeadline s) := by
  refine .next ?_
  split
  · exact .refl _
  · refine .ite (.refl _) <| .whenDue fun _ =>
      .onBays_of_ch (.foldl (.onIo ?orphaned _) _ _ fun _ _ => portDown_follows (.refl _) ..) _
    case orphaned => exact .foldl (.onAudit (.refl _) _ rfl rfl) _ _ fun _ _ => updDrive_follows (.refl _) ..

theorem execHoldUpDumpEnd_keeps (doneRuns : List Nat) (s : State) : Keeps s (execHoldUpDumpEnd doneRuns s) := by
  refine .next ?_
  split
  · exact .refl _
  next h _ =>
    have saved (runs : List DumpRun) : Follows s ((s.onTime fun t => { t with saved := t.dev }).onBays fun b =>
        { b with hold := some { h with phase := 2, runs := runs }, dumpDir := runs }) :=
      .onBays_of_ch (.onTime (.refl _) _ rfl) _
    exact .ite (.refl _) <| .ite (moduleReset_follows (.ite (resumeService_follows (saved _)) (saved _))) <|
      .ite (resumeService_follows (saved _)) (saved _)

theorem execHoldUpEnd_keeps (s : State) : Keeps s (execHoldUpEnd s) := by
  refine .next ?_
  split
  · exact .refl _
  · exact .ite (resumeService_follows (.refl _)) <| .ite (powerOff_follows (.refl _)) <| .refl _

theorem execMainsReturn_keeps (s : State) : Keeps s (execMainsReturn s) := by
  refine .next ?_
  split
  · exact .onMd (.refl _) _
  · exact .ite (.ite (resumeService_follows (.onMd (.refl _) _)) (.onBays_of_ch (.onMd (.refl _) _) _)) <|
      .ite (.ite (moduleReset_follows (resumeService_follows (.onMd (.refl _) _))) (resumeService_follows (.onMd (.refl _) _))) <|
      .onBays_of_ch (.onMd (.refl _) _) _

theorem execPtpMessage_keeps (m : PtpMsg) (s : State) : Keeps s (execPtpMessage m s) := by
  refine .next <| .ite (.refl _) ?_
  split
  · split
    · exact .ite (setUtc_follows (.onTime (.refl _) _ rfl) ..) <| .onTime (.refl _) _ rfl
    · exact .onTime (.refl _) _ rfl
  · exact .ite (.refl _) <| .ite (.onTime (State.drawn_follows (.onTime (.refl _) _ rfl)) _ rfl) <|
      .ite (.onTime (.refl _) _ rfl) <| ptpStep_follows (.onTime (.refl _) _ rfl) ..

theorem execAnnounceReceiptTimeout_keeps (s : State) : Keeps s (execAnnounceReceiptTimeout s) :=
  .next <| .whenDue fun _ => .ite (holdover_follows (.onTime (.refl _) _ rfl)) <| .onTime (.refl _) _ rfl

theorem execLeapSecond_keeps (s : State) : Keeps s (execLeapSecond s) := by
  refine .next ?_
  split
  · exact .refl _
  · exact .ite (setUtc_follows (.onTime (.refl _) _ rfl) ..) <| .refl _

theorem execPs2IdleExpiry_keeps (s : State) : Keeps s (execPs2IdleExpiry s) := by
  refine .next ?_
  split
  · exact .ite (beginPs2_follows (stitchPs_follows (.refl _) ..)) <| .refl _
  · exact .ite (.refl _) <| .whenDue fun _ => requestPs2_follows (.refl _) ..

theorem execPs2SafePoint_keeps (s : State) : Keeps s (execPs2SafePoint s) := by
  refine .next <| .ite (.refl _) <| .ite (exitPs_follows (stitchPs_follows (.refl _) ..)) <|
    .ite (.foldl (.onMd (.refl _) _) _ _ fun _ _ => ?_) <| .ite (.onMd (.refl _) _) <|
    answerPs_follows (.onMd (.refl _) _) ..
  split
  · exact .ite (issueDc_follows (.refl _) ..) <| .refl _
  · exact .refl _

theorem execPowerStateExit_keeps (why : Nat) (s : State) : Keeps s (execPowerStateExit why s) :=
  .next <| .ite (exitPs_follows (stitchPs_follows (.refl _) ..)) <| .ite (exitPs_follows (stitchPs_follows (.refl _) ..)) <|
    .refl _

theorem execPs2RequestTimeout_keeps (s : State) : Keeps s (execPs2RequestTimeout s) := by
  refine .next ?_
  split
  · exact .ite (.whenDue fun _ => answerPs_follows (.refl _) ..) <| .refl _
  · exact .refl _

/-! ### Modes and power states -/

theorem execPartnerSlotEmptyTimeout_keeps (s : State) : Keeps s (execPartnerSlotEmptyTimeout s) := by
  refine .next <| .ite (.refl _) <| .whenDue fun _ => .ite (.onMd (.refl _) _) <|
      orderAll_follows (.onIo (.onMd ?claimed _) _) ..
  exact .foldl (loseShadow_follows (.onPair (.onMd (.refl _) _) _ rfl)) _ _ fun _ _ => claim_follows (.refl _) ..

theorem execServiceDomainReady_keeps (slotOpen swatchOk configOk : Bool) (s : State) :
    Keeps s (execServiceDomainReady slotOpen swatchOk configOk s) := by
  have awake (m : Md → Md) : Follows s ((s.onMd m).onAudit fun a => { a with swOk := swatchOk }) :=
    .onAudit (.onMd (.refl _) _) _ rfl rfl
  have configured (m : Md → Md) := Follows.ite (c := configOk = true) (awake m) (configLost_follows (awake m))
  exact .next <| .ite (.refl _) <| .ite (configured _) <| beginBoot_follows (configured _) ..

theorem execManagementFirmwareRunning_keeps (imageOk : Bool) (volts : Nat) (s : State) :
    Keeps s (execManagementFirmwareRunning imageOk volts s) := by
  refine .next <| .ite (.refl _) ?_
  dsimp only
  split
  · exact enterSafe_follows (.onImg (.onMd (.refl _) _) _) ..
  · have budgeted {m i v} {own : Int} : Follows s ((((s.onMd m).onImg i).onBays fun b => { b with volts := v }).onBays fun b =>
        { b with drvBudget := own, budget := own, rise := none }) :=
      .onBays_of_ch (.onBays_of_ch (.onImg (.onMd (.refl _) _) _) _) _
    exact queryAll_follows (.ite (.onMd budgeted _) budgeted)

theorem execBayGroupTimer_keeps (s : State) : Keeps s (execBayGroupTimer s) :=
  .next <| .ite (.refl _) <| .whenDue fun _ =>
      rebudget_follows (.onMd (.foldl (.refl _) _ _ fun _ _ => startRamp_follows (.refl _) ..) _)

theorem execArraysAssembled_keeps (bitmaps : List (Nat × List Nat)) (badRuns : List Nat) (ms : Nat) (s : State) :
    Keeps s (execArraysAssembled bitmaps badRuns ms s) := by
  refine .next <| .ite (.refl _) <| remakeMedia_follows <| dropMissing_follows <|
      bootEnd_follows (putHoldUpTime_follows ?placed ..) ..
  exact placeMembers_follows <| unionBitmaps_follows
    (.ite (dropBadRuns_follows (.onMd (.refl _) _) ..) (reloadDump_follows (.onMd (.refl _) _) ..)) ..

theorem execModeDrainComplete_keeps (s : State) : Keeps s (execModeDrainComplete s) := by
  have dropped : Follows s (dropHosts (releaseLeases (if s.paired then dropHosts s
      else (s.io.assocs.map (·.id)).foldl (fun st id => releaseAssoc id st) s))) :=
    dropHosts_follows <| releaseLeases_follows <| .ite (dropHosts_follows (.refl _)) <|
      .foldl (.refl _) _ _ fun _ _ => releaseAssoc_follows (.refl _) ..
  refine .next ?_
  split
  · exact .refl _
  · exact .ite (.refl _) <| .ite (endOper_follows (.onMd dropped _) ..) <|
      .onMd (.ite (.foldl (.onIo dropped _) _ _ fun _ _ => .ite (issueDc_follows (.refl _) ..) (.refl _)) (.onIo dropped _)) _

theorem execRootLockLoss_keeps (s : State) : Keeps s (execRootLockLoss s) :=
  .next <| .ite (.ite (protectReset_follows (.refl _) ..) (.onTime (protectReset_follows (.refl _) ..) _ rfl)) <| .refl _

theorem execThermalLimit_keeps (s : State) : Keeps s (execThermalLimit s) :=
  .next <| .ite (.refl _) <| .onBays_of_ch (.onMd (moduleReset_follows (stopDump_follows (.refl _))) _) _

theorem execModPresBreak_keeps (s : State) : Keeps s (execModPresBreak s) :=
  .next <| .ite (.refl _) <| stopDump_follows <| .foldl (.onMd (.refl _) _) _ _ fun _ _ =>
    .ite (updChan_follows (gateOff_follows (.refl _) ..) _ _ (by simp)) (.refl _)

theorem execStandbyShutdownDeadline_keeps (s : State) : Keeps s (execStandbyShutdownDeadline s) := by
  refine .next ?_
  split
  · exact .ite (endOper_follows (enterStandby_follows (.refl _)) ..) <| .refl _
  · exact .refl _

/-! ### Faulty parts -/

theorem execOnlineTestEnd_keeps (cls inst : Nat) (pass : Bool) (s : State) :
    Keeps s (execOnlineTestEnd cls inst pass s) := by
  have tested {data : Nat} {f : Part → Part} : Follows s (updPart cls inst f (fwEvent 0x0F data (ssAddr cls inst 0) s)) :=
    updPart_follows (fwEvent_follows (.refl _) ..) ..
  unfold execOnlineTestEnd
  dsimp only
  cases (s.part cls inst).op with
  | none =>
    exact .next <| .ite (.refl _) <| .ite (.ite (putBack_follows tested ..) tested) <|
      .ite (fwEvent_follows (updPart_follows tested ..) ..) <|
      .ite (bayDown_follows (partFails_follows (updPart_follows tested ..) ..) ..) <|
      partFails_follows (updPart_follows tested ..) ..
  | some op =>
    have ended {st code data : Nat} {f : Part → Part} := endOper_follows (tested (data := data) (f := f)) op st code
    exact .next <| .ite (.refl _) <| .ite (.ite (putBack_follows tested ..) ended) <|
      .ite (fwEvent_follows (updPart_follows ended ..) ..) <|
      .ite (bayDown_follows (partFails_follows (updPart_follows ended ..) ..) ..) <|
      partFails_follows (updPart_follows ended ..) ..

theorem execTileWatchdog_keeps (cls inst cause : Nat) (s : State) : Keeps s (execTileWatchdog cls inst cause s) :=
  .next <| .ite (.refl _) <| engineRecall_follows (.ite (updPart_follows (.refl _) ..) (.refl _)) ..

theorem execHbmUncorrectedError_keeps (pcp : Nat) (lostBlocks : List (Nat × Nat)) (s : State) :
    Keeps s (execHbmUncorrectedError pcp lostBlocks s) :=
  .next <| .ite (.refl _) <| .ite (.foldl (updPart_follows (.refl _) ..) _ _ fun _ _ => loseDirty_follows (.refl _) ..) <|
    partFails_follows (.foldl (updPart_follows (.refl _) ..) _ _ fun _ _ => loseDirty_follows (.refl _) ..) ..

theorem execHbmCopyComplete_keeps (pcp : Nat) (s : State) : Keeps s (execHbmCopyComplete pcp s) := by
  refine .next <| .ite (.refl _) <| .ite (partOut_follows (updPart_follows (.refl _) ..) ..) <|
    .ite ?_ <| .ite (fwEvent_follows (updPart_follows (.refl _) ..) ..) <|
    .refl _
  split
  · exact endOper_follows (partReturns_follows (.refl _) ..) ..
  · exact partReturns_follows (.refl _) ..

theorem execNetPortDrainEnd_keeps (port : Nat) (s : State) : Keeps s (execNetPortDrainEnd port s) :=
  .ite (.fault _) <| .next <| .ite (.whenDue fun _ => partOut_follows (portDown_follows (.refl _) ..) ..) <| .refl _

theorem execRecoveryRungOverrun_keeps (rung obj : Nat) (s : State) : Keeps s (execRecoveryRungOverrun rung obj s) :=
  .next <| .ite (.ite (engineRecall_follows (.refl _) ..) (.refl _)) <|
      .ite (.foldl (.refl _) _ _ fun _ _ => engineRecall_follows (.refl _) ..) <|
    .ite (.ite (controllerReset_follows (.refl _)) (.refl _)) <| .ite (protectReset_follows (.refl _) ..) <|
    .refl _

/-! ### The proof run -/

theorem execHandoverDrainDeadline_keeps (arr : Nat) (s : State) : Keeps s (execHandoverDrainDeadline arr s) := by
  refine .next ?_
  split
  · exact .refl _
  · exact .ite (.refl _) <| .whenDue fun _ => .ite (handFailed_follows (.refl _) ..) <|
      .ite (.refl _) <| requestHandover_follows (.refl _) ..

theorem execHandoverResendTimer_keeps (arr : Nat) (s : State) : Keeps s (execHandoverResendTimer arr s) := by
  refine .next ?_
  split
  · exact .refl _
  · exact .ite (.whenDue fun _ => requestHandover_follows (.refl _) ..) <| .refl _

theorem execProofRunNext_keeps (labelsOk vectorsOk : Bool) (s : State) :
    Keeps s (execProofRunNext labelsOk vectorsOk s) := by
  refine .next ?_
  split
  · exact .refl _
  · refine .whenDue fun _ => ?_
    split
    · exact .ite (pairFault_follows (fwEvent_follows (.onPair (.refl _) _ rfl) ..)) <|
        .ite (pairFault_follows (fwEvent_follows (.onPair (.refl _) _ rfl) ..)) <|
        .ite (startHandover_follows (.onPair (.refl _) _ rfl) ..) <| .onPair (.refl _) _ rfl
    · exact .ite (.onPair (.refl _) _ rfl) <| endProof_follows (.refl _) ..

/-! ### Mailbox rows -/

theorem execVendorMailboxPassthrough_keeps (assoc row : Nat) (s : State) :
    Keeps s (execVendorMailboxPassthrough assoc row s) := by
  refine .next ?_
  split
  · exact placeResult_follows (.refl _) ..
  · split
    · exact .refl _
    · refine .ite (updCmd_follows (.refl _) ..) ?_
      split
      · exact .refl _
      · exact postInband_follows (dropStale_follows (.refl _)) ..

theorem execManagementSessionOpen_keeps (principal : Option Nat) (s : State) :
    Keeps s (execManagementSessionOpen principal s) := by
  refine .next ?_
  split
  · exact .refl _
  · refine .ite (.refl _) ?_
    split
    · exact .refl _
    · exact .onMbx (.refl _) _

theorem execSessionIdleTimeout_keeps (session : Nat) (s : State) : Keeps s (execSessionIdleTimeout session s) := by
  refine .next ?_
  split
  · exact .refl _
  · exact .whenDue fun _ => closeSession_follows (.refl _) ..

theorem execActivationDrainEnd_keeps (s : State) : Keeps s (execActivationDrainEnd s) := by
  refine .next ?_
  split
  · exact .ite (.refl _) <| .onImg (.refl _) _
  · exact .refl _

theorem execActivationDrainTimeout_keeps (s : State) : Keeps s (execActivationDrainTimeout s) := by
  refine .next ?_
  split
  · exact .whenDue fun _ => releaseHeld_follows (dropActivation_follows (.refl _))
  · exact .refl _

theorem execInbandSlotWaitExpiry_keeps (assoc row : Nat) (s : State) :
    Keeps s (execInbandSlotWaitExpiry assoc row s) := by
  refine .next ?_
  split
  · refine .whenDue fun _ => ?_
    split
    · exact .refl _
    · exact placeRefusal_follows (.refl _) ..
  · exact .refl _

theorem execStagedImageVerifyEnd_keeps (ok : Bool) (version dialect : Nat) (s : State) :
    Keeps s (execStagedImageVerifyEnd ok version dialect s) := by
  refine .next ?_
  split
  · exact .refl _
  · exact .ite (endOper_follows (.onImg (.refl _) _) ..) <| endOper_follows (.onImg (.refl _) _) ..

theorem execAuditExportEnd_keeps (s : State) : Keeps s (execAuditExportEnd s) := by
  refine .next ?_
  split
  · exact .refl _
  · exact endOper_follows (.onAudit (.refl _) _ rfl rfl) ..

theorem execActivationRestartComplete_keeps (s : State) : Keeps s (execActivationRestartComplete s) := by
  refine .next ?_
  split
  · exact .ite (.refl _) <| .ite (releaseHeld_follows (endOper_follows (.onImg (.refl _) _) ..)) <|
      .ite (enterCastOn_follows (.onPair (dropHosts_follows (endOper_follows (.onImg (.refl _) _) ..)) _ rfl)) <|
      endOper_follows (.onImg (.refl _) _) ..
  · exact .refl _

theorem execLedgerHeaderWriteTimer_keeps (arr : Nat) (s : State) : Keeps s (execLedgerHeaderWriteTimer arr s) := by
  refine .next ?_
  split
  · exact .refl _
  · exact .whenDue fun _ => ledgerNow_follows (.refl _) ..

/-! ### The front panel -/

theorem execServiceKeyHold_keeps (s : State) : Keeps s (execServiceKeyHold s) :=
  .next <| .ite (.refl _) <| .ite (panelPost_follows (lightUp_follows (.refl _)) ..) <|
    panelPost_follows (lightUp_follows (.refl _)) ..

/-! ### CAST-ON -/

theorem execCast_keeps (seg : CastSeg) (num : Nat) (s : State) : Keeps s (execCast seg num s) := by
  refine .next ?_
  split
  · exact .refl _
  · exact .ite (.refl _) <| .ite (.ite (takeCast_follows (yarnFreed_follows (.refl _) ..) ..) (yarnFreed_follows (.refl _) ..)) <|
      .ite (newStreams_follows (.onPair (yarnFreed_follows (.refl _) ..) _ rfl)) <|
      yarnFreed_follows (.refl _) ..

theorem execCastOnStart_keeps (joiner : Bool) (s : State) : Keeps s (execCastOnStart joiner s) :=
  .next <| .ite (.ite (beginCastOn_follows (.refl _) ..) (.refl _)) <| .ite (beginCastOn_follows (.refl _) ..) <|
    .refl _

theorem execCastOnStepComplete_keeps (pathOk : Bool) (s : State) : Keeps s (execCastOnStepComplete pathOk s) := by
  refine .next ?_
  split
  · exact .refl _
  · refine .ite (.refl _) ?_
    split
    · exact .ite (putStep_follows (.refl _) ..) <| .refl _
    · exact putStep_follows (newStreams_follows (clearPicture_follows (.refl _))) ..
    · exact putStep_follows (newStreams_follows (.refl _)) ..
    · exact .ite (putStep_follows (.refl _) ..) <| .refl _
    · exact putStep_follows (sendContexts_follows (.refl _)) ..
    · exact .ite (putStep_follows (.refl _) ..) <| .refl _
    · exact .ite (putStep_follows (sendPicture_follows (.refl _)) ..) <| .refl _
    · exact .ite (putStep_follows (.refl _) ..) <| .refl _
    · exact .ite (putStep_follows (.refl _) ..) <| .refl _
    · exact .ite (abandonCastOn_follows (pairFault_follows (fwEvent_follows (.refl _) ..))) <|
        .ite (endServing_follows (.refl _) ..) <| .ite (endJoining_follows (.refl _)) <|
        .refl _
    · exact .refl _

theorem execCastOnDeadline_keeps (s : State) : Keeps s (execCastOnDeadline s) := by
  refine .next ?_
  split
  · exact .refl _
  · exact .whenDue fun _ => .ite (partnerLeft_follows (.onPair (.refl _) _ rfl)) <| abandonCastOn_follows (.refl _)

theorem execCastOnRetry_keeps (s : State) : Keeps s (execCastOnRetry s) :=
  .next <| .ite (beginCastOn_follows (.refl _) ..) <| .ite
    (.whenDue fun _ => .ite (.onPair (.refl _) _ rfl) <| enterCastOn_follows <| sendYarn_follows (releaseLeases_follows (.refl _)) ..)
    (.refl _)

/-! ### The debug port -/

theorem execDdpConnect_keeps (q : Nat) (s : State) : Keeps s (execDdpConnect q s) :=
  .next <| .ddpRequest fun _ => ddpAnswer_follows (.onDbg (State.drawn_follows (.refl _)) _ rfl id) ..

theorem execDdpUnlock_keeps (q key : Nat) (sigOk : Bool) (s : State) : Keeps s (execDdpUnlock q key sigOk s) := by
  refine .next <| .ddpRequest fun _ => .ite (ddpAnswer_follows (.refl _) ..) <|
    .ite (ddpAnswer_follows (debugEntry_follows (.refl _) ..) ..) ?_
  dsimp only
  split
  · exact .ite (ddpAnswer_follows (debugEntry_follows (.onDbg (.onDbg (.refl _) _ rfl id) _ rfl id) ..) ..) <|
      ddpAnswer_follows (debugEntry_follows (unlockFailed_follows (.onDbg (.refl _) _ rfl id)) ..) ..
  · exact ddpAnswer_follows (debugEntry_follows (unlockFailed_follows (.onDbg (.refl _) _ rfl id)) ..) ..

theorem execDdpHalt_keeps (q core : Nat) (s : State) : Keeps s (execDdpHalt q core s) :=
  .next <| .ddpRequest fun _ => .ite (ddpAnswer_follows (.refl _) ..) <|
    .ite (.ite (ddpAnswer_follows (.refl _) ..) (takeHold_follows (.refl _) ..)) <|
    .ite (ddpAnswer_follows (.refl _) ..) <| haltNow_follows (.refl _) ..

theorem execDdpResume_keeps (q core : Nat) (s : State) : Keeps s (execDdpResume q core s) :=
  .next <| .ddpRequest fun _ => .ite (ddpAnswer_follows (.refl _) ..) <|
    .ite (ddpAnswer_follows (releaseHeld_follows (resumeCore_follows (.refl _) ..)) ..) <|
    ddpAnswer_follows (.refl _) ..

theorem execDdpStep_keeps (q core : Nat) (s : State) : Keeps s (execDdpStep q core s) :=
  .next <| .ddpRequest fun _ => .ite (ddpAnswer_follows (.refl _) ..) <| .ite (ddpAnswer_follows (.refl _) ..) <|
    ddpAnswer_follows (updCore_follows (haltCore_follows (.refl _) ..) _ _ fun _ _ => rfl) ..

theorem execDdpState_keeps (q core : Nat) (s : State) : Keeps s (execDdpState q core s) :=
  .next <| .ddpRequest fun _ => .ite (ddpAnswer_follows (.refl _) ..) <|
    ddpAnswer_follows (State.drawn_follows (.refl _)) ..

theorem execDdpSetBreak_keeps (q core idx : Nat) (on : Bool) (addr : Nat) (s : State) :
    Keeps s (execDdpSetBreak q core idx on addr s) :=
  .next <| .ddpRequest fun _ => .ite (ddpAnswer_follows (.refl _) ..) <|
    ddpAnswer_follows (updCore_follows (.refl _) _ _ (by simp)) ..

theorem execDdpSetWatch_keeps (q core idx access shift addr : Nat) (s : State) :
    Keeps s (execDdpSetWatch q core idx access shift addr s) :=
  .next <| .ddpRequest fun _ => .ite (ddpAnswer_follows (.refl _) ..) <|
    ddpAnswer_follows (updCore_follows (.refl _) _ _ (by simp)) ..

theorem execDdpRegRead_keeps (q core idx : Nat) (s : State) : Keeps s (execDdpRegRead q core idx s) :=
  .next <| .ddpRequest fun _ => .ite (ddpAnswer_follows (.refl _) ..) <|
    ddpAnswer_follows (State.drawn_follows (.refl _)) ..

theorem execDdpRegWrite_keeps (q core idx val : Nat) (s : State) : Keeps s (execDdpRegWrite q core idx val s) :=
  .next <| .ddpRequest fun _ => .ite (ddpAnswer_follows (.refl _) ..) <|
    .ite (ddpAnswer_follows (.refl _) ..) <|
    ddpAnswer_follows (noteWrite_follows (updCore_follows (.refl _) _ _ (by simp)) ..) ..

theorem execDdpMemRead_keeps (q space core len off addr : Nat) (s : State) :
    Keeps s (execDdpMemRead q space core len off addr s) := by
  refine .next <| .ddpRequest fun _ => .ite (ddpAnswer_follows (.refl _) ..) <|
    .ite ?_ <| ddpAnswer_follows (State.drawn_follows (.refl _)) ..
  split
  · exact ddpAnswer_follows (.refl _) ..
  · exact ddpAnswer_follows (.refl _) ..

theorem execDdpMemWrite_keeps (q space core off addr : Nat) (bytes : List Nat) (s : State) :
    Keeps s (execDdpMemWrite q space core off addr bytes s) := by
  refine .next <| .ddpRequest fun _ => .ite (ddpAnswer_follows (.refl _) ..) <| .ite (ddpAnswer_follows (.refl _) ..) ?_
  split
  · exact .ite (ddpAnswer_follows (.refl _) ..) <| ddpAnswer_follows (noteWrite_follows
      (updCore_follows (.refl _) _ _ fun _ h => Memory.wf_store bytes h addr) ..) ..
  · exact .ite (ddpAnswer_follows (.refl _) ..) <| ddpAnswer_follows (noteWrite_follows
      (.onDbg (.refl _) _ rfl fun ⟨htag, hhbm, hcores⟩ => ⟨Memory.wf_store bytes htag addr, hhbm, hcores⟩) ..) ..
  · exact .ite (ddpAnswer_follows (.refl _) ..) <| ddpAnswer_follows (noteWrite_follows
      (.onDbg (.refl _) _ rfl fun ⟨htag, hhbm, hcores⟩ => ⟨htag, Memory.wf_store bytes hhbm addr, hcores⟩) ..) ..

theorem execDdpMailbox_keeps (q slot : Nat) (f : MbFrame) (s : State) : Keeps s (execDdpMailbox q slot f s) :=
  .next <| .ddpRequest fun _ => .ite (ddpAnswer_follows (.refl _) ..) <|
    ddpAnswer_follows (.ite (mbCounted_follows (.refl _) ..) (mbReceive_follows (.refl _) ..)) ..

theorem execDdpMailboxResult_keeps (q slot : Nat) (s : State) : Keeps s (execDdpMailboxResult q slot s) := by
  refine .next <| .ddpRequest fun _ => .ite (ddpAnswer_follows (.refl _) ..) ?_
  split
  · exact ddpAnswer_follows (takeResult_follows (.refl _) ..) ..
  · exact ddpAnswer_follows (.refl _) ..

theorem execDdpDebugReset_keeps (q core : Nat) (s : State) : Keeps s (execDdpDebugReset q core s) := by
  refine .next <| .ddpRequest fun st => .ite (ddpAnswer_follows (.refl _) ..) <| .ite (ddpAnswer_follows (.refl _) ..) ?_
  have entered := debugEntry_follows (.refl st) 0x4005 st.unlockKey (coreObj core)
  have reset := updCore_follows (.ite (c := 4 ≤ core) (engineRecall_follows entered 0x3005 (core - 4)) entered) core
    (fun _ => { reason := 5 }) fun _ _ => rfl
  exact ddpAnswer_follows (releaseHoldOf_follows reset ..) ..

theorem execDdpBadPacket_keeps (q type : Nat) (unknownType : Bool) (s : State) :
    Keeps s (execDdpBadPacket q type unknownType s) :=
  .next <| .ite (.ddpRequest fun _ => ddpAnswer_follows (.refl _) ..) <| .ite (.refl _) <| .onDbg (.refl _) _ rfl id

theorem execBreakpointHit_keeps (core idx : Nat) (s : State) : Keeps s (execBreakpointHit core idx s) := by
  refine .ite (.fault _) <| .next ?_
  split
  · exact .refl _
  · exact .ite (.refl _) <| updCore_follows (haltCore_follows (.refl _) ..) _ _ (by simp)

theorem execWatchpointHit_keeps (core idx : Nat) (s : State) : Keeps s (execWatchpointHit core idx s) :=
  .ite (.fault _) <| .next <| .ite (.refl _) <| .ite (haltCore_follows (.refl _) ..) <|
    .ite (updCore_follows (.refl _) _ _ (by simp)) <| .refl _

theorem execDebugHoldEnd_keeps (s : State) : Keeps s (execDebugHoldEnd s) := by
  refine .next ?_
  split
  · exact .refl _
  · exact .ite (.refl _) <| releaseHold_follows (.refl _)

/-! ### Links and network interfaces -/

theorem execFlush_keeps (assoc row : Nat) (s : State) : Keeps s (execFlush assoc row s) := by
  refine .next ?_
  split
  · exact .refl _
  · exact .ite (.refl _) <| .ite (endOffline_follows (.refl _) ..) <|
      settleMedia_follows (updCmd_follows (.refl _) ..)

theorem execWrite_keeps (assoc row : Nat) (s : State) : Keeps s (execWrite assoc row s) := by
  refine .next ?_
  split
  · exact .refl _
  · exact .ite (endOffline_follows (dropPush_follows (.refl _) ..) ..) <|
      .ite (enqueue_follows (updCmd_follows (.refl _) ..) ..) <| updCmd_follows (.refl _) ..

theorem execWriteExecutable_keeps (assoc row : Nat) (s : State) : Keeps s (execWriteExecutable assoc row s) := by
  refine .next ?_
  split
  · exact .refl _
  · refine .ite (.refl _) <| .ite (endOffline_follows (dropPush_follows (.refl _) ..) ..) ?_
    split
    · exact endIo_follows (dropPush_follows (.refl _) ..) ..
    · exact makeExecutable_follows (.refl _) ..

theorem execWriteStart_keeps (assoc row : Nat) (s : State) : Keeps s (execWriteStart assoc row s) := by
  refine .next ?_
  split
  · exact .refl _
  · exact .ite (startWrite_follows (.refl _) ..) <| .refl _

theorem execRead_keeps (assoc row : Nat) (s : State) : Keeps s (execRead assoc row s) := by
  refine .next ?_
  split
  · exact .refl _
  · exact .ite (endOffline_follows (.refl _) ..) <| updCmd_follows (.refl _) ..

theorem execReadAdmission_keeps (assoc row : Nat) (s : State) : Keeps s (execReadAdmission assoc row s) := by
  refine .next ?_
  split
  · exact .refl _
  · exact .ite (.refl _) <| .ite (endOffline_follows (.refl _) ..) <|
      .ite (.ite (.refl _) (updPort_follows (updCmd_follows (.refl _) ..) ..)) <|
      .ite (startRead_follows (.refl _) ..) <| .ite (startRead_follows (updAssoc_follows (.refl _) ..) ..) <|
      updCmd_follows (updAssoc_follows (.refl _) ..) ..

theorem execShaperRelease_keeps (assoc : Nat) (s : State) : Keeps s (execShaperRelease assoc s) := by
  refine .next ?_
  split
  · exact .refl _
  · dsimp only
    split
    · exact .refl _
    · split
      · exact .refl _
      · exact .ite (.refl _) <| startRead_follows (updAssoc_follows (.refl _) ..) ..

theorem execWriteZeroes_keeps (assoc row : Nat) (s : State) : Keeps s (execWriteZeroes assoc row s) := by
  refine .next ?_
  split
  · exact .refl _
  · exact .ite (endOffline_follows (.refl _) ..) <|
      makeExecutable_follows (State.drawn_follows (.ite (deallocRows_follows (.refl _) ..) (.refl _))) ..

theorem execDatasetManagement_keeps (assoc row : Nat) (s : State) : Keeps s (execDatasetManagement assoc row s) := by
  refine .next ?_
  split
  · exact .refl _
  · exact .ite (endOffline_follows (.refl _) ..) <| .ite (endIo_follows (.refl _) ..) <|
      makeExecutable_follows (.foldl (.refl _) _ _ fun _ _ => deallocRows_follows (.refl _) ..) ..

theorem execVerify_keeps (assoc row : Nat) (s : State) : Keeps s (execVerify assoc row s) := by
  refine .next ?_
  split
  · exact .refl _
  · exact .ite (endOffline_follows (.refl _) ..) <| startRead_follows (.refl _) ..

theorem execNvmeTcpConnection_keeps (src port : Nat) (tlsOk : Bool) (principal controller : Option Nat) (qid : Nat)
    (s : State) : Keeps s (execNvmeTcpConnection src port tlsOk principal controller qid s) := by
  refine .next <| .ite (.refl _) <| .ite (enqueue_follows (.refl _) ..) ?_
  split
  · split
    · exact enqueue_follows (.refl _) ..
    · exact .ite (enqueue_follows (updAssoc_follows (.refl _) ..) ..) <| enqueue_follows (.refl _) ..
  · exact .ite (enqueue_follows (.refl _) ..) <|
      enqueue_follows (issueStitch_follows (.onIo (State.drawn_follows (.refl _)) _) ..) ..

theorem execNvmeTcpCommandCapsule_keeps (assoc : Nat) (q : Sqe) (len data : Nat) (ranges : List (Nat × Nat)) (s : State) :
    Keeps s (execNvmeTcpCommandCapsule assoc q len data ranges s) := by
  refine .next ?_
  split
  · exact .refl _
  · refine .ite (.refl _) ?_
    dsimp only
    split
    · exact updAssoc_follows (.refl _) ..
    · exact .ite (finish_follows (.onIo (updAssoc_follows (.refl _) ..) _) ..) <|
        acceptCmd_follows (updAssoc_follows (.refl _) ..) ..

theorem execNvmeTcpH2cData_keeps (assoc row off len data : Nat) (s : State) :
    Keeps s (execNvmeTcpH2cData assoc row off len data s) := by
  refine .next ?_
  split
  · exact .ite (.refl _) <| .ite (forwardCmd_follows (tryOrder_follows (updAssoc_follows (updCmd_follows (.refl _) ..) ..) ..) ..) <|
      updAssoc_follows (updCmd_follows (.refl _) ..) ..
  · exact .refl _

theorem execNvmeTcpConnectionClose_keeps (assoc qid : Nat) (s : State) :
    Keeps s (execNvmeTcpConnectionClose assoc qid s) := by
  refine .next ?_
  split
  · exact .refl _
  · exact .ite (.refl _) <| .ite (releaseAssoc_follows (updAssoc_follows (updAssoc_follows (.refl _) ..) ..) ..) <|
      .foldl (updAssoc_follows (.refl _) ..) _ _ fun _ _ => resetCommand_follows (.refl _) ..

/-! ### All commands -/

/-- Whatever the command and the state: where the command answers a next state, that state follows. -/
theorem exec_keeps (s : State) : ∀ c : Instr, Keeps s (exec c s)
  | .hello1 .. => execHello1_keeps ..
  | .hello1Resume .. => execHello1Resume_keeps ..
  | .keys3 .. => execKeys3_keeps ..
  | .helloLockoutExpiry .. => .next <| .onIo (.refl _) _
  | .halfOpenExpiry .. => execHalfOpenExpiry_keeps ..
  | .cmd .. => execCmd_keeps ..
  | .push .. => execPush_keeps ..
  | .ack .. => .next <| .onArrival fun _ _ => .refl _
  | .nak .. => execNak_keeps ..
  | .vdtFlush .. => .next <| .onArrival fun _ _ => answerFlushes_follows (updAssoc_follows (.refl _) ..) ..
  | .flushAck .. => execFlushAck_keeps ..
  | .violation .. => execViolation_keeps ..
  | .keepalive .. => execKeepalive_keeps ..
  | .acknowledgementDelayExpiry .. => execAcknowledgementDelayExpiry_keeps ..
  | .gapDelayExpiry .. => execGapDelayExpiry_keeps ..
  | .retransmissionTimerExpiry .. => execRetransmissionTimerExpiry_keeps ..
  | .resumeWindowExpiry .. => execResumeWindowExpiry_keeps ..
  | .keepaliveIntervalExpiry .. => execKeepaliveIntervalExpiry_keeps ..
  | .keyPhaseTimeout .. => execKeyPhaseTimeout_keeps ..
  | .previousKeyDiscard .. => execPreviousKeyDiscard_keeps ..
  | .violationIntervalEnd => execViolationIntervalEnd_keeps ..
  | .windowRegister .. => execWindowRegister_keeps ..
  | .windowRevoke .. => execWindowRevoke_keeps ..
  | .zoneGrant .. => execZoneGrant_keeps ..
  | .zoneRelease .. => execZoneRelease_keeps ..
  | .windowDrainEnd .. => execWindowDrainEnd_keeps ..
  | .zoneDataWaitExpiry .. => execZoneDataWaitExpiry_keeps ..
  | .zoneDrainEnd .. => execZoneDrainEnd_keeps ..
  | .getLogPage .. => execGetLogPage_keeps ..
  | .identify .. => execIdentify_keeps ..
  | .abort .. => execAbort_keeps ..
  | .setFeatures .. => execSetFeatures_keeps ..
  | .getFeatures .. => execGetFeatures_keeps ..
  | .asynchronousEventRequest .. => execAsynchronousEventRequest_keeps ..
  | .deviceSelfTest .. => execDeviceSelfTest_keeps ..
  | .selfTestResume => execSelfTestResume_keeps ..
  | .selfTestEnd .. => execSelfTestEnd_keeps ..
  | .keepAlive .. => execKeepAlive_keeps ..
  | .katoExpiry .. => execKatoExpiry_keeps ..
  | .vendorMailboxPassthrough .. => execVendorMailboxPassthrough_keeps ..
  | .flush .. => execFlush_keeps ..
  | .write .. => execWrite_keeps ..
  | .writeExecutable .. => execWriteExecutable_keeps ..
  | .writeStart .. => execWriteStart_keeps ..
  | .read .. => execRead_keeps ..
  | .readAdmission .. => execReadAdmission_keeps ..
  | .shaperRelease .. => execShaperRelease_keeps ..
  | .writeZeroes .. => execWriteZeroes_keeps ..
  | .datasetManagement .. => execDatasetManagement_keeps ..
  | .verify .. => execVerify_keeps ..
  | .nvmeTcpConnection .. => execNvmeTcpConnection_keeps ..
  | .nvmeTcpCommandCapsule .. => execNvmeTcpCommandCapsule_keeps ..
  | .nvmeTcpH2cData .. => execNvmeTcpH2cData_keeps ..
  | .driveCompletion .. => execDriveCompletion_keeps ..
  | .orphanTimerExpiry .. => execOrphanTimerExpiry_keeps ..
  | .driveCommandTimeout .. => execDriveCommandTimeout_keeps ..
  | .driveReady .. => execDriveReady_keeps ..
  | .driveReadyTimeout .. => execDriveReadyTimeout_keeps ..
  | .driveSubmission .. => execDriveSubmission_keeps ..
  | .drainRow .. => execDrainRow_keeps ..
  | .drainRowComplete .. => execDrainRowComplete_keeps ..
  | .bitmapSetRecorded .. => execBitmapSetRecorded_keeps ..
  | .bitmapIdleExpiry .. => execBitmapIdleExpiry_keeps ..
  | .resyncRow .. => execResyncRow_keeps ..
  | .rebuildRow .. => execRebuildRow_keeps ..
  | .memberAbsent .. => execMemberAbsent_keeps ..
  | .memberReturn .. => execMemberReturn_keeps ..
  | .returnGraceExpiry .. => execReturnGraceExpiry_keeps ..
  | .keeperCopyComplete .. => .next <| .ite (stitchMember_follows (updArr_follows (.refl _) ..) ..) <| .refl _
  | .patrolRow .. => execPatrolRow_keeps ..
  | .importEnd .. => execImportEnd_keeps ..
  | .copyPassEnd .. => execCopyPassEnd_keeps ..
  | .copyFinalPassEnd .. => execCopyFinalPassEnd_keeps ..
  | .copyFinalPassTimeout .. => execCopyFinalPassTimeout_keeps ..
  | .chunkCompressed .. => execChunkCompressed_keeps ..
  | .rowTimeout .. => execRowTimeout_keeps ..
  | .rowCommit .. => execRowCommit_keeps ..
  | .checkpointIntervalExpiry .. => execCheckpointIntervalExpiry_keeps ..
  | .checkpointEnd .. => execCheckpointEnd_keeps ..
  | .frogSelect .. => execFrogSelect_keeps ..
  | .mapPageFetch .. => execMapPageFetch_keeps ..
  | .leaseRenewalTimer .. => execLeaseRenewalTimer_keeps ..
  | .grant .. => execGrant_keeps ..
  | .refuse .. => execRefuse_keeps ..
  | .state .. => execState_keeps ..
  | .witnessPoll => execWitnessPoll_keeps ..
  | .stopPoint .. => execStopPoint_keeps ..
  | .relay .. => execRelay_keeps ..
  | .promise .. => execPromise_keeps ..
  | .promiseExpiry .. => execPromiseExpiry_keeps ..
  | .claimWaitExpiry .. => .next <| .ite (.refl _) <| .whenDue fun _ => claim_follows (.refl _) ..
  | .yarnLinkDown .. => execYarnLinkDown_keeps ..
  | .yarnLinkUp .. => execYarnLinkUp_keeps ..
  | .heartbeatTimer .. => execHeartbeatTimer_keeps ..
  | .heartbeat .. => execHeartbeat_keeps ..
  | .stitchRetransmitTimer .. => execStitchRetransmitTimer_keeps ..
  | .stitchAck .. => execStitchAck_keeps ..
  | .arrivalStitch .. => .next <| replay_follows (.refl _) ..
  | .driveStitch .. => .next <| replay_follows (.refl _) ..
  | .timerStitch .. => .next <| replay_follows (.refl _) ..
  | .writePlanStitch .. => .next <| replay_follows (.refl _) ..
  | .bitmapStitch .. => .next <| replay_follows (.refl _) ..
  | .memberStitch .. => .next <| replay_follows (.refl _) ..
  | .lostStitch .. => .next <| replay_follows (.refl _) ..
  | .patrolStitch .. => .next <| replay_follows (.refl _) ..
  | .rowStitch .. => .next <| replay_follows (.refl _) ..
  | .commitStitch .. => .next <| replay_follows (.refl _) ..
  | .checkpointStitch .. => .next <| replay_follows (.refl _) ..
  | .frogStitch .. => .next <| replay_follows (.refl _) ..
  | .abortStitch .. => .next <| replay_follows (.refl _) ..
  | .deliveredStitch .. => .next <| replay_follows (.refl _) ..
  | .deferredStitch .. => .next <| replay_follows (.refl _) ..
  | .assocStitch .. => .next <| replay_follows (.refl _) ..
  | .assocStateStitch .. => .next <| replay_follows (.refl _) ..
  | .zoneStitch .. => .next <| replay_follows (.refl _) ..
  | .violationStitch .. => .next <| replay_follows (.refl _) ..
  | .leaseStitch .. => .next <| replay_follows (.refl _) ..
  | .settingStitch .. => .next <| replay_follows (.refl _) ..
  | .copyStitch .. => .next <| replay_follows (.refl _) ..
  | .confirm .. => execConfirm_keeps ..
  | .missing .. => execMissing_keeps ..
  | .forward .. => execForward_keeps ..
  | .twinWaitExpiry .. => execTwinWaitExpiry_keeps ..
  | .singleSidedEntry .. => execSingleSidedEntry_keeps ..
  | .twinlessHoldExpiry .. => execTwinlessHoldExpiry_keeps ..
  | .relayRead .. => execRelayRead_keeps ..
  | .digest .. => execDigest_keeps ..
  | .warm .. => .next <| .ite (finish_follows (yarnFreed_follows (.refl _) ..) ..) <| .refl _
  | .cast .. => execCast_keeps ..
  | .handoverDrainDeadline .. => execHandoverDrainDeadline_keeps ..
  | .handoverResendTimer .. => execHandoverResendTimer_keeps ..
  | .proofRunStart => .next <| .ite (.refl _) <| startProof_follows (.refl _) ..
  | .proofRunNext .. => execProofRunNext_keeps ..
  | .castOnStart .. => execCastOnStart_keeps ..
  | .castOnStepComplete .. => execCastOnStepComplete_keeps ..
  | .castOnDeadline => execCastOnDeadline_keeps ..
  | .castOnRetry => execCastOnRetry_keeps ..
  | .jointStartYield arrs => execJointStartYield_keeps arrs s
  | .frameReceive .. => execFrameReceive_keeps ..
  | .contextFetchComplete .. => execContextFetchComplete_keeps ..
  | .slowPathFrame => execSlowPathFrame_keeps ..
  | .pauseRepeatTimer .. => execPauseRepeatTimer_keeps ..
  | .pauseFrame .. => execPauseFrame_keeps ..
  | .pauseExpiry .. => execPauseExpiry_keeps ..
  | .creditReturnTimer .. => execCreditReturnTimer_keeps ..
  | .yarnCredit .. => .next <| .onSw (.refl _) _
  | .egressSelect .. => execEgressSelect_keeps ..
  | .ageingSweep => .next <| .foldl (.refl _) _ _ fun _ _ => ageItem_follows (.refl _) ..
  | .planeFailure .. => execPlaneFailure_keeps ..
  | .bankSwapPause .. => execBankSwapPause_keeps ..
  | .parserStop .. => .ite (.fault _) <| .next <| .ite (.whenDue fun _ => updParser_follows (.refl _) ..) <| .refl _
  | .bankSwap .. => execBankSwap_keeps ..
  | .gateIntervalEnd .. => execGateIntervalEnd_keeps ..
  | .queueSample => .next <| .onSw (.refl _) _
  | .bayInsert .. => execBayInsert_keeps ..
  | .bayRemove .. => execBayRemove_keeps ..
  | .outputReachesThreshold .. => execOutputReachesThreshold_keeps ..
  | .rampTimeout .. => .ite (.fault _) <| .next <| .ite (.whenDue fun _ => trip_follows (.refl _) ..) <| .refl _
  | .qualificationComplete .. => execQualificationComplete_keeps ..
  | .faultTimerStart .. => .ite (.fault _) <| .next <| .ite (.refl _) <| updChan_follows (.refl _) _ _ (by simp)
  | .faultTimerClear .. => .ite (.fault _) <| .next <| .ite (.refl _) <| updChan_follows (.refl _) _ _ (by simp)
  | .faultTimerExpiry .. => .ite (.fault _) <| .next <| .ite (.whenDue fun _ => trip_follows (.refl _) ..) <| .refl _
  | .modelOverTemperature .. => .ite (.fault _) <| .next <| .ite (trip_follows (.refl _) ..) <| .refl _
  | .powerGoodLoss .. => execPowerGoodLoss_keeps ..
  | .perstRelease .. => execPerstRelease_keeps ..
  | .coolDownEnd .. => execCoolDownEnd_keeps ..
  | .retryBudgetRestore .. => execRetryBudgetRestore_keeps ..
  | .bayRelink .. => execBayRelink_keeps ..
  | .partnerSlotEmptyTimeout => execPartnerSlotEmptyTimeout_keeps ..
  | .bayButtonPress .. => .ite (.fault _) <| .next <| .ite (.refl _) <| panelPost_follows (.refl _) ..
  | .bayButtonHeld .. => .ite (.fault _) <| .next <| .ite (panelPost_follows (.refl _) ..) <| .refl _
  | .removalPreparationLapse .. => execRemovalPreparationLapse_keeps ..
  | .removalFlushDeadline .. => execRemovalFlushDeadline_keeps ..
  | .removalShutdownDeadline .. => execRemovalShutdownDeadline_keeps ..
  | .lineVoltageChange .. => .next <| refreshBudget_follows (.onBays_of_ch (.refl _) _)
  | .budgetRiseHold => execBudgetRiseHold_keeps ..
  | .powerMeasurementCheck .. => execPowerMeasurementCheck_keeps ..
  | .mainsLoss => execMainsLoss_keeps ..
  | .holdUpDriveDeadline => execHoldUpDriveDeadline_keeps ..
  | .holdUpDumpEnd .. => execHoldUpDumpEnd_keeps ..
  | .holdUpEnd => execHoldUpEnd_keeps ..
  | .mainsReturn => execMainsReturn_keeps ..
  | .dumpRateMeasurement .. => .next <| .ite (startHeld_follows (updArr_follows (.refl _) ..)) <| .refl _
  | .holdUpTimeMeasurement .. => .next <| putHoldUpTime_follows (.refl _) ..
  | .fanLoop .. => execFanLoop_keeps ..
  | .fanFailure .. => execFanFailure_keeps ..
  | .osfpPresence .. => execOsfpPresence_keeps ..
  | .osfpMonitor .. => .ite (.fault _) <| .next <| .ite (.refl _) <| portDown_follows (.onBays_of_ch (.refl _) _) ..
  | .serviceKeyTouch => .next <| .ite (lightUp_follows (.onBays_of_ch (.refl _) _)) <| .refl _
  | .serviceKeyHold => execServiceKeyHold_keeps ..
  | .serviceKeyLongHold => .next <| .ite (panelPost_follows (lightUp_follows (.refl _)) ..) <| .refl _
  | .backlightTimeout => .next <| .whenDue fun _ => .onBays_of_ch (.refl _) _
  | .mainsApplied => .next <| .ite (.refl _) <| .onBays_of_ch (.onMd (.refl _) _) _
  | .serviceDomainReady .. => execServiceDomainReady_keeps ..
  | .rootLock => .next <| .ite (.refl _) <| .onTime (.onMd (.refl _) _) _ rfl
  | .managementFirmwareRunning .. => execManagementFirmwareRunning_keeps ..
  | .bayGroupTimer => execBayGroupTimer_keeps ..
  | .driveReadyWaitExpiry .. => execDriveReadyWaitExpiry_keeps ..
  | .arraysAssembled .. => execArraysAssembled_keeps ..
  | .modeDrainComplete => execModeDrainComplete_keeps ..
  | .watchdogLapse => .next <| .ite (protectReset_follows (.refl _) ..) <| .refl _
  | .rootLockLoss => execRootLockLoss_keeps ..
  | .thermalLimit => execThermalLimit_keeps ..
  | .thermalRecovery => .next <| .ite (protectReset_follows (.refl _) ..) <| .refl _
  | .ptpMessage .. => execPtpMessage_keeps ..
  | .announceReceiptTimeout => execAnnounceReceiptTimeout_keeps ..
  | .deviceTimeSave => .next <| .ite (.refl _) <| .whenDue fun _ => .onTime (.refl _) _ rfl
  | .leapSecond => execLeapSecond_keeps ..
  | .ps1Entry .. => .next <| .ite (.refl _) <| enterPs1_follows (stitchPs_follows (.refl _) ..) ..
  | .ps2IdleExpiry => execPs2IdleExpiry_keeps ..
  | .ps2SafePoint => execPs2SafePoint_keeps ..
  | .powerStateExit .. => execPowerStateExit_keeps ..
  | .mailboxBadFrame .. => .next <| .ite (.refl _) <| .ite (.refl _) <| mbCounted_follows (.refl _) ..
  | .mailboxUnknownOpcode .. => .next <| mbPost_follows (.refl _) ..
  | .serviceBusResultRead .. => .next <| takeResult_follows (.refl _) ..
  | .managementSessionOpen .. => execManagementSessionOpen_keeps ..
  | .sessionIdleTimeout .. => execSessionIdleTimeout_keeps ..
  | .getSetting .. => .next <| mailbox_follows (.refl _) ..
  | .setSetting .. => .next <| mailbox_follows (.refl _) ..
  | .unitIdentify .. => .next <| mailbox_follows (.refl _) ..
  | .getAlarms .. => .next <| mailbox_follows (.refl _) ..
  | .clearConfigurationAlarm .. => .next <| mailbox_follows (.refl _) ..
  | .changeMode .. => .next <| mailbox_follows (.refl _) ..
  | .moduleReset .. => .next <| mailbox_follows (.refl _) ..
  | .controllerReset .. => .next <| mailbox_follows (.refl _) ..
  | .operationStatus .. => .next <| mailbox_follows (.refl _) ..
  | .operationCancel .. => .next <| mailbox_follows (.refl _) ..
  | .setPortAddresses .. => .next <| mailbox_follows (.refl _) ..
  | .writeIndirectionTable .. => .next <| mailbox_follows (.refl _) ..
  | .writeDscpTables .. => .next <| mailbox_follows (.refl _) ..
  | .associationReset .. => .next <| mailbox_follows (.refl _) ..
  | .listAssociations .. => .next <| mailbox_follows (.refl _) ..
  | .principalCreate .. => .next <| mailbox_follows (.refl _) ..
  | .principalModify .. => .next <| mailbox_follows (.refl _) ..
  | .principalRemove .. => .next <| mailbox_follows (.refl _) ..
  | .principalList .. => .next <| mailbox_follows (.refl _) ..
  | .generateUnitKey .. => .next <| mailbox_follows (.refl _) ..
  | .installUnitCertificate .. => .next <| mailbox_follows (.refl _) ..
  | .setOutboundCredential .. => .next <| mailbox_follows (.refl _) ..
  | .arrayCreate .. => .next <| mailbox_follows (.refl _) ..
  | .arrayDelete .. => .next <| mailbox_follows (.refl _) ..
  | .assignDrive .. => .next <| mailbox_follows (.refl _) ..
  | .markMemberFailed .. => .next <| mailbox_follows (.refl _) ..
  | .arrayStatus .. => .next <| mailbox_follows (.refl _) ..
  | .listLostBlocks .. => .next <| mailbox_follows (.refl _) ..
  | .listPatrolReports .. => .next <| mailbox_follows (.refl _) ..
  | .importArray .. => .next <| mailbox_follows (.refl _) ..
  | .volumeCreate .. => .next <| mailbox_follows (.refl _) ..
  | .volumeDelete .. => .next <| mailbox_follows (.refl _) ..
  | .volumeResize .. => .next <| mailbox_follows (.refl _) ..
  | .copyStart .. => .next <| mailbox_follows (.refl _) ..
  | .copyCutover .. => .next <| mailbox_follows (.refl _) ..
  | .listMapInconsistencies .. => .next <| mailbox_follows (.refl _) ..
  | .writeGateList .. => .next <| mailbox_follows (.refl _) ..
  | .readGateList .. => .next <| mailbox_follows (.refl _) ..
  | .setPolicyRecord .. => .next <| mailbox_follows (.refl _) ..
  | .clearQueueRecords .. => .next <| mailbox_follows (.refl _) ..
  | .setWitnessAddress .. => .next <| mailbox_follows (.refl _) ..
  | .setWitnessKey .. => .next <| mailbox_follows (.refl _) ..
  | .handover .. => .next <| mailbox_follows (.refl _) ..
  | .startProofRun .. => .next <| mailbox_follows (.refl _) ..
  | .clearNoClaimMarks .. => .next <| mailbox_follows (.refl _) ..
  | .readDivergenceSnapshot .. => .next <| mailbox_follows (.refl _) ..
  | .pairStatus .. => .next <| mailbox_follows (.refl _) ..
  | .bayPower .. => .next <| mailbox_follows (.refl _) ..
  | .removalRequest .. => .next <| mailbox_follows (.refl _) ..
  | .locate .. => .next <| mailbox_follows (.refl _) ..
  | .powerStateRequest .. => .next <| mailbox_follows (.refl _) ..
  | .powerStatus .. => .next <| mailbox_follows (.refl _) ..
  | .exportSwatch .. => .next <| mailbox_follows (.refl _) ..
  | .writeSwatchEntry .. => .next <| mailbox_follows (.refl _) ..
  | .readAuditEntries .. => .next <| mailbox_follows (.refl _) ..
  | .exportAuditLog .. => .next <| mailbox_follows (.refl _) ..
  | .sealAuditLog .. => .next <| mailbox_follows (.refl _) ..
  | .readObject .. => .next <| mailbox_follows (.refl _) ..
  | .freeze .. => .next <| mailbox_follows (.refl _) ..
  | .freezeExpiry => .next <| .whenDue fun _ => .onAudit (.refl _) _ rfl rfl
  | .releaseFreeze .. => .next <| mailbox_follows (.refl _) ..
  | .stageSegment .. => .next <| mailbox_follows (.refl _) ..
  | .verifyStagedImage .. => .next <| mailbox_follows (.refl _) ..
  | .activate .. => .next <| mailbox_follows (.refl _) ..
  | .activationDrainEnd => execActivationDrainEnd_keeps ..
  | .activationDrainTimeout => execActivationDrainTimeout_keeps ..
  | .discardStagedImage .. => .next <| mailbox_follows (.refl _) ..
  | .takeOutOfService .. => .next <| mailbox_follows (.refl _) ..
  | .partDrainComplete .. => .next <| .ite (.refl _) <| partOut_follows (.ite (.onIo (.refl _) _) (.refl _)) ..
  | .returnToService .. => .next <| mailbox_follows (.refl _) ..
  | .runOnlineTest .. => .next <| mailbox_follows (.refl _) ..
  | .onlineTestEnd .. => execOnlineTestEnd_keeps ..
  | .engineRecall .. => .next <| mailbox_follows (.refl _) ..
  | .tileWatchdog .. => execTileWatchdog_keeps ..
  | .hbmUncorrectedError .. => execHbmUncorrectedError_keeps ..
  | .hbmCopyComplete .. => execHbmCopyComplete_keeps ..
  | .netPortDrainEnd .. => execNetPortDrainEnd_keeps ..
  | .setTime .. => .next <| mailbox_follows (.refl _) ..
  | .getTime .. => .next <| mailbox_follows (.refl _) ..
  | .installUnlockKey .. => .next <| mailbox_follows (.refl _) ..
  | .removeUnlockKey .. => .next <| mailbox_follows (.refl _) ..
  | .debugPortPolicy .. => .next <| mailbox_follows (.refl _) ..
  | .revokeUnlock .. => .next <| mailbox_follows (.refl _) ..
  | .ddpConnect .. => execDdpConnect_keeps ..
  | .ddpUnlock .. => execDdpUnlock_keeps ..
  | .ddpHalt .. => execDdpHalt_keeps ..
  | .ddpResume .. => execDdpResume_keeps ..
  | .ddpStep .. => execDdpStep_keeps ..
  | .ddpState .. => execDdpState_keeps ..
  | .ddpSetBreak .. => execDdpSetBreak_keeps ..
  | .ddpSetWatch .. => execDdpSetWatch_keeps ..
  | .ddpRegRead .. => execDdpRegRead_keeps ..
  | .ddpRegWrite .. => execDdpRegWrite_keeps ..
  | .ddpMemRead .. => execDdpMemRead_keeps ..
  | .ddpMemWrite .. => execDdpMemWrite_keeps ..
  | .ddpMailbox .. => execDdpMailbox_keeps ..
  | .ddpMailboxResult .. => execDdpMailboxResult_keeps ..
  | .ddpDebugReset .. => execDdpDebugReset_keeps ..
  | .ddpDisconnect .. => .next <| .ddpRequest fun _ => ddpAnswer_follows (endSession_follows (.refl _)) ..
  | .ddpBadPacket .. => execDdpBadPacket_keeps ..
  | .linkReset => .next <| .refl _
  | .debugPresenceChange .. => .next <| .onDbg (.ite (.refl _) (endSession_follows (.refl _))) _ rfl id
  | .breakpointHit .. => execBreakpointHit_keeps ..
  | .watchpointHit .. => execWatchpointHit_keeps ..
  | .debugHoldEnd => execDebugHoldEnd_keeps ..
  | .unlockLockoutExpiry => .next <| .whenDue fun _ => .onDbg (.refl _) _ rfl id
  | .challengeExpiry => .next <| .whenDue fun _ => .onDbg (.refl _) _ rfl id
  | .consoleReceive .. => .next <| .onDbg (.refl _) _ rfl id
  | .portLinkStateChange .. => execPortLinkStateChange_keeps ..
  | .bayLinkStateChange .. => execBayLinkStateChange_keeps ..
  | .partnerPresenceChange .. => .next <| .ite (.refl _) <| .onMd (.refl _) _
  | .modPresBreak => execModPresBreak_keeps ..
  | .recoveryRungOverrun .. => execRecoveryRungOverrun_keeps ..
  | .debugHoldDeadline => .next <| .whenDue fun _ => debugHoldFails_follows (.refl _)
  | .ps2RequestTimeout => execPs2RequestTimeout_keeps ..
  | .witnessQueryRepeat => .next <| .ite (.refl _) <| .whenDue fun _ => queryAll_follows (.onPair (.refl _) _ rfl)
  | .standbyShutdownDeadline => execStandbyShutdownDeadline_keeps ..
  | .inbandSlotWaitExpiry .. => execInbandSlotWaitExpiry_keeps ..
  | .stagedImageVerifyEnd .. => execStagedImageVerifyEnd_keeps ..
  | .auditExportEnd => execAuditExportEnd_keeps ..
  | .activationRestartComplete => execActivationRestartComplete_keeps ..
  | .ledgerHeaderWriteTimer .. => execLedgerHeaderWriteTimer_keeps ..
  | .managementSessionClose .. => .next <| closeSession_follows (.refl _) ..
  | .nvmeTcpConnectionClose .. => execNvmeTcpConnectionClose_keeps ..
  | .copyAssociationPacket .. => execCopyAssociationPacket_keeps ..

theorem exec_follows {c : Instr} {s t : State} (h : exec c s = .next t) : Follows s t := by
  have keeps := exec_keeps s c
  rw [h] at keeps
  cases keeps with
  | next follows => exact follows

end Sys2Proof.Machine
end

section
/-! PROOFS. What follows the end of a drive command leaves every channel's power-good and PERST# as they are (R379): the operations that it
reaches leave the channels alone, but for the flag of a removal's Flush (R393). -/

namespace Sys2Proof.Machine

/-! ### The operations that leave the channels alone -/

@[simp] theorem ite_ch {c : Prop} [Decidable c] (s t : State) :
    (if c then s else t).bays.ch = if c then s.bays.ch else t.bays.ch := by
  split <;> rfl

@[simp] theorem foldl_ch {α : Type} {f : State → α → State} (h : ∀ s x, (f s x).bays.ch = s.bays.ch) (l : List α) (s : State) :
    (l.foldl f s).bays.ch = s.bays.ch := by
  induction l generalizing s with
  | nil => rfl
  | cons x l ih => exact (ih _).trans (h s x)

@[simp] theorem updDrive_ch (n : Nat) (f : Drive → Drive) (s : State) : (updDrive n f s).bays.ch = s.bays.ch := rfl

@[simp] theorem auditWrite_ch (e : AEntry) (s : State) : (auditWrite e s).bays.ch = s.bays.ch := by
  simp [auditWrite]

@[simp] theorem auditPush_ch (e : AEntry) (s : State) : (auditPush e s).bays.ch = s.bays.ch := by
  simp [auditPush]

@[simp] theorem fwEvent_ch (code data obj : Nat) (s : State) (new : Nat) :
    (fwEvent code data obj s new).bays.ch = s.bays.ch := by
  simp [fwEvent]

@[simp] theorem updPort_ch (p c : Nat) (f : PortCnt → PortCnt) (s : State) : (updPort p c f s).bays.ch = s.bays.ch := by
  simp [updPort]

@[simp] theorem endOper_ch (op : Nat) (st code : Nat) (s : State) : (endOper op st code s).bays.ch = s.bays.ch := by
  simp [endOper]

@[simp] theorem spillBalance_ch (s : State) : (spillBalance s).bays.ch = s.bays.ch := by
  simp [spillBalance]

@[simp] theorem highWater_ch (p c : Nat) (s : State) : (highWater p c s).bays.ch = s.bays.ch := by
  simp [highWater]

@[simp] theorem enqueue_ch (p c bytes : Nat) (m : OutMsg) (s : State) (src : Nat) :
    (enqueue p c bytes m s src).bays.ch = s.bays.ch := by
  simp [enqueue]

@[simp] theorem admitSeq_ch (a : Assoc) (cls : Nat) (body : PktBody) (s : State) :
    (admitSeq a cls body s).bays.ch = s.bays.ch := by
  unfold admitSeq
  exact enqueue_ch ..

@[simp] theorem sendSeq_ch (id cls : Nat) (b : PktBody) (s : State) : (sendSeq id cls b s).bays.ch = s.bays.ch := by
  unfold sendSeq
  (repeat' split) <;> simp

@[simp] theorem sendYarn_ch (cls bytes : Nat) (m : OutMsg) (s : State) :
    (sendYarn cls bytes m s).bays.ch = s.bays.ch := by
  simp [sendYarn]

@[simp] theorem issueStitch_ch (kind arr assoc row : Nat) (data : List Nat) (s : State) :
    (issueStitch kind arr assoc row data s).bays.ch = s.bays.ch := by
  simp [issueStitch]

@[simp] theorem stitchResult_ch (x : Slot) (code seq : Nat) (payload : List Nat) (s : State) :
    (stitchResult x code seq payload s).bays.ch = s.bays.ch := by
  simp [stitchResult]

@[simp] theorem freeSlot_ch (path slot : Nat) (s : State) : (freeSlot path slot s).bays.ch = s.bays.ch := by
  simp [freeSlot]

@[simp] theorem putResult_ch (x : Slot) (code seq : Nat) (payload : List Nat) (s : State) :
    (putResult x code seq payload s).bays.ch = s.bays.ch := by
  simp [putResult]

@[simp] theorem answerSlot_ch (path slot code : Nat) (payload : List Nat) (s : State) :
    (answerSlot path slot code payload s).bays.ch = s.bays.ch := by
  unfold answerSlot
  split <;> simp

@[simp] theorem settleSlots_ch (s : State) : (settleSlots s).bays.ch = s.bays.ch := by
  simp [settleSlots]

@[simp] theorem slotDc_ch (dc : Nat) (ok : Bool) (s : State) : (slotDc dc ok s).bays.ch = s.bays.ch := by
  unfold slotDc
  split <;> simp

@[simp] theorem logError_ch (c : Cmd) (sc : Nat) (s : State) : (logError c sc s).bays.ch = s.bays.ch := by
  simp [logError]

@[simp] theorem sendResp_ch (a : Assoc) (r : Resp) (s : State) : (sendResp a r s).bays.ch = s.bays.ch := by
  simp [sendResp]

@[simp] theorem freeAssoc_ch (id : Nat) (s : State) : (freeAssoc id s).bays.ch = s.bays.ch := by
  unfold freeAssoc
  split <;> simp

@[simp] theorem freeIfDone_ch (id : Nat) (s : State) : (freeIfDone id s).bays.ch = s.bays.ch := by
  unfold freeIfDone
  split <;> simp

@[simp] theorem finish_ch (id row sc dw0 dw1 : Nat) (more : Bool) (s : State) :
    (finish id row sc dw0 dw1 more s).bays.ch = s.bays.ch := by
  unfold finish
  split <;> simp

@[simp] theorem finishAfter_ch (id row stitch sc dw0 dw1 : Nat) (more : Bool) (s : State) :
    (finishAfter id row stitch sc dw0 dw1 more s).bays.ch = s.bays.ch := by
  simp [finishAfter]

@[simp] theorem finishAdm_ch (c : Cmd) (sc dw0 dw1 : Nat) (s : State) :
    (finishAdm c sc dw0 dw1 s).bays.ch = s.bays.ch := by
  unfold finishAdm
  split <;> simp

@[simp] theorem finishVia_ch (kind : Nat) (data : List Nat) (c : Cmd) (sc dw0 dw1 : Nat) (more : Bool) (s : State) :
    (finishVia kind data c sc dw0 dw1 more s).bays.ch = s.bays.ch := by
  simp [finishVia]

@[simp] theorem raiseEvent_ch (id etype info page : Nat) (s : State) :
    (raiseEvent id etype info page s).bays.ch = s.bays.ch := by
  unfold raiseEvent
  (repeat' split) <;> simp

@[simp] theorem raiseAll_ch (p : Assoc → Bool) (etype info page : Nat) (s : State) :
    (raiseAll p etype info page s).bays.ch = s.bays.ch := by
  simp [raiseAll]

@[simp] theorem issueTagged_ch (bay cls : Nat) (op : DrvOp) (lba cnt : Nat) (why : DrvWhy) (data : List Blk)
    (tags : List BlkMeta) (s : State) : (issueTagged bay cls op lba cnt why data tags s).bays.ch = s.bays.ch := by
  simp [issueTagged]

@[simp] theorem issueDc_ch (bay cls : Nat) (op : DrvOp) (lba cnt : Nat) (why : DrvWhy) (data : List Blk) (s : State) :
    (issueDc bay cls op lba cnt why data s).bays.ch = s.bays.ch := by
  simp [issueDc]

@[simp] theorem markFua_ch (ids : List Nat) (on : Bool) (s : State) : (markFua ids on s).bays.ch = s.bays.ch := by
  simp [markFua]

@[simp] theorem placeData_ch (c : Cmd) (cls len data sc : Nat) (s : State) :
    (placeData c cls len data sc s).bays.ch = s.bays.ch := by
  unfold placeData
  split <;> simp

@[simp] theorem writeMeta_ch (arr : Nat) (bays : List Nat) (lba : Nat) (blk : Blk) (s : State) :
    (writeMeta arr bays lba blk s).bays.ch = s.bays.ch := by
  unfold writeMeta
  split <;> simp

@[simp] theorem writeBits_ch (arr slot region : Nat) (s : State) :
    (writeBits arr slot region s).bays.ch = s.bays.ch := by
  unfold writeBits
  split <;> simp

@[simp] theorem writeSlot_ch (arr slot : Nat) (s : State) : (writeSlot arr slot s).bays.ch = s.bays.ch := by
  unfold writeSlot
  split <;> simp

@[simp] theorem writeLost_ch (arr : Nat) (old : List LostBlk) (s : State) :
    (writeLost arr old s).bays.ch = s.bays.ch := by
  unfold writeLost
  split <;> simp

@[simp] theorem ledgerSoon_ch (arr : Nat) (s : State) : (ledgerSoon arr s).bays.ch = s.bays.ch := by
  simp [ledgerSoon]

@[simp] theorem markLabels_ch (arr : Nat) (s : State) : (markLabels arr s).bays.ch = s.bays.ch := by
  unfold markLabels
  split
  · rfl
  · exact foldl_ch (fun _ _ => updDrive_ch ..) _ _

@[simp] theorem writeLabel_ch (arr p : Nat) (s : State) : (writeLabel arr p s).bays.ch = s.bays.ch := by
  unfold writeLabel
  split <;> simp

@[simp] theorem writeLabels_ch (arr : Nat) (s : State) : (writeLabels arr s).bays.ch = s.bays.ch := by
  unfold writeLabels
  split <;> simp

@[simp] theorem superblockStep_ch (arr step : Nat) (parts : List (Nat × List Blk)) (s : State) :
    (superblockStep arr step parts s).bays.ch = s.bays.ch := by
  unfold superblockStep
  split <;> simp

@[simp] theorem superblockNow_ch (arr : Nat) (s : State) : (superblockNow arr s).bays.ch = s.bays.ch := by
  unfold superblockNow
  split <;> simp

@[simp] theorem relabel_ch (arr : Nat) (s : State) : (relabel arr s).bays.ch = s.bays.ch := by
  unfold relabel
  split <;> simp

@[simp] theorem superblockNext_ch (arr : Nat) (s : State) : (superblockNext arr s).bays.ch = s.bays.ch := by
  unfold superblockNext
  split <;> simp

@[simp] theorem superblockDone_ch (arr dc : Nat) (ok : Bool) (s : State) :
    (superblockDone arr dc ok s).bays.ch = s.bays.ch := by
  unfold superblockDone
  split <;> simp

@[simp] theorem stitchMember_ch (arr p : Nat) (s : State) : (stitchMember arr p s).bays.ch = s.bays.ch := by
  unfold stitchMember
  split <;> simp

@[simp] theorem noteMember_ch (arr p : Nat) (st : MemberState) (s : State) :
    (noteMember arr p st s).bays.ch = s.bays.ch := by
  simp [noteMember]

@[simp] theorem replaceKeepers_ch (arr : Nat) (s : State) : (replaceKeepers arr s).bays.ch = s.bays.ch := by
  simp [replaceKeepers]

@[simp] theorem dropSlot_ch (arr slot : Nat) (s : State) : (dropSlot arr slot s).bays.ch = s.bays.ch := by
  simp [dropSlot]

@[simp] theorem targetDone_ch (arr p : Nat) (s : State) : (targetDone arr p s).bays.ch = s.bays.ch := by
  simp [targetDone]

@[simp] theorem loseBlocks_ch (arr row reason : Nat) (blks : List (Nat × Nat)) (s : State) :
    (loseBlocks arr row reason blks s).bays.ch = s.bays.ch := by
  unfold loseBlocks
  split <;> simp

@[simp] theorem endIo_ch (c : Cmd) (sc dw0 dw1 : Nat) (more : Bool) (s : State) :
    (endIo c sc dw0 dw1 more s).bays.ch = s.bays.ch := by
  simp [endIo]

@[simp] theorem issueReads_ch (c : Cmd) (a : Arr) (cls : Nat) (need : List (Nat × Nat)) (why : DrvWhy) (s : State) :
    (issueReads c a cls need why s).bays.ch = s.bays.ch := by
  simp [issueReads]

@[simp] theorem deliverRead_ch (c : Cmd) (v : Volume) (s : State) : (deliverRead c v s).bays.ch = s.bays.ch := by
  unfold deliverRead
  dsimp only
  (repeat' split) <;> simp_all

@[simp] theorem settleDirect_ch (c : Cmd) (v : Volume) (a : Arr) (s : State) :
    (settleDirect c v a s).bays.ch = s.bays.ch := by
  simp [settleDirect]

@[simp] theorem settlePacked_ch (c : Cmd) (v : Volume) (s : State) : (settlePacked c v s).bays.ch = s.bays.ch := by
  simp [settlePacked]

@[simp] theorem settleRead_ch (id row : Nat) (s : State) : (settleRead id row s).bays.ch = s.bays.ch := by
  unfold settleRead
  (repeat' split) <;> simp

@[simp] theorem endFlush_ch (c : Cmd) (s : State) : (endFlush c s).bays.ch = s.bays.ch := by
  unfold endFlush
  split <;> simp

@[simp] theorem updExt_ch (arr x : Nat) (f : Ext → Ext) (s : State) : (updExt arr x f s).bays.ch = s.bays.ch := by
  simp [updExt]

@[simp] theorem journalBlock_ch (arr : Nat) (s : State) (recs : List JRec) :
    (journalBlock arr s recs).bays.ch = s.bays.ch := by
  unfold journalBlock
  split <;> simp

@[simp] theorem journal_ch (arr : Nat) (recs : List JRec) (s : State) : (journal arr recs s).bays.ch = s.bays.ch := by
  simp [journal]

@[simp] theorem writeRowDrives_ch (a : Arr) (skein row : Nat) (frog : Bool) (why : Nat → DrvWhy) (cs : List Asm) (s : State) :
    (writeRowDrives a skein row frog why cs s).1.bays.ch = s.bays.ch := by
  simp [writeRowDrives]

@[simp] theorem writeTrailer_ch (vol x : Nat) (s : State) : (writeTrailer vol x s).bays.ch = s.bays.ch := by
  unfold writeTrailer
  (repeat' split) <;> simp

@[simp] theorem indexDone_ch (vol x dc : Nat) (s : State) : (indexDone vol x dc s).bays.ch = s.bays.ch := by
  unfold indexDone
  split <;> simp

@[simp] theorem rowJournal_ch (vol skein row : Nat) (s : State) : (rowJournal vol skein row s).bays.ch = s.bays.ch := by
  unfold rowJournal
  (repeat' split) <;> simp

@[simp] theorem endAbort_ch (id row dw0 : Nat) (s : State) : (endAbort id row dw0 s).bays.ch = s.bays.ch := by
  unfold endAbort
  split <;> simp

@[simp] theorem endAborted_ch (c : Cmd) (s : State) : (endAborted c s).bays.ch = s.bays.ch := by
  unfold endAborted
  dsimp only
  split <;> simp

@[simp] theorem settleAborted_ch (a r : Nat) (s : State) : (settleAborted a r s).bays.ch = s.bays.ch := by
  unfold settleAborted
  split <;> simp

@[simp] theorem drainIssue_ch (arr row : Nat) (s : State) : (drainIssue arr row s).bays.ch = s.bays.ch := by
  unfold drainIssue
  (repeat' split) <;> simp

@[simp] theorem updJob_ch (arr row kind : Nat) (f : RowJob → RowJob) (s : State) :
    (updJob arr row kind f s).bays.ch = s.bays.ch := by
  simp [updJob]

@[simp] theorem passEnd_ch (arr : Nat) (s : State) : (passEnd arr s).bays.ch = s.bays.ch := by
  unfold passEnd
  split <;> simp

@[simp] theorem jobDone_ch (arr row kind : Nat) (s : State) : (jobDone arr row kind s).bays.ch = s.bays.ch := by
  unfold jobDone
  dsimp only
  (repeat' split) <;> simp_all

@[simp] theorem jobGo_ch (arr row kind : Nat) (s : State) : (jobGo arr row kind s).bays.ch = s.bays.ch := by
  unfold jobGo
  (repeat' split) <;> simp

@[simp] theorem jobReadDone_ch (d : DrvCmd) (arr row kind q : Nat) (ok : Bool) (blocks : List Blk) (s : State) :
    (jobReadDone d arr row kind q ok blocks s).bays.ch = s.bays.ch := by
  unfold jobReadDone
  split <;> simp

@[simp] theorem jobWriteDone_ch (d : DrvCmd) (arr row kind : Nat) (s : State) :
    (jobWriteDone d arr row kind s).bays.ch = s.bays.ch := by
  unfold jobWriteDone
  dsimp only
  split <;> simp

@[simp] theorem updCopy_ch (op : Nat) (f : Copy → Copy) (s : State) : (updCopy op f s).bays.ch = s.bays.ch := by
  simp [updCopy]

@[simp] theorem copySend_ch (bytes : Nat) (m : OutMsg) (s : State) : (copySend bytes m s).bays.ch = s.bays.ch := by
  simp [copySend]

@[simp] theorem sendRange_ch (op range : Nat) (s : State) : (sendRange op range s).bays.ch = s.bays.ch := by
  unfold sendRange
  split <;> simp

@[simp] theorem stitchDrive_ch (d : DrvCmd) (outcome status : Nat) (s : State) :
    (stitchDrive d outcome status s).bays.ch = s.bays.ch := by
  simp [stitchDrive]

@[simp] theorem dropFromCmd_ch (d : DrvCmd) (s : State) : (dropFromCmd d s).bays.ch = s.bays.ch := by
  unfold dropFromCmd
  split <;> simp

@[simp] theorem hostReadDone_ch (d : DrvCmd) (pos : Nat) (ok : Bool) (blocks : List Blk) (s : State) :
    (hostReadDone d pos ok blocks s).bays.ch = s.bays.ch := by
  unfold hostReadDone
  dsimp only
  (repeat' split) <;> simp_all

@[simp] theorem drainReadDone_ch (d : DrvCmd) (arr row pos : Nat) (ok : Bool) (blocks : List Blk) (s : State) :
    (drainReadDone d arr row pos ok blocks s).bays.ch = s.bays.ch := by
  unfold drainReadDone
  (repeat' split) <;> simp

@[simp] theorem removeDc_ch (id : Nat) (s : State) : (removeDc id s).bays.ch = s.bays.ch := by
  simp [removeDc]

/-! ### Power-good and PERST# of a channel -/

/-- What R379 says of a channel: power-good, PERST#, and when PERST# is to be released. -/
def Chan.signals (c : Chan) : Bool × Bool × Option Nat := (c.pg, c.perst, c.perstAt)

theorem chan_of_ch {s t : State} (h : t.bays.ch = s.bays.ch) (n : Nat) : t.chan n = s.chan n := by
  simp only [State.chan, h]

theorem chan_updChan_self {n : Nat} {s : State} (h : n < s.bays.ch.length) (f : Chan → Chan) :
    (updChan n f s).chan n = f (s.chan n) := by
  simp [State.chan, updChan, h]

theorem chan_updChan_signals (n m : Nat) {f : Chan → Chan} (hf : ∀ c, (f c).signals = c.signals) (s : State) :
    ((updChan m f s).chan n).signals = (s.chan n).signals := by
  simp only [State.chan, updChan, State.onBays_bays, List.getD_eq_getElem?_getD, List.getElem?_modify]
  cases s.bays.ch[n]? with
  | none => rfl
  | some c => simp only [Option.getD_some]; split <;> simp [hf]

/-- What follows the end of a drive command changes at most the removal's flag of a channel. -/
theorem afterDrive_signals (d : DrvCmd) (ok : Bool) (blocks : List Blk) (s : State) (n : Nat) :
    ((afterDrive d ok blocks s).chan n).signals = (s.chan n).signals := by
  have same {t : State} (h : t.bays.ch = s.bays.ch) : (t.chan n).signals = (s.chan n).signals := congrArg _ (chan_of_ch h n)
  unfold afterDrive
  cases d.why with
  | removal => exact chan_updChan_signals n d.bay (by exact fun _ => rfl) s
  | hostFlush a r =>
    dsimp only
    split
    · exact same (by simp)
    · exact same (by simp)
  | _ => exact same (by simp)

theorem endDcs_signals (p : DrvCmd → Bool) (s : State) (n : Nat) :
    ((endDcs p s).chan n).signals = (s.chan n).signals := by
  have ends (l : List DrvCmd) (s : State) :
      ((l.foldl (fun st d => if (st.dc? d.id).isSome then afterDrive d false [] (stitchDrive d 2 0 (removeDc d.id st)) else st) s).chan n).signals
        = (s.chan n).signals := by
    induction l generalizing s with
    | nil => rfl
    | cons d l ih =>
      rw [List.foldl_cons, ih]
      split
      · rw [afterDrive_signals, chan_of_ch (s := s) (by simp)]
      · rfl
  exact ends _ s

theorem bayDown_signals (bay : Nat) (power : Bool) (s : State) (n : Nat) :
    ((bayDown bay power s).chan n).signals = (s.chan n).signals := by
  unfold bayDown
  rw [endDcs_signals, chan_of_ch (s := s) (by simp)]

end Sys2Proof.Machine
end

section
/-! PROOFS. PERST# and power-good of the bay channels (R378, R379). -/

namespace Sys2Proof.Machine

theorem whenDue_of_le {q : Nat} {s : State} (h : q ≤ s.now) (f : State → State) : whenDue (some q) f s = f s := by
  simp [whenDue, due, h]

theorem execPowerGoodLoss_of_on {bay : Nat} {s : State} (hbay : bay < 24) (hon : (s.chan bay).st = .on)
    (hidle : (s.chan bay).faultAt = none) :
    execPowerGoodLoss bay s = .next (bayDown bay true (updChan bay (fun x => { x with
      st := .qualify, pg := false, perst := true, perstAt := none, readyAt := none, onSince := none, qualAt := none
      relink := none, vout := 10500 }) s)) := by
  simp [execPowerGoodLoss, Nat.not_le.2 hbay, hon, hidle]

theorem signals_of_powerGoodLoss {bay : Nat} {s t : State} (hbay : bay < 24) (hlen : s.bays.ch.length = 24) (hon : (s.chan bay).st = .on)
    (hidle : (s.chan bay).faultAt = none) (hexec : exec (.powerGoodLoss bay) s = .next t) : (t.chan bay).signals = (false, true, none) := by
  have ht := (execPowerGoodLoss_of_on hbay hon hidle).symm.trans hexec
  injection ht with ht
  rw [← ht, bayDown_signals, chan_updChan_self (by omega)]
  rfl

theorem exec_perstRelease_of_no_powerGood {bay : Nat} {s : State} (hbay : bay < 24) (hpg : (s.chan bay).pg = false) :
    exec (.perstRelease bay) s = .next s := by
  change execPerstRelease bay s = _
  simp [execPerstRelease, Nat.not_le.2 hbay, hpg]

theorem exec_qualificationComplete_of_due {bay q : Nat} {s : State} (hbay : bay < 24) (hqualify : (s.chan bay).st = .qualify)
    (hidle : (s.chan bay).faultAt = none) (hq : (s.chan bay).qualAt = some q) (hdue : q ≤ s.now) :
    exec (.qualificationComplete bay) s
      = .next (rebudget (updChan bay (fun x => { x with
        st := .on, pg := true, atRisk := false, qualAt := none, onSince := some s.now
        perstAt := some (s.now + 100 * ms), vout := 12000 }) s)) := by
  change execQualificationComplete bay s = _
  simp [execQualificationComplete, Nat.not_le.2 hbay, hqualify, hidle, hq, whenDue_of_le hdue]

/-- A tick updates the transistor model of the channels only. -/
theorem tick_powered {s : State} (powered : s.bays.Powered) : (tick s).bays.Powered := by
  unfold tick
  dsimp only
  split
  · exact Bays.Powered.mapIdx (b := s.bays) (f := modelStep (s.onTime (tickTime s.md.powered))) (fun _ _ h => h) rfl powered
  · exact powered

theorem step_powered {s t : State} (powered : s.bays.Powered) (h : step s = .next t) : t.bays.Powered := by
  unfold step at h
  split at h
  · injection h with h
    exact h ▸ tick_powered powered
  · exact (exec_follows h).perst powered

/-- Settles O8: every command follows, so no step releases PERST# without power-good, and the three rows of R379 are computed. -/
theorem perstNeedsPowerGood : Obligations.PerstNeedsPowerGood := by
  refine ⟨fun s t => step_powered, fun bay s t hbay hlen hon hidle hexec => ?lost, fun bay s => exec_perstRelease_of_no_powerGood,
    fun bay q s hbay _ hqualify hidle hq hdue => exec_qualificationComplete_of_due hbay hqualify hidle hq hdue⟩
  case lost =>
    have signals := signals_of_powerGoodLoss hbay hlen hon hidle hexec
    simp only [Chan.signals, Prod.mk.injEq] at signals
    exact signals

/-! ### The hypotheses are met -/

/-- A unit whose bay 0 is ON with power-good and PERST# released. -/
def runningBay : State := updChan 0 (fun c => { c with st := .on, pg := true, perst := false }) State.reset

/-- A unit whose bay 0 ends its qualification, with PERST# asserted and power-good not yet given. -/
def qualifyingBay : State := updChan 0 (fun c => { c with st := .qualify, qualAt := some 0 }) State.reset

theorem runningBay_powered : runningBay.bays.Powered := by
  unfold Bays.Powered
  decide

/-- O8 applied to `runningBay`: the step of POWER_GOOD_LOSS asserts PERST# there, cancels its release, and keeps every other channel's
PERST# under power-good. -/
theorem powerGoodLoss_runningBay : ∃ t, step { runningBay with pending := [.powerGoodLoss 0] } = .next t
    ∧ (runningBay.chan 0).perst = false ∧ (t.chan 0).pg = false ∧ (t.chan 0).perst = true ∧ (t.chan 0).perstAt = none
    ∧ t.bays.Powered := by
  obtain ⟨hsteps, hlost, -, -⟩ := perstNeedsPowerGood
  have hexec : exec (.powerGoodLoss 0) runningBay = _ := execPowerGoodLoss_of_on (by decide) rfl rfl
  obtain ⟨hpg, hperst, hrelease⟩ := hlost 0 runningBay _ (by decide) (by decide) rfl rfl hexec
  exact ⟨_, hexec, rfl, hpg, hperst, hrelease, hsteps { runningBay with pending := [.powerGoodLoss 0] } _ runningBay_powered hexec⟩

/-- O8 applied to `qualifyingBay`: PERST_RELEASE does nothing yet, and QUALIFICATION_COMPLETE is due and starts the wait. -/
theorem qualificationComplete_qualifyingBay : exec (.perstRelease 0) qualifyingBay = .next qualifyingBay
    ∧ ∃ t, exec (.qualificationComplete 0) qualifyingBay = .next (rebudget t) ∧ (t.chan 0).pg = true
      ∧ (t.chan 0).perst = true ∧ (t.chan 0).perstAt = some (100 * ms) := by
  obtain ⟨-, -, hheld, hqualified⟩ := perstNeedsPowerGood
  exact ⟨hheld 0 qualifyingBay (by decide) rfl,
    _, hqualified 0 0 qualifyingBay (by decide) (by decide) rfl rfl rfl (by decide), rfl, rfl, rfl⟩

end Sys2Proof.Machine
end

section
/-! PROOFS. The entry that a write of the audit log appends, and its chain (R455 to R457). -/

namespace Sys2Proof.Machine

/-- The entry that `auditWrite` appends, up to its chain: sequence, device time and flags filled in (R455, R456). -/
def stampEntry (e : AEntry) (s : State) : AEntry :=
  { e with
    seq := s.audit.next
    time := s.time.dev
    flags := (if s.md.slot == 1 then 1 else 0) + e.flags + (if s.time.unsync then 4 else 0) }

/-- The stored chain of the newest entry of a log, 0 before the first entry (R457). -/
def newestChain (log : List AEntry) : Nat := (log.head?.map (·.chain)).getD 0

/-- The entry that `auditWrite` appends. -/
def chainedEntry (e : AEntry) (s : State) : AEntry :=
  { stampEntry e s with chain := digest8 (bytesLE 8 (newestChain s.audit.log) ++ (stampEntry e s).bytes.take 56) }

/-- Of a full ring, the oldest entry makes room (R455). -/
theorem auditWrite_log (e : AEntry) (s : State) :
    (auditWrite e s).audit.log = (chainedEntry e s :: s.audit.log).take 16777216 := by
  cases hlog : s.audit.log with
  | nil => simp [auditWrite, chainedEntry, stampEntry, newestChain, hlog]
  | cons p l => simp [auditWrite, chainedEntry, stampEntry, newestChain, hlog]

theorem auditWrite_log_of_room {s : State} (room : s.audit.log.length < 16777216) (e : AEntry) :
    (auditWrite e s).audit.log = chainedEntry e s :: s.audit.log := by
  rw [auditWrite_log, List.take_of_length_le (Nat.succ_le_of_lt room)]

/-- The chain covers the first 56 bytes of the entry as it stands in the log, for they leave the chain itself out. -/
theorem chainedEntry_chain (e : AEntry) (s : State) : (chainedEntry e s).chain
    = digest8 (bytesLE 8 (newestChain s.audit.log) ++ (chainedEntry e s).bytes.take 56) := by
  have covered : (chainedEntry e s).bytes.take 56 = (stampEntry e s).bytes.take 56 := AEntry.take_bytes _ _
  rw [covered]
  rfl

theorem AEntry.length_bytes (e : AEntry) : e.bytes.length = 64 := by
  simp [AEntry.bytes, length_bytesLE]

/-- Settles O13: a log with room gains `chainedEntry`, whose chain covers its own first 56 bytes. -/
theorem auditChain : Obligations.AuditChain := fun e s room =>
  ⟨chainedEntry e s, auditWrite_log_of_room room e, chainedEntry_chain e s, AEntry.length_bytes _, rfl⟩

/-! ### The hypothesis is met -/

/-- A unit whose audit log holds entry 1, with chain 0102h. -/
def loggedUnit : State := { State.reset with audit := { log := [{ seq := 1, chain := 0x0102 }], next := 2 } }

/-- O13 applied at reset: entry 1 is chained to 8 zero bytes. -/
theorem auditWrite_reset : ∃ x, (auditWrite {} State.reset).audit.log = [x] ∧ x.seq = 1
    ∧ x.chain = digest8 ([0, 0, 0, 0, 0, 0, 0, 0] ++ x.bytes.take 56) := by
  obtain ⟨x, hlog, hchain, -, hseq⟩ := auditChain {} State.reset (by decide)
  exact ⟨x, hlog, hseq, hchain⟩

/-- O13 applied to `loggedUnit`: entry 2 is chained to the 8 stored bytes of entry 1's chain. -/
theorem auditWrite_loggedUnit : ∃ x, (auditWrite {} loggedUnit).audit.log = x :: loggedUnit.audit.log ∧ x.seq = 2
    ∧ x.chain = digest8 ([2, 1, 0, 0, 0, 0, 0, 0] ++ x.bytes.take 56) := by
  obtain ⟨x, hlog, hchain, -, hseq⟩ := auditChain {} loggedUnit (by decide)
  exact ⟨x, hlog, hseq, hchain⟩

end Sys2Proof.Machine
end

section
/-! PROOFS. The 16 bytes of a core's state record (R498). -/

namespace Sys2Proof.Machine

theorem getD_bytesLE {n i : Nat} (hi : i < n) (x : Nat) : (bytesLE n x).getD i 0 = x / 256 ^ i % 256 := by
  simp [bytesLE, hi]

/-- The eight bytes of the state record before the PC: state, reason, index, reserved (R498). -/
def coreHeader (c : Core) : List Nat := [if c.halted then 1 else 0, c.reason, c.idx, 0, 0, 0, 0, 0]

theorem coreRecord_eq (c : Core) : coreRecord c = coreHeader c ++ bytesLE 8 (c.regs.getD 32 0) := rfl

@[simp] theorem length_coreHeader (c : Core) : (coreHeader c).length = 8 := rfl

theorem length_coreRecord (c : Core) : (coreRecord c).length = 16 := by
  simp [coreRecord_eq, length_bytesLE]

theorem coreRecord_getD_of_lt {i : Nat} (hi : i < 8) (c : Core) : (coreRecord c).getD i 0 = (coreHeader c).getD i 0 := by
  rw [coreRecord_eq, List.getD_append _ _ _ _ (by simpa using hi)]

theorem coreHeader_getD_reserved {i : Nat} (hlo : 3 ≤ i) (hhi : i < 8) (c : Core) : (coreHeader c).getD i 0 = 0 := by
  interval_cases i <;> rfl

/-- The PC, register 32 (R496), fills the second half of the record. -/
theorem coreRecord_getD_pc {i : Nat} (hi : i < 8) (c : Core) :
    (coreRecord c).getD (8 + i) 0 = c.regs.getD 32 0 / 256 ^ i % 256 := by
  rw [coreRecord_eq, List.getD_append_right _ _ _ _ (by simp), length_coreHeader, Nat.add_sub_cancel_left, getD_bytesLE hi]

/-- Settles O15: bytes 0 to 7 are those of `coreHeader`, bytes 8 to 15 those of the PC. -/
theorem coreStateRecord : Obligations.CoreStateRecord := fun c =>
  ⟨length_coreRecord c, coreRecord_getD_of_lt (by decide) c, coreRecord_getD_of_lt (by decide) c, coreRecord_getD_of_lt (by decide) c,
    fun _ hlo hhi => (coreRecord_getD_of_lt hhi c).trans (coreHeader_getD_reserved hlo hhi c),
    fun _ hi => coreRecord_getD_pc hi c⟩

end Sys2Proof.Machine
end

section
/-! PROOFS. A step is one tick, or the front command on the queue's rest; and what every step keeps: a command by `Follows`, a tick because
it touches time and the transistor models alone. -/

namespace Sys2Proof.Machine

/-! ### The two kinds of step -/

theorem step_of_front (c : Instr) (q : List Instr) (s : State) : step { s with pending := c :: q } = exec c { s with pending := q } := rfl

theorem step_of_empty {s : State} (h : s.pending = []) : step s = .next (tick s) := by
  simp only [step, h]

/-- A step that goes on is a tick, or a command on the queue's rest. -/
theorem step_next_cases {s t : State} (h : step s = .next t) :
    (s.pending = [] ∧ t = tick s) ∨ ∃ c q, s.pending = c :: q ∧ exec c { s with pending := q } = .next t := by
  cases hq : s.pending with
  | nil =>
    rw [step_of_empty hq] at h
    injection h with h
    exact .inl ⟨rfl, h.symm⟩
  | cons c q =>
    simp only [step, hq] at h
    exact .inr ⟨c, q, rfl, h⟩

/-- Settles O1: a step is `exec` of the front command, and no word of the table spells a command. -/
theorem stepRunsFront : Obligations.StepRunsFront := ⟨step_of_front, fun _ _ _ => rfl⟩

/-! ### A tick -/

theorem tick_eq (s : State) : tick s = { s with time := tickTime s.md.powered s.time, bays := (tick s).bays } := by
  unfold tick
  dsimp only
  split <;> rfl

theorem tick_bays (s : State) : (tick s).bays = { s.bays with ch := (tick s).bays.ch } := by
  unfold tick
  dsimp only
  split <;> rfl

theorem tick_time (s : State) : (tick s).time = tickTime s.md.powered s.time :=
  congrArg State.time (tick_eq s)

theorem tick_bays_of_off {s : State} (h : s.md.powered = false) : (tick s).bays = s.bays := by
  simp [tick, h]

theorem tick_chans (s : State) : (tick s).bays.ch.length = s.bays.ch.length := by
  unfold tick
  dsimp only
  split <;> simp

theorem tickTime_now (powered : Bool) (t : Time) : (tickTime powered t).now = t.now + 4 := by
  cases powered <;> rfl

theorem tickTime_dev_off (t : Time) : (tickTime false t).dev = t.dev := rfl

/-- Without a rate adjustment device time gains 4 ns and the whole nanoseconds of its fraction. -/
theorem tickTime_dev_of_adj_zero {t : Time} (h : t.adj = 0) : (tickTime true t).dev = t.dev + 4 + t.frac / 1000000 := by
  simp only [tickTime, if_true, h]
  omega

/-- Settles O2: on an empty queue the step is `tick`, which is `tickTime` and the transistor models. -/
theorem idleTick : Obligations.IdleTick := by
  intro s hq
  refine ⟨tick s, step_of_empty hq, ?now, fun off => ?devOff, fun on adj => ?devOn, ?frame, tick_bays s, tick_bays_of_off⟩
  case now => rw [tick_time, tickTime_now]
  case devOff => rw [tick_time, off, tickTime_dev_off]
  case devOn => rw [tick_time, on, tickTime_dev_of_adj_zero adj]
  case frame => rw [tick_time]; exact tick_eq s

/-! ### What every step keeps -/

theorem tick_sized {s : State} (h : s.Sized) : (tick s).Sized := by
  obtain ⟨chans, drives, leases, cores⟩ := h
  refine ⟨(tick_chans s).trans chans, ?_, ?_, ?_⟩
  · rw [tick_bays]; exact drives
  · rw [tick_eq]; exact leases
  · rw [tick_eq]; exact cores

theorem Follows.sized {s t : State} (f : Follows s t) (h : s.Sized) : t.Sized := by
  obtain ⟨chans, drives, leases, cores⟩ := h
  exact ⟨f.chans.trans chans, f.drives.trans drives, f.leases.trans leases, f.cores.trans cores⟩

/-- Settles O5: a tick keeps the tables, and every command follows. -/
theorem stepKeepsTables : Obligations.StepKeepsTables := by
  intro s t sized h
  obtain ⟨-, rfl⟩ | ⟨c, q, -, hexec⟩ := step_next_cases h
  · exact tick_sized sized
  · exact (exec_follows hexec).sized sized

theorem tick_audit (s : State) : (tick s).audit = s.audit := by
  rw [tick_eq]

theorem tick_dbg (s : State) : (tick s).dbg = s.dbg := by
  rw [tick_eq]

/-- Settles O6: a tick leaves the audit log alone, and every command follows. -/
theorem stepKeepsAuditWhole : Obligations.StepKeepsAuditWhole := by
  intro s t whole h
  obtain ⟨-, rfl⟩ | ⟨c, q, -, hexec⟩ := step_next_cases h
  · rw [tick_audit]
    exact ⟨whole, Nat.le_refl _⟩
  · exact ⟨(exec_follows hexec).audit whole, (exec_follows hexec).sequence⟩

/-- Settles O7: a tick leaves the debug port alone, and every command follows. -/
theorem stepKeepsDebugMemories : Obligations.StepKeepsDebugMemories := by
  intro s t canonical h
  obtain ⟨-, rfl⟩ | ⟨c, q, -, hexec⟩ := step_next_cases h
  · rwa [tick_dbg]
  · exact (exec_follows hexec).memories canonical

/-- Settles O9: what a command keeps of the queue, elapsed time, the free values and the audit sequence is part of `Follows`. -/
theorem execKeepsQueueAndTime : Obligations.ExecKeepsQueueAndTime := by
  intro c s t h
  have follows := exec_follows h
  exact ⟨follows.pending, follows.now, follows.free, follows.sequence⟩

theorem reset_sized : State.reset.Sized := by
  unfold State.Sized
  decide

theorem reset_audit_whole : State.reset.audit.Whole :=
  ⟨trivial, trivial, Nat.zero_le _⟩

theorem reset_dbg_canonical : State.reset.dbg.Canonical := by
  unfold Dbg.Canonical
  decide

theorem reset_bays_powered : State.reset.bays.Powered := by
  unfold Bays.Powered
  decide

/-- Settles O4: each invariant is evaluated at reset. -/
theorem invariantAtReset : Obligations.InvariantAtReset :=
  ⟨reset_sized, reset_audit_whole, reset_dbg_canonical, reset_bays_powered⟩

end Sys2Proof.Machine
end

section
/-! PROOFS. A command completes exactly where it names a part that the unit has (log 10). -/

namespace Sys2Proof.Machine

/-- The outcome is a next state where the part exists, and a fault where it does not. -/
def CompletesIf (part : Bool) (o : Host.Outcome State Fault Refusal) : Prop :=
  (part = true → ∃ t, o = .next t) ∧ (part = false → ∃ f, o = .fault f)

theorem completesIf_next (t : State) : CompletesIf true (.next t) := ⟨fun _ => ⟨t, rfl⟩, nofun⟩

/-- A command that names a number below n completes for it and faults from n on. -/
theorem completesIf_below (k n : Nat) (f : Fault) (t : State) : CompletesIf (decide (k < n)) (if n ≤ k then .fault f else .next t) := by
  rcases Nat.lt_or_ge k n with h | h
  · simp [CompletesIf, h, Nat.not_le.2 h]
  · simp [CompletesIf, h]

/-- A command at a port with a parser completes at the 8 NET ports and MGMT, port 47 (R305). -/
theorem completesIf_parser (port : Nat) (f : Fault) (t : Nat → State) :
    CompletesIf (decide (port < 8) || port == 47) (match parserLink port with | none => .fault f | some k => .next (t k)) := by
  unfold parserLink
  by_cases net : port < 8
  · simp [CompletesIf, net]
  · by_cases mgmt : port = 47
    · simp [CompletesIf, mgmt]
    · simp [CompletesIf, net, mgmt]

theorem completesIf_link (port : Nat) (f : Fault) (t : State) :
    CompletesIf (decide (port < 8) || port == 47) (if 8 ≤ port && port != 47 then .fault f else .next t) := by
  by_cases net : port < 8
  · simp [CompletesIf, net, Nat.not_le.2 net]
  · by_cases mgmt : port = 47
    · simp [CompletesIf, mgmt]
    · simp [CompletesIf, net, mgmt, Nat.not_lt.1 net]

theorem exec_completesIf (c : Instr) (s : State) : CompletesIf (hasPart c) (exec c s) := by
  cases c with
  | driveReadyTimeout bay | driveSubmission bay | bayRemove bay | outputReachesThreshold bay | rampTimeout bay | qualificationComplete bay
  | faultTimerStart bay | faultTimerClear bay | faultTimerExpiry bay | modelOverTemperature bay | powerGoodLoss bay | perstRelease bay
  | retryBudgetRestore bay | bayRelink bay | driveReadyWaitExpiry bay | removalPreparationLapse bay | removalFlushDeadline bay
  | bayButtonPress bay | bayButtonHeld bay | bayInsert bay | coolDownEnd bay | bayLinkStateChange bay | removalShutdownDeadline bay
  | driveReady bay | memberReturn _ _ bay => exact completesIf_below bay 24 _ _
  | osfpPresence cage | osfpMonitor cage => exact completesIf_below cage 8 _ _
  | egressSelect port => exact completesIf_below port 48 _ _
  | bankSwapPause port | parserStop port | bankSwap port | netPortDrainEnd port => exact completesIf_below port 8 _ _
  | breakpointHit core | watchpointHit core => exact completesIf_below core 36 _ _
  | portLinkStateChange port => exact completesIf_link port _ _
  | pauseFrame port => exact completesIf_parser port _ _
  | frameReceive f => exact completesIf_parser f.port _ _
  | _ => exact completesIf_next _

/-- Settles O10: a command that faults does so by its part's number alone. -/
theorem commandsComplete : Obligations.CommandsComplete := exec_completesIf

end Sys2Proof.Machine
end

section
/-! PROOFS. What a load answers after a store (R499). -/

namespace Sys2Proof.Machine

theorem Memory.length_load (k a n : Nat) (m : Memory) : (m.load k a n).length = n := by
  simp [Memory.load]

/-- Stored bytes read back, whatever free value an unwritten byte would have. -/
theorem Memory.load_store (m : Memory) (a k : Nat) (l : List Nat) : (m.store a l).load k a l.length = l.map (· % 256) := by
  refine List.ext_getElem (by simp [Memory.length_load]) fun i hi hl => ?_
  have inside : i < l.length := by simpa using hl
  simp [Memory.load, Memory.get_store_inside l a i inside]

/-- Settles O11: bytes inside the store read back, bytes outside are as they were, and the form stays canonical. -/
theorem memoryReadsBack : Obligations.MemoryReadsBack := fun m a k l =>
  ⟨Memory.load_store m a k l, fun _ outside => Memory.get_store_outside l outside m, fun h => Memory.wf_store l h a⟩

end Sys2Proof.Machine
end

section
/-! PROOFS. The strips of a row in a parity layout (R172). -/

namespace Sys2Proof.Machine

/-- The member position of the row's first parity strip (R172). -/
def rowStart (p n r : Nat) : Nat := (n - p + n - r % n) % n

/-- Strip k of a row from position c on, parity strips first, one position after the other around the members: a rotation. -/
theorem map_add_mod_eq_rotate (n c : Nat) : (List.range n).map (fun k => (c + k) % n) = (List.range n).rotate c := by
  refine List.ext_getElem (by simp) fun i _ _ => ?_
  simp [List.getElem_rotate, Nat.add_comm]

/-- The data strips follow the parity strips around the members. -/
theorem row_positions_eq {p n : Nat} (h : p ≤ n) (r : Nat) :
    (List.range p).map (parityPos p n r) ++ (List.range (n - p)).map (dataPos p n r)
      = (List.range n).map fun k => (rowStart p n r + k) % n := by
  obtain ⟨d, rfl⟩ := Nat.exists_eq_add_of_le h
  rw [Nat.add_sub_cancel_left, List.range_add, List.map_append, List.map_map]
  congr 1
  refine List.map_congr_left fun i _ => ?_
  simp only [dataPos, rowStart, Function.comp_apply, Nat.add_assoc]

/-- Settles O19: the positions of a row are a rotation of the members. -/
theorem rowPositionsDistinct : Obligations.RowPositionsDistinct := by
  intro p n r h _
  rw [row_positions_eq h, map_add_mod_eq_rotate]
  exact List.rotate_perm _ _

end Sys2Proof.Machine
end

section
/-! PROOFS. The rules of the debug port: when a request is executed, what its answer leaves, and what halting a core and noting a write leave
of the cores and memories (R487 to R499). -/

namespace Sys2Proof.Machine

/-! ### Requests and answers -/

/-- A request that the port hears, of an open type or in an unlocked session, is executed (R487, R492). -/
theorem ddpRequest_of_hears {q : Nat} {s : State} (hears : s.Hears q) {type : Nat}
    (allowed : type < 3 ∨ 0x0F < type ∨ s.dbg.unlocked.isSome = true) (body : State → State) : ddpRequest q type body s = body s := by
  obtain ⟨present, powered, ready, fresh, free, mode, policy⟩ := hears
  have notHeld : (s.dbg.hold.isSome && q == s.dbg.holdSeq) = false := by simpa using free
  have open_ : (decide (3 ≤ type) && decide (type ≤ 0x0F) && s.dbg.unlocked.isNone) = false := by
    rcases allowed with below | above | unlocked
    · simp [Nat.not_le.2 below]
    · simp [Nat.not_le.2 above]
    · simp [← Option.not_isSome, unlocked]
  have modeOff : (s.md.mode == .powerStandby) = false := by simpa using mode
  have policyOff : (s.cfg.dbgPolicy == 0) = false := by simpa using policy
  cases last : s.dbg.lastReq with
  | none =>
    simp only [ddpRequest, last, present, powered, ready, notHeld, modeOff, policyOff, open_, Bool.not_true, Bool.or_self,
      Bool.false_and, Bool.false_eq_true, if_false]
  | some kr =>
    obtain ⟨k, r⟩ := kr
    have notAgain : (k == q) = false := by simpa using fresh k r last
    simp only [ddpRequest, last, notAgain, present, powered, ready, notHeld, modeOff, policyOff, open_, Bool.not_true, Bool.or_self,
      Bool.false_and, Bool.false_eq_true, if_false]

theorem ddpRequest_of_unlocked {q type : Nat} {s : State} (hears : s.Hears q) (unlocked : s.dbg.unlocked.isSome = true)
    (body : State → State) : ddpRequest q type body s = body s :=
  ddpRequest_of_hears hears (.inr (.inr unlocked)) body

theorem ddpAnswer_answered (q type status : Nat) (payload : List Nat) (s : State) :
    (ddpAnswer q type status payload s).answered q type status payload := rfl

@[simp] theorem ddpAnswer_cores (q type status : Nat) (payload : List Nat) (s : State) :
    (ddpAnswer q type status payload s).dbg.cores = s.dbg.cores := rfl
@[simp] theorem ddpAnswer_tagMem (q type status : Nat) (payload : List Nat) (s : State) :
    (ddpAnswer q type status payload s).dbg.tagMem = s.dbg.tagMem := rfl
@[simp] theorem ddpAnswer_hbm (q type status : Nat) (payload : List Nat) (s : State) :
    (ddpAnswer q type status payload s).dbg.hbm = s.dbg.hbm := rfl
@[simp] theorem ddpAnswer_unlocked (q type status : Nat) (payload : List Nat) (s : State) :
    (ddpAnswer q type status payload s).dbg.unlocked = s.dbg.unlocked := rfl
@[simp] theorem ddpAnswer_chal (q type status : Nat) (payload : List Nat) (s : State) :
    (ddpAnswer q type status payload s).dbg.chal = s.dbg.chal := rfl

/-! ### Audit entries leave everything but the audit log -/

theorem auditPush_frame (e : AEntry) (s : State) : auditPush e s = { s with audit := (auditPush e s).audit } := by
  unfold auditPush
  (repeat' split) <;> rfl

@[simp] theorem auditPush_dbg (e : AEntry) (s : State) : (auditPush e s).dbg = s.dbg := by rw [auditPush_frame]
@[simp] theorem auditPush_md (e : AEntry) (s : State) : (auditPush e s).md = s.md := by rw [auditPush_frame]
@[simp] theorem auditPush_cfg (e : AEntry) (s : State) : (auditPush e s).cfg = s.cfg := by rw [auditPush_frame]
@[simp] theorem debugEntry_dbg (code key obj : Nat) (s : State) : (debugEntry code key obj s).dbg = s.dbg := auditPush_dbg ..
@[simp] theorem debugEntry_md (code key obj : Nat) (s : State) : (debugEntry code key obj s).md = s.md := auditPush_md ..
@[simp] theorem debugEntry_cfg (code key obj : Nat) (s : State) : (debugEntry code key obj s).cfg = s.cfg := auditPush_cfg ..

/-! ### Cores -/

theorem core_updCore_same {n : Nat} {s : State} (h : n < s.dbg.cores.length) (f : Core → Core) :
    (updCore n f s).dbg.cores.getD n {} = f (s.dbg.cores.getD n {}) := by
  simp [updCore, h]

theorem core_updCore_of_ne {n k : Nat} (h : k ≠ n) (f : Core → Core) (s : State) :
    (updCore n f s).dbg.cores.getD k {} = s.dbg.cores.getD k {} := by
  simp [updCore, Ne.symm h]

@[simp] theorem updCore_cores_length (n : Nat) (f : Core → Core) (s : State) :
    (updCore n f s).dbg.cores.length = s.dbg.cores.length := by
  simp [updCore]

@[simp] theorem updCore_tagMem (n : Nat) (f : Core → Core) (s : State) : (updCore n f s).dbg.tagMem = s.dbg.tagMem := rfl
@[simp] theorem updCore_hbm (n : Nat) (f : Core → Core) (s : State) : (updCore n f s).dbg.hbm = s.dbg.hbm := rfl

/-- What halting does to a core: its registers are those of this moment, but for a core halted already (R497). -/
def haltedCore (k reason idx : Nat) (bySession : Bool) (c : Core) : Core :=
  { c with
    halted := true, reason := reason, idx := idx, bySession := bySession
    regs := if c.halted && reason != 2 then c.regs else (List.range 35).map fun i => Config.coreReg k i % 2 ^ 64 }

theorem core_haltCore {n : Nat} {s : State} (h : n < s.dbg.cores.length) (reason idx : Nat) (bySession : Bool) :
    (haltCore n reason idx bySession s).dbg.cores.getD n {} = haltedCore s.free reason idx bySession (s.dbg.cores.getD n {}) :=
  core_updCore_same (s := s.drawn) h _

@[simp] theorem haltCore_cores_length (n reason idx : Nat) (bySession : Bool) (s : State) :
    (haltCore n reason idx bySession s).dbg.cores.length = s.dbg.cores.length := updCore_cores_length ..

theorem sampled_of_halted {n : Nat} {s : State} (h : (s.dbg.cores.getD n {}).halted = true) : sampled n s = s.dbg.cores.getD n {} :=
  if_pos h

/-! ### Writes of a session -/

@[simp] theorem noteWrite_cores (space obj : Nat) (s : State) : (noteWrite space obj s).dbg.cores = s.dbg.cores := by
  unfold noteWrite
  dsimp only
  split <;> simp

@[simp] theorem noteWrite_tagMem (space obj : Nat) (s : State) : (noteWrite space obj s).dbg.tagMem = s.dbg.tagMem := by
  unfold noteWrite
  dsimp only
  split <;> simp

@[simp] theorem noteWrite_hbm (space obj : Nat) (s : State) : (noteWrite space obj s).dbg.hbm = s.dbg.hbm := by
  unfold noteWrite
  dsimp only
  split <;> simp

/-- What a request to the port rests on stays with a write noted, but for the counts of writes (R495). -/
theorem noteWrite_session (space obj : Nat) (s : State) : (noteWrite space obj s).md = s.md ∧ (noteWrite space obj s).cfg = s.cfg
    ∧ (noteWrite space obj s).dbg.present = s.dbg.present ∧ (noteWrite space obj s).dbg.unlocked = s.dbg.unlocked
    ∧ (noteWrite space obj s).dbg.hold = s.dbg.hold ∧ (noteWrite space obj s).dbg.holdSeq = s.dbg.holdSeq := by
  unfold noteWrite
  dsimp only
  split <;> simp

theorem lt_of_spaceOk_zero {core len addr : Nat} (h : spaceOk 0 core len 0 addr = true) : core < 36 := by
  simp [spaceOk] at h
  omega

end Sys2Proof.Machine
end

section
/-! PROOFS. The session of the debug port: CONNECT, UNLOCK, DISCONNECT, packets that are not executed, presence and timers (R486 to R495). -/

namespace Sys2Proof.Machine

/-- The port locks UNLOCK out no more. -/
theorem unlock_open {s : State} (h : ∀ t, s.dbg.lockAt = some t → t ≤ s.now) : (s.dbg.lockAt.any fun t => decide (s.now < t)) = false := by
  cases lock : s.dbg.lockAt with
  | none => rfl
  | some t => simpa using h t lock

theorem exec_ddpConnect_of_hears {q : Nat} {s : State} (hears : s.Hears q) :
    ∃ payload, exec (.ddpConnect q) s = .next (ddpAnswer q 1 0 payload
      (s.drawn.onDbg fun d => { d with session := true, chal := some (s.freeVal % 2 ^ 256, s.now + 30 * sec) })) :=
  ⟨_, congrArg _ (ddpRequest_of_hears hears (.inl (by decide)) _)⟩

/-- An UNLOCK with a good signature over a fresh challenge, at an index with a key (R493). -/
theorem exec_ddpUnlock_of_fresh {q key principal pk c until_ : Nat} {s : State} (hears : s.Hears q) (hkey : key < 4)
    (lock : ∀ t, s.dbg.lockAt = some t → t ≤ s.now) (session : s.dbg.session = true) (chal : s.dbg.chal = some (c, until_))
    (soon : s.now < until_) (installed : s.cfg.unlockKeys.getD key none = some (principal, pk)) :
    exec (.ddpUnlock q key true) s = .next (ddpAnswer q 2 0 (bytesLE 2 principal ++ zeros 6) (debugEntry 0x4001 key 0
      ((s.onDbg fun d => { d with chal := none }).onDbg fun d => { d with unlocked := some (key, principal) }))) := by
  change Host.Outcome.next (ddpRequest q 2 _ s) = _
  rw [ddpRequest_of_hears hears (.inl (by decide))]
  simp only [Nat.not_le.2 hkey, unlock_open lock, session, chal, soon, installed, if_false, Bool.false_eq_true, Option.any_some,
    decide_true, Bool.and_self, if_true]

/-- An UNLOCK whose signature fails is counted, and its challenge is used up (R493, R494). -/
theorem exec_ddpUnlock_of_failed {q key : Nat} {s : State} (hears : s.Hears q) (hkey : key < 4)
    (lock : ∀ t, s.dbg.lockAt = some t → t ≤ s.now) :
    exec (.ddpUnlock q key false) s = .next (ddpAnswer q 2 7 [] (debugEntry 0x4002 key 0
      (execDdpUnlock.unlockFailed (s.onDbg fun d => { d with chal := none })))) := by
  change Host.Outcome.next (ddpRequest q 2 _ s) = _
  rw [ddpRequest_of_hears hears (.inl (by decide))]
  simp only [Nat.not_le.2 hkey, unlock_open lock, if_false, Bool.false_eq_true, Bool.and_false]
  split <;> rfl

theorem unlockFailed_session (s : State) : (execDdpUnlock.unlockFailed s).dbg.unlocked = s.dbg.unlocked
    ∧ (execDdpUnlock.unlockFailed s).dbg.chal = s.dbg.chal := by
  simp only [execDdpUnlock.unlockFailed, State.onDbg_dbg]
  split <;> exact ⟨rfl, rfl⟩

theorem exec_ddpBadPacket_of_bad {q : Nat} {s : State} (hears : s.Hears q) (type : Nat) : exec (.ddpBadPacket q type false) s
    = .next { s with dbg := { s.dbg with out := s.dbg.out ++ [{ seq := q, type := type, status := 2 }] } } := by
  obtain ⟨present, powered, ready, -, -, mode, policy⟩ := hears
  change execDdpBadPacket q type false s = _
  simp [execDdpBadPacket, present, powered, ready, mode, policy, State.onDbg]

theorem whenDue_some {t : Nat} {d : Option Nat} {s : State} (h : d = some t) (hdue : t ≤ s.now) (f : State → State) : whenDue d f s = f s :=
  h ▸ whenDue_of_le hdue f

/-- Settles O20. -/
theorem debugSession : Obligations.DebugSession := by
  refine ⟨fun q s hears => ?connect, fun q key principal pk c until_ s hears hkey lock session chal soon installed => ?unlock,
    fun q key s hears hkey lock => ?failed,
    fun q s hears => congrArg Host.Outcome.next (ddpRequest_of_hears hears (.inr (.inl (by decide))) _),
    fun q type s hears unlocked => ⟨_, congrArg Host.Outcome.next (ddpRequest_of_unlocked hears unlocked _), ddpAnswer_answered ..⟩,
    fun q type s hears => exec_ddpBadPacket_of_bad hears type,
    fun _ => rfl, fun _ => rfl, fun _ => rfl,
    fun t s lock hdue => congrArg Host.Outcome.next (whenDue_some lock hdue _),
    fun c t s chal hdue => congrArg Host.Outcome.next (whenDue_some (congrArg (Option.map Prod.snd) chal) hdue _),
    fun _ _ => rfl⟩
  case connect =>
    obtain ⟨payload, hexec⟩ := exec_ddpConnect_of_hears hears
    exact ⟨_, hexec, rfl, rfl, rfl, rfl, rfl, rfl, rfl, rfl⟩
  case unlock =>
    exact ⟨_, exec_ddpUnlock_of_fresh hears hkey lock session chal soon installed, by simp, by simp, ddpAnswer_answered ..⟩
  case failed =>
    obtain ⟨unlocked, chal⟩ := unlockFailed_session (s.onDbg fun d => { d with chal := none })
    exact ⟨_, exec_ddpUnlock_of_failed hears hkey lock, by simpa using unlocked, by simpa using chal, ddpAnswer_answered ..⟩

end Sys2Proof.Machine
end

section
/-! PROOFS. Halting, resuming and stepping cores, break- and watchpoints, the debug reset, and the ends of a debug hold (R496 to R503). -/

namespace Sys2Proof.Machine

/-- A HALT outside PAIRED mode, of a core that the mode lets halt (R500). -/
theorem exec_ddpHalt_of_mayHalt {q core : Nat} {s : State} (hears : s.Hears q) (unlocked : s.dbg.unlocked.isSome = true) (hcore : core < 36)
    (notPaired : s.md.mode ≠ .paired) (may : s.mayHalt core = true) : exec (.ddpHalt q core) s = .next (haltNow q core s) := by
  have unpaired : (s.md.mode == .paired) = false := by simpa using notPaired
  change Host.Outcome.next (ddpRequest q 3 _ s) = _
  rw [ddpRequest_of_unlocked hears unlocked]
  simp only [Nat.not_le.2 hcore, unpaired, may, if_false, Bool.false_and, Bool.false_eq_true, Bool.not_true]

theorem exec_ddpHalt_of_not_mayHalt {q core : Nat} {s : State} (hears : s.Hears q) (unlocked : s.dbg.unlocked.isSome = true) (hcore : core < 36)
    (notPaired : s.md.mode ≠ .paired) (may : s.mayHalt core = false) : exec (.ddpHalt q core) s = .next (ddpAnswer q 3 3 [] s) := by
  have unpaired : (s.md.mode == .paired) = false := by simpa using notPaired
  change Host.Outcome.next (ddpRequest q 3 _ s) = _
  rw [ddpRequest_of_unlocked hears unlocked]
  simp only [Nat.not_le.2 hcore, unpaired, may, if_false, Bool.false_and, Bool.false_eq_true, Bool.not_false, if_true]

theorem mayHalt_of_maintenance {s : State} (h : s.md.mode = .maintenance) (n : Nat) : s.mayHalt n = true := by
  simp [State.mayHalt, h]

/-- HALT leaves the core halted and answers its record (R498, R500). -/
theorem haltNow_halts {core : Nat} {s : State} (q : Nat) (hcore : core < s.dbg.cores.length) :
    ((haltNow q core s).dbg.cores.getD core {}).halted = true
      ∧ (haltNow q core s).answered q 3 0 (coreRecord ((haltNow q core s).dbg.cores.getD core {})) := by
  unfold haltNow
  dsimp only
  split
  · next halted => exact ⟨halted, rfl⟩
  · refine ⟨?_, rfl⟩
    simp only [ddpAnswer_cores, State.onDbg_dbg, debugEntry_dbg, core_haltCore hcore, haltedCore]

/-- STEP halts the core again with reason 2, its memory unknown (R497). -/
theorem exec_ddpStep_of_halted {q core : Nat} {s : State} (hears : s.Hears q) (unlocked : s.dbg.unlocked.isSome = true) (hcore : core < 36)
    (halted : (s.dbg.cores.getD core {}).halted = true) :
    ∃ t, exec (.ddpStep q core) s = .next (ddpAnswer q 5 0 (coreRecord (t.dbg.cores.getD core {})) t)
      ∧ t = updCore core (fun c => { c with mem := [] }) (haltCore core 2 0 true s) := by
  refine ⟨_, ?_, rfl⟩
  change Host.Outcome.next (ddpRequest q 5 _ s) = _
  rw [ddpRequest_of_unlocked hears unlocked]
  simp only [Nat.not_le.2 hcore, halted, if_false, Bool.not_true, Bool.false_eq_true]

theorem exec_ddpResume_of_halted {q core : Nat} {s : State} (hears : s.Hears q) (unlocked : s.dbg.unlocked.isSome = true) (hcore : core < 36)
    (halted : (s.dbg.cores.getD core {}).halted = true) :
    exec (.ddpResume q core) s = .next (ddpAnswer q 4 0 [] (releaseHeld (resumeCore core s))) := by
  change Host.Outcome.next (ddpRequest q 4 _ s) = _
  rw [ddpRequest_of_unlocked hears unlocked]
  simp only [Nat.not_le.2 hcore, halted, if_false, if_true]

theorem exec_ddpState_of_halted {q core : Nat} {s : State} (hears : s.Hears q) (unlocked : s.dbg.unlocked.isSome = true) (hcore : core < 36)
    (halted : (s.dbg.cores.getD core {}).halted = true) :
    exec (.ddpState q core) s = .next (ddpAnswer q 6 0 (coreRecord (s.dbg.cores.getD core {})) s.drawn) := by
  change Host.Outcome.next (ddpRequest q 6 _ s) = _
  rw [ddpRequest_of_unlocked hears unlocked]
  simp only [Nat.not_le.2 hcore, sampled_of_halted halted, if_false]

/-- A breakpoint set at an index takes the place of the one there (R497). -/
def setBreak (idx addr : Nat) (c : Core) : Core := { c with brk := (c.brk.filter fun b => b.1 != idx) ++ [(idx, addr)] }

/-- A watchpoint set at an index takes the place of the one there, its address aligned down (R497, log 50). -/
def setWatch (idx access shift addr : Nat) (c : Core) : Core :=
  { c with wat := (c.wat.filter fun w => w.1 != idx) ++ [(idx, access, shift, addr / 2 ^ shift * 2 ^ shift)] }

theorem exec_ddpSetBreak_on {q core idx : Nat} {s : State} (hears : s.Hears q) (unlocked : s.dbg.unlocked.isSome = true) (hcore : core < 36)
    (hidx : idx < 8) (addr : Nat) :
    exec (.ddpSetBreak q core idx true addr) s = .next (ddpAnswer q 7 0 [] (updCore core (setBreak idx addr) s)) := by
  change Host.Outcome.next (ddpRequest q 7 _ s) = _
  rw [ddpRequest_of_unlocked hears unlocked]
  simp only [Nat.not_le.2 hcore, Nat.not_le.2 hidx, decide_false, Bool.or_self, Bool.false_eq_true, if_false, if_true]
  rfl

theorem exec_ddpSetWatch_on {q core idx access shift : Nat} {s : State} (hears : s.Hears q) (unlocked : s.dbg.unlocked.isSome = true)
    (hcore : core < 36) (hidx : idx < 4) (hshift : shift < 13) (haccess : access ≠ 0) (addr : Nat) :
    exec (.ddpSetWatch q core idx access shift addr) s = .next (ddpAnswer q 8 0 [] (updCore core (setWatch idx access shift addr) s)) := by
  have on : (access == 0) = false := by simpa using haccess
  change Host.Outcome.next (ddpRequest q 8 _ s) = _
  rw [ddpRequest_of_unlocked hears unlocked]
  simp only [Nat.not_le.2 hcore, Nat.not_le.2 hidx, Nat.not_le.2 hshift, on, decide_false, Bool.or_self, Bool.false_eq_true, if_false]
  rfl

/-- A debug reset of a management core in MAINTENANCE (R413, log 48). -/
theorem exec_ddpDebugReset_of_maintenance {q core : Nat} {s : State} (hears : s.Hears q) (unlocked : s.dbg.unlocked.isSome = true)
    (hcore : core < 4) (mode : s.md.mode = .maintenance) :
    exec (.ddpDebugReset q core) s = .next (ddpAnswer q 0x0F 0 [] (releaseHoldOf core (updCore core (fun _ => { reason := 5 })
      (debugEntry 0x4005 s.unlockKey (coreObj core) s)))) := by
  have inRange : ¬36 ≤ core := by omega
  change Host.Outcome.next (ddpRequest q 0x0F _ s) = _
  rw [ddpRequest_of_unlocked hears unlocked]
  simp [inRange, Nat.not_le.2 hcore, mode]

theorem exec_breakpointHit_of_set {core idx addr : Nat} {s : State} (hcore : core < 36) (running : (s.dbg.cores.getD core {}).halted = false)
    (set : (s.dbg.cores.getD core {}).brk = [(idx, addr)]) (may : s.mayHalt core = true) :
    exec (.breakpointHit core idx) s
      = .next (updCore core (fun k => { k with regs := k.regs.set 32 addr }) (haltCore core 3 idx true s)) := by
  change execBreakpointHit core idx s = _
  simp only [execBreakpointHit, Nat.not_le.2 hcore, if_false, set, List.find?_cons, beq_self_eq_true, running, may, Bool.not_true,
    Bool.or_self, Bool.false_eq_true]

theorem exec_watchpointHit_of_set {core idx access shift addr : Nat} {s : State} (hcore : core < 36)
    (running : (s.dbg.cores.getD core {}).halted = false) (set : (idx, access, shift, addr) ∈ (s.dbg.cores.getD core {}).wat)
    (may : s.mayHalt core = true) : exec (.watchpointHit core idx) s = .next (haltCore core 4 idx true s) := by
  have any : ((s.dbg.cores.getD core {}).wat.any fun w => w.1 == idx) = true := List.any_eq_true.2 ⟨_, set, by simp⟩
  change execWatchpointHit core idx s = _
  simp only [execWatchpointHit, Nat.not_le.2 hcore, if_false, any, may, running, Bool.not_true, Bool.or_self, Bool.false_eq_true,
    Bool.not_false, if_true]

theorem exec_debugHoldEnd_of_idle {t : Nat} {s : State} (held : s.dbg.held = some t) (idle : s.dbg.cores.any (·.halted) = false)
    (closed : s.dbg.session = false) : exec .debugHoldEnd s = .next (releaseHold s) := by
  change execDebugHoldEnd s = _
  simp only [execDebugHoldEnd, held, idle, closed, Bool.false_and, Bool.or_self, Bool.false_eq_true, if_false]

/-- Settles O21. -/
theorem debugCores : Obligations.DebugCores := by
  refine ⟨fun q core s hears unlocked hcore sized mode => ?halt, fun q core s hears unlocked hcore mode => ?refused,
    fun q core s hears unlocked hcore halted => exec_ddpResume_of_halted hears unlocked hcore halted,
    fun q core s hears unlocked hcore halted sized => ?stepped,
    fun q core s hears unlocked hcore halted => ⟨_, exec_ddpState_of_halted hears unlocked hcore halted, ddpAnswer_answered .., rfl⟩,
    fun q core idx addr s hears unlocked hcore sized hidx => ?brk,
    fun q core idx access shift addr s hears unlocked hcore sized hidx hshift haccess => ?wat,
    fun q core s hears unlocked hcore mode => ⟨_, exec_ddpDebugReset_of_maintenance hears unlocked hcore mode, rfl⟩,
    fun core idx addr s hcore sized running set mode => ?brkHit,
    fun core idx access shift addr s hcore sized running set mode => ?watHit,
    fun core idx s hcore => ⟨if_pos hcore, if_pos hcore⟩,
    fun t s held idle closed => exec_debugHoldEnd_of_idle held idle closed,
    fun core d s hold hdue => congrArg Host.Outcome.next (whenDue_some (congrArg (Option.map Prod.snd) hold) hdue _)⟩
  case halt =>
    exact ⟨_, exec_ddpHalt_of_mayHalt hears unlocked hcore (by simp [mode]) (mayHalt_of_maintenance mode core),
      haltNow_halts q (sized ▸ hcore)⟩
  case refused =>
    have may : s.mayHalt core = false := by simp [State.mayHalt, mode, hcore]
    exact ⟨_, exec_ddpHalt_of_not_mayHalt hears unlocked (by omega) (by simp [mode]) may, ddpAnswer_answered .., rfl⟩
  case stepped =>
    have hlen : core < s.dbg.cores.length := sized ▸ hcore
    obtain ⟨t, hexec, rfl⟩ := exec_ddpStep_of_halted hears unlocked hcore halted
    refine ⟨_, hexec, ?_, ?_, rfl⟩
    · rw [ddpAnswer_cores, core_updCore_same (by simpa using hlen), core_haltCore hlen]; rfl
    · rw [ddpAnswer_cores, core_updCore_same (by simpa using hlen), core_haltCore hlen]; rfl
  case brk =>
    refine ⟨_, exec_ddpSetBreak_on hears unlocked hcore hidx addr, ?_, ?_, rfl⟩
    · rw [ddpAnswer_cores, core_updCore_same (sized ▸ hcore)]; simp [setBreak]
    · rw [ddpAnswer_cores, core_updCore_same (sized ▸ hcore)]; rfl
  case wat =>
    refine ⟨_, exec_ddpSetWatch_on hears unlocked hcore hidx hshift haccess addr, ?_, rfl⟩
    rw [ddpAnswer_cores, core_updCore_same (sized ▸ hcore)]
    simp [setWatch]
  case brkHit =>
    have hlen : core < s.dbg.cores.length := sized ▸ hcore
    refine ⟨_, exec_breakpointHit_of_set hcore running set (mayHalt_of_maintenance mode core), ?_⟩
    rw [core_updCore_same (by simpa using hlen), core_haltCore hlen]
    refine ⟨rfl, rfl, rfl, ?_⟩
    simp only [haltedCore, running, Bool.false_and, Bool.false_eq_true, if_false]
    simp
  case watHit =>
    refine ⟨_, exec_watchpointHit_of_set hcore running set (mayHalt_of_maintenance mode core), ?_⟩
    rw [core_haltCore (sized ▸ hcore)]
    exact ⟨rfl, rfl, rfl⟩

end Sys2Proof.Machine
end

section
/-! PROOFS. Registers and address spaces of the debug port: what a read answers, and which bytes a write changes (R495, R496, R499). -/

namespace Sys2Proof.Machine

theorem exec_ddpRegRead_of_halted {q core idx : Nat} {s : State} (hears : s.Hears q) (unlocked : s.dbg.unlocked.isSome = true)
    (hcore : core < 36) (hidx : idx < 35) (halted : (s.dbg.cores.getD core {}).halted = true) :
    exec (.ddpRegRead q core idx) s = .next (ddpAnswer q 9 0 (bytesLE 8 ((s.dbg.cores.getD core {}).regs.getD idx 0)) s.drawn) := by
  change Host.Outcome.next (ddpRequest q 9 _ s) = _
  rw [ddpRequest_of_unlocked hears unlocked]
  simp only [Nat.not_le.2 hcore, Nat.not_le.2 hidx, decide_false, Bool.or_self, Bool.false_eq_true, if_false, sampled_of_halted halted]

theorem exec_ddpRegWrite_of_halted {q core idx : Nat} {s : State} (hears : s.Hears q) (unlocked : s.dbg.unlocked.isSome = true)
    (hcore : core < 36) (hidx : idx < 35) (halted : (s.dbg.cores.getD core {}).halted = true) (val : Nat) :
    exec (.ddpRegWrite q core idx val) s = .next (ddpAnswer q 0x0A 0 [] (noteWrite 4 (coreObj core)
      (updCore core (fun c => { c with regs := c.regs.set idx (val % 2 ^ 64) }) s))) := by
  change Host.Outcome.next (ddpRequest q 0x0A _ s) = _
  rw [ddpRequest_of_unlocked hears unlocked]
  simp only [Nat.not_le.2 hcore, Nat.not_le.2 hidx, decide_false, Bool.or_self, Bool.false_eq_true, if_false, halted, Bool.not_true]

theorem exec_ddpRegWrite_of_running {q core idx : Nat} {s : State} (hears : s.Hears q) (unlocked : s.dbg.unlocked.isSome = true)
    (hcore : core < 36) (hidx : idx < 35) (running : (s.dbg.cores.getD core {}).halted = false) (val : Nat) :
    exec (.ddpRegWrite q core idx val) s = .next (ddpAnswer q 0x0A 4 [] s) := by
  change Host.Outcome.next (ddpRequest q 0x0A _ s) = _
  rw [ddpRequest_of_unlocked hears unlocked]
  simp only [Nat.not_le.2 hcore, Nat.not_le.2 hidx, decide_false, Bool.or_self, Bool.false_eq_true, if_false, running, Bool.not_false, if_true]

theorem exec_ddpMemRead_tagMem {q core len addr : Nat} {s : State} (hears : s.Hears q) (unlocked : s.dbg.unlocked.isSome = true)
    (ok : spaceOk 1 core len 0 addr = true) :
    exec (.ddpMemRead q 1 core len 0 addr) s = .next (ddpAnswer q 0x0B 0 (s.dbg.tagMem.load s.free addr len) s.drawn) := by
  change Host.Outcome.next (ddpRequest q 0x0B _ s) = _
  rw [ddpRequest_of_unlocked hears unlocked]
  simp only [ok, Bool.not_true, Bool.false_eq_true, if_false]
  rfl

/-- A MEM WRITE to a halted core's local memory (R499). -/
theorem exec_ddpMemWrite_core {q core addr : Nat} {bytes : List Nat} {s : State} (hears : s.Hears q) (unlocked : s.dbg.unlocked.isSome = true)
    (ok : spaceOk 0 core bytes.length 0 addr = true) (halted : (s.dbg.cores.getD core {}).halted = true) :
    exec (.ddpMemWrite q 0 core 0 addr bytes) s = .next (ddpAnswer q 0x0C 0 [] (noteWrite 0 (coreObj core)
      (updCore core (fun c => { c with mem := c.mem.store addr bytes }) s))) := by
  change Host.Outcome.next (ddpRequest q 0x0C _ s) = _
  rw [ddpRequest_of_unlocked hears unlocked]
  simp only [ok, halted, Bool.not_true, Bool.false_eq_true, if_false]
  rfl

theorem quiet_of_mode {s : State} (mode : s.md.mode = .maintenance ∨ s.md.mode = .safe) :
    (s.md.mode == .maintenance || s.md.mode == .safe) = true := by
  rcases mode with mode | mode <;> simp [mode]

/-- A MEM WRITE to tag-context SRAM in a mode without I/O (R499). -/
theorem exec_ddpMemWrite_tagMem {q core addr : Nat} {bytes : List Nat} {s : State} (hears : s.Hears q)
    (unlocked : s.dbg.unlocked.isSome = true) (ok : spaceOk 1 core bytes.length 0 addr = true)
    (mode : s.md.mode = .maintenance ∨ s.md.mode = .safe) :
    exec (.ddpMemWrite q 1 core 0 addr bytes) s = .next (ddpAnswer q 0x0C 0 [] (noteWrite 1 0
      (s.onDbg fun d => { d with tagMem := d.tagMem.store addr bytes }))) := by
  change Host.Outcome.next (ddpRequest q 0x0C _ s) = _
  rw [ddpRequest_of_unlocked hears unlocked]
  simp only [ok, quiet_of_mode mode, Bool.not_true, Bool.false_eq_true, if_false]
  rfl

theorem exec_ddpMemWrite_hbm {q core addr : Nat} {bytes : List Nat} {s : State} (hears : s.Hears q)
    (unlocked : s.dbg.unlocked.isSome = true) (ok : spaceOk 2 core bytes.length 0 addr = true)
    (mode : s.md.mode = .maintenance ∨ s.md.mode = .safe) :
    exec (.ddpMemWrite q 2 core 0 addr bytes) s = .next (ddpAnswer q 0x0C 0 [] (noteWrite 2 0
      (s.onDbg fun d => { d with hbm := d.hbm.store addr bytes }))) := by
  change Host.Outcome.next (ddpRequest q 0x0C _ s) = _
  rw [ddpRequest_of_unlocked hears unlocked]
  simp only [ok, quiet_of_mode mode, Bool.not_true, Bool.false_eq_true, if_false]
  rfl

theorem exec_ddpMailbox_of_ok {q slot : Nat} {f : MbFrame} {s : State} (hears : s.Hears q) (unlocked : s.dbg.unlocked.isSome = true)
    (hslot : slot < 16) (ok : f.ok = true) :
    exec (.ddpMailbox q slot f) s = .next (ddpAnswer q 0x0D 0 [] (mbReceive
      { path := 4, slot := slot, tag := f.tag, opcode := f.opcode, principal := (s.dbg.unlocked.map (·.2)).getD 0, force := f.force }
      f.cmd f.fieldsOk s)) := by
  change Host.Outcome.next (ddpRequest q 0x0D _ s) = _
  rw [ddpRequest_of_unlocked hears unlocked]
  simp only [Nat.not_le.2 hslot, if_false, ok, Bool.not_true, Bool.false_eq_true]

theorem exec_ddpMailboxResult_of_ready {q slot code seq : Nat} {x : Slot} {payload : List Nat} {s : State} (hears : s.Hears q)
    (unlocked : s.dbg.unlocked.isSome = true) (hslot : slot < 16) (hx : s.slot? 4 slot = some x) (ready : x.ready = some (code, seq, payload)) :
    exec (.ddpMailboxResult q slot) s = .next (ddpAnswer q 0x0E 0 (resultFrame x code seq payload) (takeResult 4 slot s)) := by
  change Host.Outcome.next (ddpRequest q 0x0E _ s) = _
  rw [ddpRequest_of_unlocked hears unlocked]
  simp only [Nat.not_le.2 hslot, if_false, hx, ready, Option.bind_some, Option.map_some]

/-- Settles O22: each write stores its bytes, and `Memory.store` leaves the others. -/
theorem debugMemory : Obligations.DebugMemory := by
  refine ⟨fun q core idx s hears unlocked hcore hidx halted =>
      ⟨_, exec_ddpRegRead_of_halted hears unlocked hcore hidx halted, ddpAnswer_answered .., rfl⟩,
    fun q core idx val s hears unlocked hcore hidx sized halted => ?regWrite,
    fun q core idx val s hears unlocked hcore hidx running =>
      ⟨_, exec_ddpRegWrite_of_running hears unlocked hcore hidx running val, ddpAnswer_answered .., rfl⟩,
    fun q core len addr s hears unlocked ok => ⟨_, exec_ddpMemRead_tagMem hears unlocked ok, ddpAnswer_answered .., rfl, rfl⟩,
    fun q core addr bytes s hears unlocked ok halted sized => ?coreWrite,
    fun q core addr bytes s hears unlocked ok mode => ⟨_, exec_ddpMemWrite_tagMem hears unlocked ok mode, ?tagWrite⟩,
    fun q core addr bytes s hears unlocked ok mode => ⟨_, exec_ddpMemWrite_hbm hears unlocked ok mode, ?hbmWrite⟩,
    fun q core off addr bytes s hears unlocked =>
      ⟨_, congrArg Host.Outcome.next (ddpRequest_of_unlocked hears unlocked _), ddpAnswer_answered .., rfl, rfl, rfl⟩,
    fun q slot f s hears unlocked hslot ok => exec_ddpMailbox_of_ok hears unlocked hslot ok,
    fun q slot code seq x payload s hears unlocked hslot hx ready =>
      exec_ddpMailboxResult_of_ready hears unlocked hslot hx ready⟩
  case regWrite =>
    refine ⟨_, exec_ddpRegWrite_of_halted hears unlocked hcore hidx halted val, ?_, fun k hk => ?_, by simp, by simp⟩
    · rw [ddpAnswer_cores, noteWrite_cores, core_updCore_same (sized ▸ hcore)]
    · rw [ddpAnswer_cores, noteWrite_cores, core_updCore_of_ne hk]
  case coreWrite =>
    refine ⟨_, exec_ddpMemWrite_core hears unlocked ok halted, fun i h => ?_, fun a outside => ?_, fun k hk => ?_, by simp, by simp⟩
    · rw [ddpAnswer_cores, noteWrite_cores, core_updCore_same (sized ▸ lt_of_spaceOk_zero ok)]
      exact Memory.get_store_inside bytes addr i h _
    · rw [ddpAnswer_cores, noteWrite_cores, core_updCore_same (sized ▸ lt_of_spaceOk_zero ok)]
      exact Memory.get_store_outside bytes outside _
    · rw [ddpAnswer_cores, noteWrite_cores, core_updCore_of_ne hk]
  case tagWrite =>
    refine ⟨fun i h => ?_, fun a outside => ?_, by simp, by simp⟩
    · rw [ddpAnswer_tagMem, noteWrite_tagMem]
      exact Memory.get_store_inside bytes addr i h _
    · rw [ddpAnswer_tagMem, noteWrite_tagMem]
      exact Memory.get_store_outside bytes outside _
  case hbmWrite =>
    refine ⟨fun i h => ?_, fun a outside => ?_, by simp, by simp⟩
    · rw [ddpAnswer_hbm, noteWrite_hbm]
      exact Memory.get_store_inside bytes addr i h _
    · rw [ddpAnswer_hbm, noteWrite_hbm]
      exact Memory.get_store_outside bytes outside _

/-- After a request is answered the port hears one of another sequence, where the answered one left the session as it was. -/
theorem Hears.after_answer {q r type status : Nat} {payload : List Nat} {s t : State} (hears : s.Hears q) (hne : q ≠ r)
    (free : ¬(s.dbg.hold.isSome = true ∧ r = s.dbg.holdSeq)) (md : t.md = s.md) (cfg : t.cfg = s.cfg) (present : t.dbg.present = s.dbg.present)
    (hold : t.dbg.hold = s.dbg.hold) (holdSeq : t.dbg.holdSeq = s.dbg.holdSeq) : (ddpAnswer q type status payload t).Hears r where
  present := present.trans hears.present
  powered := (congrArg Md.powered md).trans hears.powered
  ready := (congrArg Md.svcReady md).trans hears.ready
  fresh := fun k x last => by
    have last : some (q, _) = some (k, x) := last
    injection last with last
    injection last with last
    exact last ▸ hne
  free := by
    change ¬(t.dbg.hold.isSome = true ∧ r = t.dbg.holdSeq)
    rwa [hold, holdSeq]
  mode := by
    change t.md.mode ≠ _
    rw [md]
    exact hears.mode
  policy := by
    change t.cfg.dbgPolicy ≠ 0
    rw [cfg]
    exact hears.policy

/-- Settles O12: the read loads from the memory that the write left, and the write noted nothing else that the read rests on. -/
theorem debugWriteThenRead : Obligations.DebugWriteThenRead := by
  intro q r core addr bytes s t hears hne free unlocked ok mode hwrite
  rw [exec_ddpMemWrite_tagMem hears unlocked ok (.inl mode)] at hwrite
  injection hwrite with ht
  subst ht
  obtain ⟨md, cfg, present, unlocked', hold, holdSeq⟩ :=
    noteWrite_session 1 0 (s.onDbg fun d => { d with tagMem := d.tagMem.store addr bytes })
  have hears' := Hears.after_answer (type := 0x0C) (status := 0) (payload := []) hears hne free md cfg present hold holdSeq
  refine ⟨_, exec_ddpMemRead_tagMem hears' (by rw [ddpAnswer_unlocked, unlocked']; exact unlocked) ok, ?_⟩
  rw [ddpAnswer_tagMem, noteWrite_tagMem]
  exact congrArg (fun l => some (r, DdpResp.mk r 0x0B 0 l)) (Memory.load_store s.dbg.tagMem addr _ bytes)

/-! ### The hypotheses are met -/

/-- A unit in MAINTENANCE whose debug port hears an unlocked session. -/
def debuggedUnit : State := { State.reset with
  md := { powered := true, svcReady := true, mode := .maintenance }
  cfg := { dbgPolicy := 1 }
  dbg := { present := true, session := true, unlocked := some (0, 3) } }

theorem debuggedUnit_hears (q : Nat) : debuggedUnit.Hears q :=
  ⟨rfl, rfl, rfl, nofun, by rintro ⟨⟨⟩, -⟩, nofun, nofun⟩

/-- O12 applied to `debuggedUnit`: eight bytes written to tag-context SRAM at 16 are read back, each as a byte. -/
theorem memWrite_memRead_debuggedUnit : ∃ t u, exec (.ddpMemWrite 1 1 0 0 16 [1, 2, 3, 4, 5, 6, 7, 256]) debuggedUnit = .next t
    ∧ exec (.ddpMemRead 2 1 0 8 0 16) t = .next u ∧ u.answered 2 0x0B 0 [1, 2, 3, 4, 5, 6, 7, 0] := by
  have hwrite := exec_ddpMemWrite_tagMem (core := 0) (addr := 16) (bytes := [1, 2, 3, 4, 5, 6, 7, 256]) (debuggedUnit_hears 1) rfl
    (by decide) (.inl rfl)
  obtain ⟨u, hread, hanswer⟩ := debugWriteThenRead 1 2 0 16 [1, 2, 3, 4, 5, 6, 7, 256] debuggedUnit _ (debuggedUnit_hears 1) (by decide)
    (by rintro ⟨⟨⟩, -⟩) rfl (by decide) rfl hwrite
  exact ⟨_, u, hwrite, hread, hanswer⟩

end Sys2Proof.Machine
end

section
/-! PROOFS. The timers of an association and of the violation log, when their time has come (R52 to R68, R104). -/

namespace Sys2Proof.Machine

@[simp] theorem nextPhase_id (now : Nat) (a : Assoc) : (nextPhase now a).id = a.id := rfl

/-- Settles O24: each row runs its timer's effect, for the association is found in the row's state and the deadline has passed. -/
theorem transportTimers : Obligations.TransportTimers := by
  refine ⟨fun _ _ => rfl, ?halfOpen, ?ackDelay, ?gapDelay, ?retransmit, ?suspend, ?resumeWindow, ?keepalive, ?keyPhase, ?previousKey,
    ?quietInterval, ?violationInterval⟩
  case halfOpen =>
    intro id a s ha st hdue
    change execHalfOpenExpiry id s = _
    simp [execHalfOpenExpiry, ha, st, whenDue_of_le hdue]
  case ackDelay =>
    intro id t a s ha st new oldest hdue
    change execAcknowledgementDelayExpiry id s = _
    simp [execAcknowledgementDelayExpiry, ha, st, new, oldest, whenDue_of_le hdue]
  case gapDelay =>
    intro id t a s ha st gap hdue
    change execGapDelayExpiry id s = _
    simp [execGapDelayExpiry, ha, st, gap, whenDue_of_le hdue]
  case retransmit =>
    intro id seq t a p s ha hp st timer hdue attempt
    change execRetransmissionTimerExpiry id seq s = _
    simp [execRetransmissionTimerExpiry, ha, hp, st, timer, whenDue_of_le hdue, Nat.not_le.2 attempt]
  case suspend =>
    intro id seq t a p s ha hp st timer hdue attempt
    change execRetransmissionTimerExpiry id seq s = _
    simp [execRetransmissionTimerExpiry, ha, hp, st, timer, whenDue_of_le hdue, attempt]
  case resumeWindow =>
    intro id a s ha st releasing hdue
    change execResumeWindowExpiry id s = _
    simp [execResumeWindowExpiry, ha, st, releasing, whenDue_of_le hdue]
  case keepalive =>
    intro id a s ha st tcp hdue
    change execKeepaliveIntervalExpiry id s = _
    simp [execKeepaliveIntervalExpiry, ha, st, tcp, whenDue_of_le hdue]
  case keyPhase =>
    intro id a s ha st hdue
    have found : (updAssoc id (nextPhase s.now) s).assoc? id = some (nextPhase s.now a) := by
      rw [assoc?_updAssoc_same (nextPhase_id s.now), ha, Option.map_some]
    refine ⟨updAssoc id (nextPhase s.now) s, ?_, fun b hb => ?_, by rw [found]; rfl, rfl⟩
    · change execKeyPhaseTimeout id s = _
      simp [execKeyPhaseTimeout, ha, st, whenDue_of_le hdue]
    · rw [found] at hb
      cases hb
      exact ⟨rfl, rfl⟩
  case previousKey =>
    intro id a s ha key hdue
    change execPreviousKeyDiscard id s = _
    simp [execPreviousKeyDiscard, ha, key, whenDue_of_le hdue]
  case quietInterval =>
    intro s hdue none_
    change execViolationIntervalEnd s = _
    simp [execViolationIntervalEnd, none_, whenDue_of_le hdue, State.onAudit]
  case violationInterval =>
    intro s hdue some_
    change execViolationIntervalEnd s = _
    simp [execViolationIntervalEnd, some_, whenDue_of_le hdue, State.onAudit]

end Sys2Proof.Machine
end

section
/-! PROOFS. Window and zone commands and the ends of their drains (R82 to R90, R96, R97). -/

namespace Sys2Proof.Machine

/-- A Window Register whose key, length and key's novelty R82 and R87 allow finds the table full, or is `registerWindow`. -/
theorem exec_windowRegister_of_full {id row : Nat} {a : Assoc} {c : Cmd} {s : State} (hready : s.windowReady id row 0xD0 = some (a, c))
    (hkey : c.sqe.key ≠ 0) (hmin : 4096 ≤ c.sqe.wlen) (hmax : c.sqe.wlen ≤ 2 ^ 57) (hpage : c.sqe.wlen % 4096 = 0)
    (hnew : a.windows.any (·.key == c.sqe.key) = false) (hfull : 256 ≤ a.windows.length) :
    exec (.windowRegister id row) s = .next (finishAdm c scWindowFull 0 0 s) := by
  have fieldsAllowed : (c.sqe.key == 0 || decide (c.sqe.wlen < 4096) || decide (2 ^ 57 < c.sqe.wlen) || c.sqe.wlen % 4096 != 0) = false := by
    simpa [hkey, hmin, hpage] using hmax
  change execWindowRegister id row s = _
  simp only [execWindowRegister, hready, fieldsAllowed, hnew, hfull, if_false, if_true, Bool.false_eq_true]

/-- A Zone Release of a row: the first closes the zone and drops the data held for no zone write, a later one is noted (R90). -/
def closeZone (row now : Nat) (rows : List Nat) (y : Zone) : Zone :=
  if y.closing then { y with releaseRows := y.releaseRows ++ [row] }
  else { y with closing := true, closedAt := now, releaseRows := [row], held := y.held.filter fun p => rows.contains p.row }

theorem closeZone_closing (row now : Nat) (rows : List Nat) (y : Zone) : (closeZone row now rows y).closing = true := by
  unfold closeZone
  split <;> simp_all

theorem mem_releaseRows_closeZone (row now : Nat) (rows : List Nat) (y : Zone) : row ∈ (closeZone row now rows y).releaseRows := by
  unfold closeZone
  split <;> simp

/-- Zone writes that are cut off are counted, and their data dropped (R90). -/
def cutWrites (cut : List Cmd) (y : Zone) : Zone :=
  { y with cancelled := y.cancelled + cut.length, held := y.held.filter fun p => !cut.any (·.row == p.row) }

/-- Settles O25. -/
theorem windowsAndZones : Obligations.WindowsAndZones := by
  refine ⟨?register, ?registerFull, ?revokeAgain, ?revoke, ?windowDrain, ?grant, ?release, ?dataWaitNone, ?dataWaitOne, ?zoneDrain⟩
  case register =>
    intro id row a c s hready hkey hmin hmax hpage hnew hroom
    exact exec_windowRegister_of_room hready hkey hmin hmax hpage hnew hroom
  case registerFull =>
    intro id row a c s hready hkey hmin hmax hpage hnew hfull
    exact exec_windowRegister_of_full hready hkey hmin hmax hpage hnew hfull
  case revokeAgain =>
    intro id row a c w s hready hw closing
    change execWindowRevoke id row s = _
    simp only [execWindowRevoke, hready, hw, closing, if_true]
  case revoke =>
    intro id row a c w s hready hw closing cut
    change execWindowRevoke id row s = _
    simp only [execWindowRevoke, hready, hw, closing, cut, Bool.false_eq_true, if_false, List.foldl_nil, List.length_nil]
  case windowDrain =>
    intro id key a w s ha hw idle
    change execWindowDrainEnd id key s = _
    simp only [execWindowDrainEnd, ha, hw, idle, Bool.false_eq_true, if_false]
  case grant =>
    intro id row a c s hready zone step free
    change execZoneGrant id row s = _
    simp [execZoneGrant, hready, zone, step, Nat.not_lt.2 free]
  case release =>
    intro id row a c z s hready zone key
    refine ⟨closeZone row s.now ((s.io.cmds.filter fun x => x.assoc == id && zoneWrite a x).map (·.row)), ?_,
      closeZone_closing row s.now _, mem_releaseRows_closeZone row s.now _⟩
    change execZoneRelease id row s = _
    simp only [execZoneRelease, hready, zone, key, bne_self_eq_false, Bool.false_eq_true, if_false]
    rfl
  case dataWaitNone =>
    intro id a z s ha zone closing hdue cut
    change execZoneDataWaitExpiry id s = _
    simp only [execZoneDataWaitExpiry, ha, zone, closing, whenDue_of_le hdue, cut, Bool.not_true, Bool.false_eq_true, if_false,
      List.isEmpty_nil, Bool.and_false, List.any_nil, Bool.not_false, List.length_nil, List.foldl_nil]
  case dataWaitOne =>
    intro id a c z s ha zone closing hdue unpaired step cut
    refine ⟨cutWrites [c], ?_, fun _ => rfl⟩
    change execZoneDataWaitExpiry id s = _
    simp only [execZoneDataWaitExpiry, ha, zone, closing, whenDue_of_le hdue, cut, unpaired, Bool.not_true, Bool.false_eq_true, if_false,
      Bool.false_and, List.foldl_cons, List.foldl_nil]
    rfl
  case zoneDrain =>
    intro id a z s ha zone closing idle
    change execZoneDrainEnd id s = _
    simp only [execZoneDrainEnd, ha, zone, closing, idle, Bool.not_true, Bool.or_self, Bool.false_eq_true, if_false]

end Sys2Proof.Machine
end

section
/-! PROOFS. The I/O commands, when they may execute (R71, R120 to R136, R288, R309, R361). -/

namespace Sys2Proof.Machine

/-- A read that waited at its shaper takes its credit, and the time it waited is counted (R361). -/
def shaperServes (sh : Shaper) (held : Nat) (x : Assoc) : Assoc :=
  { x with shaper := sh, meter := { x.meter with shWait := x.meter.shWait + held } }

/-- Settles O27. -/
theorem ioCommands : Obligations.IoCommands := by
  refine ⟨?flush, ?writePush, ?writeR2t, ?executable, ?badPi, ?start, ?mayNotStart, ?read, ?admission, ?defer, ?shaper, ?zeroes, ?dsmHints,
    ?dsmDealloc, ?verify, ?offline⟩
  case flush =>
    intro id row c s hready admin opcode online
    change execFlush id row s = _
    simp only [execFlush, hready, admin, opcode, online, bne_self_eq_false, Bool.or_self, Bool.false_eq_true, if_false]
  case writePush =>
    intro id row a c v ar s hready online tcp
    change execWrite id row s = _
    simp only [execWrite, hready, online, tcp, Bool.false_and, Bool.false_eq_true, if_false]
  case writeR2t =>
    intro id row a c v ar s hready online tcp inl
    change execWrite id row s = _
    simp only [execWrite, hready, online, tcp, inl, Bool.not_false, Bool.and_self, Bool.false_eq_true, if_false, if_true]
  case executable =>
    intro id row a c v ar s hready complete online pi
    change execWriteExecutable id row s = _
    simp only [execWriteExecutable, hready, complete, online, pi, Bool.not_true, Bool.false_eq_true, if_false]
  case badPi =>
    intro id row sc a c v ar s hready complete online pi
    change execWriteExecutable id row s = _
    simp only [execWriteExecutable, hready, complete, online, pi, Bool.not_true, Bool.false_eq_true, if_false]
  case start =>
    intro id row c s hready may
    change execWriteStart id row s = _
    simp only [execWriteStart, hready, may, if_true]
  case mayNotStart =>
    intro id row c s hready may
    change execWriteStart id row s = _
    simp only [execWriteStart, hready, may, Bool.false_eq_true, if_false]
  case read =>
    intro id row a c v ar s hready online
    change execRead id row s = _
    simp only [execRead, hready, online, Bool.false_eq_true, if_false]
  case admission =>
    intro id row a c v ar s hready wait online admits shaper
    change execReadAdmission id row s = _
    simp only [execReadAdmission, hready, wait, online, admits, shaper, bne_self_eq_false, Bool.false_and, Bool.not_true, Bool.not_false,
      Bool.true_or, Bool.false_eq_true, if_false, if_true]
  case defer =>
    intro id row a c v ar s hready wait online admits
    have notDeferred : (WaitWhy.admission == WaitWhy.deferred) = false := rfl
    change execReadAdmission id row s = _
    simp only [execReadAdmission, hready, wait, online, admits, notDeferred, bne_self_eq_false, Bool.false_and, Bool.not_false,
      Bool.false_eq_true, if_false, if_true]
  case shaper =>
    intro id a b k c v ar s ha waits hready credit admits
    let spent := creditSpend (shaperNow a s.now) (s.placeCost a (transferLen v c.sqe)) a.policy.lo
    refine ⟨shaperServes { credit := spent, t := s.now, waiting := false } (s.now - c.shAt.getD s.now), ?_, fun _ => rfl⟩
    change execShaperRelease id s = _
    simp only [execShaperRelease, ha, waits, hready, admits, Int.not_lt.2 credit, decide_false, Bool.not_true, Bool.or_self,
      Bool.false_eq_true, if_false]
    rfl
  case zeroes =>
    intro id row a c v ar s hready online prot deac
    change execWriteZeroes id row s = _
    simp only [execWriteZeroes, hready, online, prot, deac, Bool.not_false, Bool.or_true, Bool.false_eq_true, if_false, if_true]
  case dsmHints =>
    intro id row a c v ar s hready online deallocate
    change execDatasetManagement id row s = _
    simp only [execDatasetManagement, hready, online, deallocate, Bool.not_false, Bool.false_eq_true, if_false, if_true]
  case dsmDealloc =>
    intro id row a c v ar s hready online deallocate
    refine ⟨_, rfl, ?_⟩
    change execDatasetManagement id row s = _
    simp only [execDatasetManagement, hready, online, deallocate, Bool.not_true, Bool.false_eq_true, if_false]
  case verify =>
    intro id row a c v ar s hready online
    change execVerify id row s = _
    simp only [execVerify, hready, online, Bool.false_eq_true, if_false]
  case offline =>
    rintro id row _ a c v ar s rfl hready offline
    change execRead id row s = _
    simp only [execRead, hready, offline, if_true]
    rfl

end Sys2Proof.Machine
end

section
/-! PROOFS. Drive commands of this unit, and what a member's drive does to its position (R151, R186, R188, R280, R393, R474 to R476). -/

namespace Sys2Proof.Machine

theorem isNone_of_ne_none {α : Type} {o : Option α} (h : o ≠ none) : o.isNone = false := by
  cases o with
  | none => exact absurd rfl h
  | some _ => rfl

/-- A write that fails for the first time is queued again (R474). -/
theorem driveEnds_of_failed_write {dc : Nat} {d : DrvCmd} {s : State} (hd : s.dc? dc = some d) (sub : d.subAt ≠ none) (op : d.op = .write)
    (retry : d.retry = false) (status : Nat) (blocks : List Blk) : driveEnds dc false status false blocks s
      = stitchDrive d 1 status (updDc dc (fun x => { x with subAt := none, abortAt := none, retry := true, queued := s.now }) s) := by
  simp [driveEnds, hd, isNone_of_ne_none sub, op, retry]

/-- A read that succeeds ends, and what it read goes on (R280). -/
theorem driveEnds_of_good_read {dc : Nat} {d : DrvCmd} {s : State} (hd : s.dc? dc = some d) (sub : d.subAt ≠ none) (op : d.op = .read)
    (status : Nat) (blocks : List Blk) :
    driveEnds dc true status false blocks s = afterDrive d true blocks (stitchDrive d 0 status (removeDc dc s)) := by
  simp [driveEnds, hd, isNone_of_ne_none sub, op]

/-- A position of an array is read by its number whatever stands for a missing one. -/
theorem pos_getD {a : Arr} {pos : Nat} {x : Pos} (h : a.pos[pos]? = some x) (y : Pos) : a.pos.getD pos y = x := by
  rw [List.getD_eq_getElem?_getD, h, Option.getD_some]

/-- Settles O29. -/
theorem driveCommands : Obligations.DriveCommands := by
  refine ⟨?completion, fun dc status blocks d s hd sub op retry => driveEnds_of_failed_write hd sub op retry status blocks,
    fun dc status blocks d s hd sub op => driveEnds_of_good_read hd sub op status blocks, ?orphan, ?timeout, ?readyTimeout, ?absent, ?return_,
    ?grace, ?keeper, ?import_, fun bay arr pos s hbay => ⟨if_pos hbay, if_pos hbay⟩⟩
  case completion =>
    intro dc status ok fatal blocks d s hd
    change execDriveCompletion dc ok status fatal blocks s = _
    simp only [execDriveCompletion, hd, Option.elim_some]
  case orphan =>
    intro dc t d s hd abort hdue
    change execOrphanTimerExpiry dc s = _
    simp only [execOrphanTimerExpiry, hd, whenDue_some abort hdue]
  case timeout =>
    intro dc t d s hd sub abort hdue
    change execDriveCommandTimeout dc s = _
    simp only [execDriveCommandTimeout, hd, sub, abort, Option.isSome_none, Bool.false_eq_true, if_false, whenDue_of_le hdue]
  case readyTimeout =>
    intro bay t d s hbay hd resetting hdue
    change execDriveReadyTimeout bay s = _
    simp only [execDriveReadyTimeout, Nat.not_le.2 hbay, if_false, hd, whenDue_some resetting hdue]
  case absent =>
    intro arr pos a x s ha hx acts present gone
    change execMemberAbsent arr pos s = _
    simp only [execMemberAbsent, ha, pos_getD hx, acts, present, gone, Bool.not_true, Bool.not_false, Bool.or_true, Bool.true_or,
      Bool.or_self, Bool.false_and, Bool.false_eq_true, if_false]
  case return_ =>
    intro arr pos bay a d l s hbay ha hd hl acts ready down ok larr lpos lid spare moved rem
    have elsewhere : ((a.pos.getD pos {}).bay != bay) = true := bne_iff_ne.2 moved
    change execMemberReturn arr pos bay s = _
    simp only [execMemberReturn, Nat.not_le.2 hbay, ha, hd, hl, acts, ready, down, ok, larr, lpos, lid, spare, rem, elsewhere,
      Option.isNone_none, beq_self_eq_true, Bool.not_false, Bool.and_self, if_false, if_true]
  case grace =>
    intro arr pos t a x s ha hx st acts grace hdue
    change execReturnGraceExpiry arr pos s = _
    simp only [execReturnGraceExpiry, ha, pos_getD hx, st, acts, bne_self_eq_false, Bool.not_true, Bool.or_self, Bool.false_eq_true,
      if_false, whenDue_some grace hdue]
  case keeper =>
    intro arr pos s acts
    change execKeeperCopyComplete arr pos s = _
    simp only [execKeeperCopyComplete, acts, if_true]
  case import_ =>
    intro arr vols a s ha importing idle
    change execImportEnd arr vols s = _
    simp only [execImportEnd, ha, importing, Bool.not_true, Bool.false_eq_true, if_false, idle, List.find?_nil]

end Sys2Proof.Machine
end

section
/-! PROOFS. Copies of a volume: passes, the final pass, and the packets of the copy's association (R202 to R204). -/

namespace Sys2Proof.Machine

/-- Settles O31. -/
theorem volumeCopies : Obligations.VolumeCopies := by
  refine ⟨?passEnd, ?finalEnd, ?finalTimeout, ?hello2, ?helloRefused, ?resp⟩
  case passEnd =>
    intro op c s hc todo rows final
    change execCopyPassEnd op s = _
    simp only [execCopyPassEnd, hc, todo, rows, final, List.isEmpty_nil, Bool.not_true, Option.isSome_none, Bool.or_self, Bool.false_eq_true,
      if_false]
  case finalEnd =>
    intro op t c s hc todo rows final inTime tag
    change execCopyFinalPassEnd op s = _
    simp only [execCopyFinalPassEnd, hc, todo, rows, final, tag, List.isEmpty_nil, Bool.not_true, Nat.not_lt.2 inTime, decide_false,
      Bool.or_self, Bool.false_eq_true, if_false]
  case finalTimeout =>
    intro op t c s hc final hdue tag
    change execCopyFinalPassTimeout op s = _
    simp only [execCopyFinalPassTimeout, hc, tag, whenDue_some final hdue]
  case hello2 =>
    intro op a paired c s hc st
    change execCopyAssociationPacket op (.hello2 true a paired) s = _
    simp only [execCopyAssociationPacket, hc, st, bne_self_eq_false, Bool.false_eq_true, if_false, if_true]
  case helloRefused =>
    intro op a paired c s hc st
    change execCopyAssociationPacket op (.hello2 false a paired) s = _
    simp only [execCopyAssociationPacket, hc, st, bne_self_eq_false, Bool.false_eq_true, if_false]
  case resp =>
    intro op q row range c s hc st fresh hrow
    change ∃ s1, execCopyAssociationPacket op (.resp q row 0) s = _
    simp only [execCopyAssociationPacket, hc, st, fresh, hrow, bne_self_eq_false, Bool.or_self, Bool.false_eq_true, if_false]
    exact ⟨_, rfl⟩

end Sys2Proof.Machine
end

section
/-! PROOFS. Packed volumes: chunks, rows, checkpoints, frogging and the map cache (R210 to R234, R250). -/

namespace Sys2Proof.Machine

theorem isEmpty_of_ne_nil {α : Type} {l : List α} (h : l ≠ []) : l.isEmpty = false := by
  simpa using h

/-- Settles O32. -/
theorem packedVolumes : Obligations.PackedVolumes := by
  refine ⟨?chunk, ?zeroChunk, ?rowTimeout, ?rowCommit, ?checkpoint, ?checkpointEnd, ?frog, ?fetch⟩
  case chunk =>
    intro vol chunk engine len crc v a s hv ha online packed prot acts orders engineIn dealloc zero
    change execChunkCompressed vol chunk engine len crc zero s = _
    simp only [execChunkCompressed, hv, ha, online, packed, prot, acts, isEmpty_of_ne_nil orders, engineIn, dealloc, Option.elim_some,
      Bool.not_true, Bool.and_false, Bool.or_self, Bool.false_eq_true, if_false]
  case zeroChunk =>
    intro vol chunk engine len crc v a s hv ha online packed prot acts orders engineIn
    change execChunkCompressed vol chunk engine len crc true s = _
    simp only [execChunkCompressed, hv, ha, online, packed, prot, acts, isEmpty_of_ne_nil orders, engineIn, Option.elim_some,
      Bool.not_true, Bool.not_false, Bool.and_self, Bool.true_or, Bool.or_self, Bool.false_eq_true, if_false, if_true]
  case rowTimeout =>
    intro vol t v s hv acts oldest hdue
    change execRowTimeout vol false s = _
    simp only [execRowTimeout, hv, acts, oldest, Bool.false_eq_true, if_false, if_true, Option.map_some, whenDue_of_le hdue]
  case rowCommit =>
    intro vol skein row v a w s hv ha hw acts writes before failed jour jWait
    change ∃ s3, execRowCommit vol skein row s = _ ∧ _
    simp only [execRowCommit, hv, ha, hw, acts, writes, before, failed, jour, jWait, List.isEmpty_nil, Bool.not_true, Bool.or_self,
      Nat.not_lt_zero, Bool.false_eq_true, if_false]
    exact ⟨_, rfl, _, rfl⟩
  case checkpoint =>
    intro arr a s ha acts online packed hdue
    change execCheckpointIntervalExpiry arr s = _
    simp only [execCheckpointIntervalExpiry, ha, acts, online, packed, Bool.not_false, Bool.and_self, if_true, whenDue_of_le hdue]
  case checkpointEnd =>
    intro arr q a s ha run idle jWait acts
    change ∃ s2, execCheckpointEnd arr s = _
    simp only [execCheckpointEnd, ha, run, idle, jWait, acts, List.isEmpty_nil, Bool.not_true, Bool.or_self, Bool.false_eq_true, if_false]
    exact ⟨_, rfl⟩
  case frog =>
    intro vol skein v a s hv ha frog acts online urgent candidates index
    have listed : ([skein].contains skein) = true := by simp
    change execFrogSelect vol skein s = _
    simp only [execFrogSelect, hv, ha, frog, acts, online, urgent, candidates, index, listed, Option.isSome_none, Bool.not_true,
      Bool.true_or, List.any_cons, List.any_nil, Nat.lt_irrefl, decide_false, Bool.or_self, Bool.false_eq_true, if_false, List.foldl_nil,
      List.length_nil]
  case fetch =>
    intro vol page entries v s hv packed cached
    change ∃ (s1 : State) (l : List Cmd), execMapPageFetch vol page entries s = _ ∧ _
    simp only [execMapPageFetch, hv, packed, cached, Bool.not_true, Bool.or_self, Bool.false_eq_true, if_false]
    exact ⟨_, _, rfl, rfl⟩

end Sys2Proof.Machine
end

section
/-! PROOFS. Witness messages, leases, renewals and stop points (R262 to R273, R402). -/

namespace Sys2Proof.Machine

/-- A message that is not valid is none of this unit's, and none that it carries to its partner. -/
theorem not_takesWitness_of_invalid {m : WMsg} {s : State} (h : m.valid = false) : s.takesWitness m = false := by
  simp [State.takesWitness, h]

theorem carryBack_of_own {m : WMsg} {s : State} (h : m.unit = s.md.slot) : carryBack m s = s := by
  simp [carryBack, h]

/-- Settles O33. -/
theorem witnessAndLeases : Obligations.WitnessAndLeases := by
  refine ⟨?grant, ?invalid, ?refuseRenewal, ?refuseHandover, ?state, ?renewal, ?poll, ?pollNone, ?stop, ?notStopped, ?relayOn, ?relayPromise,
    ?promise, ?promiseExpiry, ?claimWait, ?query⟩
  case grant =>
    intro m s takes
    change execGrant m s = _
    simp only [execGrant, takes, if_true]
  case invalid =>
    intro m s invalid own
    have notTaken := not_takesWitness_of_invalid (s := s) invalid
    refine ⟨?_, ?_, ?_⟩
    · change execGrant m s = _
      simp only [execGrant, notTaken, carryBack_of_own own, Bool.false_eq_true, if_false]
    · change execRefuse m s = _
      simp only [execRefuse, notTaken, carryBack_of_own own, Bool.not_false, if_true]
    · change execState m s = _
      simp only [execState, notTaken, carryBack_of_own own, Bool.not_false, if_true]
  case refuseRenewal =>
    intro m r s takes hr kind
    change execRefuse m s = _
    simp [execRefuse, takes, hr, kind]
  case refuseHandover =>
    intro m r s takes hr kind
    change execRefuse m s = _
    simp [execRefuse, takes, hr, kind]
  case state =>
    intro m r s takes hr kind
    change execState m s = _
    simp [execState, takes, hr, kind]
  case renewal =>
    intro arr t s acting at_ hdue tie before
    change execLeaseRenewalTimer arr s = _
    simp only [execLeaseRenewalTimer, acting, at_, tie, before, whenDue_of_le hdue, Option.getD_some, Bool.not_true, Bool.false_eq_true,
      if_false, if_true]
  case poll =>
    intro m rest s queue
    change execWitnessPoll s = _
    simp only [execWitnessPoll, queue]
    rfl
  case pollNone =>
    intro s queue
    change execWitnessPoll s = _
    simp only [execWitnessPoll, queue]
  case stop =>
    intro arr s acting tie reached loser
    change execStopPoint arr s = _
    simp only [execStopPoint, acting, tie, Nat.not_lt.2 reached, loser, Bool.not_true, Bool.or_self, decide_false, Bool.false_and,
      Bool.false_eq_true, if_false]
  case notStopped =>
    intro arr s acting before
    change execStopPoint arr s = _
    simp only [execStopPoint, before, decide_true, Bool.or_true, if_true]
  case relayOn =>
    intro m s yarn
    change execRelay false m true s = _
    simp only [execRelay, yarn, Bool.not_true, Bool.false_eq_true, if_false, if_true]
  case relayPromise =>
    intro m s yarn
    change execRelay false m false s = _
    simp only [execRelay, yarn, Bool.not_true, Bool.false_eq_true, if_false]
  case promise =>
    intro arr expiry r s request acting expires inTime
    change execPromise arr expiry s = _
    simp only [execPromise, request, List.getLast?_singleton, acting, Nat.not_lt.2 expires, Nat.not_le.2 inTime, decide_false,
      Bool.not_true, Bool.or_self, Bool.false_eq_true, if_false]
  case promiseExpiry =>
    intro arr t s yarn winner acting promised hdue
    change execPromiseExpiry arr s = _
    simp only [execPromiseExpiry, yarn, winner, acting, whenDue_some promised hdue, Bool.not_true, Bool.or_self, Bool.false_eq_true, if_false]
  case claimWait =>
    intro arr t s acting claimed noClaim mode wait hdue
    change execClaimWaitExpiry arr s = _
    simp only [execClaimWaitExpiry, acting, claimed, noClaim, mode, whenDue_some wait hdue, bne_self_eq_false, Bool.or_self,
      Bool.false_eq_true, if_false]
  case query =>
    intro t s mode noLease at_ hdue
    change execWitnessQueryRepeat s = _
    simp only [execWitnessQueryRepeat, mode, noLease, whenDue_some at_ hdue, bne_self_eq_false, Bool.not_true, Bool.or_self,
      Bool.false_eq_true, if_false]

end Sys2Proof.Machine
end

section
/-! PROOFS. The yarn's links, heartbeats, stitch acknowledgements, forwarded copies and digests (R274 to R276, R284 to R292, R298). -/

namespace Sys2Proof.Machine

@[simp] theorem yarnFreed_io (cls bytes : Nat) (s : State) : (yarnFreed cls bytes s).io = s.io := rfl

@[simp] theorem takeRtt_io (num : Nat) (s : State) : (takeRtt num s).io = s.io := by
  unfold takeRtt
  dsimp only
  split <;> rfl

theorem not_paired_of_solo {s : State} (h : s.md.mode = .solo) : s.paired = false := by
  simp [State.paired, h]

theorem not_inStep_of_not_paired {s : State} (h : s.paired = false) : s.inStep = false := by
  simp [State.inStep, h]

theorem not_inWarm_of_not_paired {s : State} (h : s.paired = false) : s.inWarm = false := by
  simp [State.inWarm, h]

/-- What a heartbeat of the other slot leaves of the pair's record while this unit is not PAIRED (R274, R275). -/
def heardHeartbeat (link now : Nat) (up broken : Bool) (mode : Mode) (mains : Bool) (high dialect shelf pool slot : Nat)
    (endBoot ptpLocked : Bool) (p : Pair) : Pair :=
  { p with
    lastRx := p.lastRx.set link now
    hbSince := if up || broken then p.hbSince.set link now else p.hbSince
    pMode := some mode, pMains := mains, pHigh := high, pDialect := some dialect, pShelf := shelf, pPool := pool, pSlot := slot
    pEndBoot := endBoot, pTimeLocked := ptpLocked }

theorem exec_heartbeat_of_solo {link slot : Nat} {s : State} (hlink : link < 2) (fw : s.md.fw = true) (other : slot ≠ s.md.slot)
    (solo : s.md.mode = .solo) (mode : Mode) (mains : Bool) (high dialect shelf pool : Nat) (endBoot locked : Bool) :
    exec (.heartbeat link mode mains high dialect shelf pool slot endBoot locked) s
      = .next (jointYield (s.onPair (heardHeartbeat link s.now (s.pair.links.getD link false)
          (decide (s.pair.lastRx.getD link 0 + 200 * us ≤ s.now) || s.pair.hbSince.getD link 0 == 0)
          mode mains high dialect shelf pool slot endBoot locked))) := by
  have unpaired := not_paired_of_solo solo
  have noClash : (slot == s.md.slot) = false := beq_false_of_ne other
  have notInStep (f : Pair → Pair) : (s.onPair f).inStep = false := not_inStep_of_not_paired unpaired
  have notInWarm (f : Pair → Pair) : (s.onPair f).inWarm = false := not_inWarm_of_not_paired unpaired
  change execHeartbeat link mode mains high dialect shelf pool slot endBoot locked s = _
  simp only [execHeartbeat, Nat.not_le.2 hlink, fw, noClash, unpaired, notInStep, notInWarm, decide_false, Bool.not_true, Bool.not_false,
    Bool.or_self, Bool.false_and, Bool.and_false, Bool.and_true, Bool.false_eq_true, if_false]
  rfl

/-- The stitches that an acknowledgement covers leave, and the credits it carries count (R276). -/
def stitchesAcked (num credits : Nat) (s : State) : State :=
  (takeRtt num (yarnFreed 7 32 s)).onPair fun p => { p with stitches := p.stitches.filter fun x => decide (num < x.num), credits := credits }

theorem exec_stitchAck_of_idle {num : Nat} {s : State} (sent : num < s.pair.txStitch) (stitching : s.stitching = true) (cmds : s.io.cmds = [])
    (assocs : s.io.assocs = []) (credit : s.pair.credits ≠ 0) (credits : Nat) :
    exec (.stitchAck num credits) s = .next (checkDigests (stitchesAcked num credits s)) := by
  have hadCredit : (s.pair.credits == 0) = false := by simpa using credit
  change execStitchAck num credits s = _
  simp only [execStitchAck, Nat.not_le.2 sent, stitching, decide_false, Bool.not_true, Bool.or_self, Bool.false_eq_true, if_false,
    State.onPair_io, takeRtt_io, yarnFreed_io, cmds, assocs, List.filter_nil, List.foldl_nil, List.map_nil, hadCredit]
  rfl

/-- Settles O34. -/
theorem yarnTraffic : Obligations.YarnTraffic := by
  refine ⟨?linkDown, ?linkUp, ?timer, ?heartbeat, ?resend, ?ack, ?confirmNone, ?confirm, ?missing, ?forwardOld, ?forward, ?twinWait,
    ?singleSided, ?twinHold, ?relayRead, ?digestOwn, ?digestOther, ?warm⟩
  case linkDown =>
    intro link s hlink up hdue lost
    change execYarnLinkDown link s = _
    simp only [execYarnLinkDown, Nat.not_le.2 hlink, up, whenDue_of_le hdue, lost, decide_false, Bool.not_true, Bool.or_self,
      Bool.false_eq_true, if_false]
  case linkUp =>
    intro link s hlink down serving since heard unbroken yarn
    have beating : (s.pair.hbSince.getD link 0 == 0) = false := beq_false_of_ne since
    change execYarnLinkUp link s = _
    simp only [execYarnLinkUp, Nat.not_le.2 hlink, down, serving, beating, Nat.not_le.2 heard, Nat.not_lt.2 unbroken, yarn, decide_false,
      Bool.not_true, Bool.or_self, Bool.false_eq_true, if_false, if_true]
    rfl
  case timer =>
    intro link s hlink fw held powered hdue
    change execHeartbeatTimer link s = _
    simp only [execHeartbeatTimer, Nat.not_le.2 hlink, fw, held, powered, whenDue_of_le hdue, decide_false, Bool.not_true,
      bne_self_eq_false, Bool.or_self, Bool.false_eq_true, if_false]
  case heartbeat =>
    intro link high dialect shelf pool slot mode mains endBoot locked s hlink fw other solo
    exact ⟨_, exec_heartbeat_of_solo hlink fw other solo mode mains high dialect shelf pool endBoot locked, rfl, rfl, rfl, rfl, rfl, rfl⟩
  case resend =>
    intro num x s hx hdue yarn
    change execStitchRetransmitTimer num s = _
    simp only [execStitchRetransmitTimer, hx, whenDue_of_le hdue, yarn, Bool.not_true, Bool.false_eq_true, if_false]
  case ack =>
    intro num credits s sent stitching cmds assocs credit
    refine ⟨_, exec_stitchAck_of_idle sent stitching cmds assocs credit credits, rfl, fun x hx => ?_⟩
    exact of_decide_eq_true (List.mem_filter.1 hx).2
  case confirmNone =>
    intro id row s hc
    change execConfirm id row s = _
    simp only [execConfirm, hc]
  case confirm =>
    intro id row c s hc st
    change execConfirm id row s = _
    simp only [execConfirm, hc, st, beq_self_eq_true, if_true]
  case missing =>
    rintro id row a c s _ rfl ha hc
    change execMissing id row s = _
    simp only [execMissing, ha, hc]
  case forwardOld =>
    rintro id row cls key off q blocks a s _ rfl ha old
    change execForward id row cls key off q blocks s = _
    simp only [execForward, ha, old, decide_true, Bool.true_or, if_true]
  case forward =>
    rintro id row cls key off q a b s _ rfl ha new fresh hc hb opcode io
    have notWrite : Cmd.isWrite { assoc := id, row := row, sqe := q, cls := cls, key := key, off := off, source := 1, twin := true } = false := by
      simp [Cmd.isWrite, opcode]
    refine ⟨{ assoc := id, row := row, sqe := q, cls := cls, key := key, off := off, source := 1, twin := true, xlen := 64 }, ?_,
      rfl, rfl, rfl, rfl, rfl, rfl, rfl⟩
    change execForward id row cls key off q [] s = _
    simp only [execForward, List.length_nil, Nat.mul_zero, Nat.add_zero, ha, Nat.not_lt.2 new, fresh, hc, hb, decide_false, Bool.or_self,
      notWrite, Bool.false_eq_true, if_false]
  case twinWait =>
    intro id row t a c s ha hc wait hdue step host
    change execTwinWaitExpiry id row s = _
    simp only [execTwinWaitExpiry, ha, hc, whenDue_some wait hdue, step, host, Bool.not_true, Bool.not_false, Bool.false_eq_true, if_false,
      if_true]
  case singleSided =>
    intro id a s ha step single st cmds
    change ∃ (s1 : State) (l : List Cmd), execSingleSidedEntry id s = _ ∧ _
    simp only [execSingleSidedEntry, ha, step, single, st, Bool.not_false, Bool.not_true, Bool.true_or, Bool.or_false,
      show (AssocState.live == AssocState.halfOpen) = false from rfl, Bool.false_eq_true, if_false]
    exact ⟨_, _, rfl, rfl⟩
  case twinHold =>
    intro id row t a c s ha hc hold hdue step
    change execTwinlessHoldExpiry id row s = _
    simp only [execTwinlessHoldExpiry, ha, hc, whenDue_some hold hdue, step, Bool.false_and, Bool.false_eq_true, if_false]
  case relayRead =>
    intro id row status c s hc relay st
    change execRelayRead id row status [] s = _
    simp only [execRelayRead, List.length_nil, Nat.mul_zero, Nat.add_zero, hc, relay, st, List.isEmpty_nil, beq_self_eq_true, Bool.and_self,
      if_true]
  case digestOwn =>
    intro block value s yarn paired
    change execDigest block value true s = _
    simp only [execDigest, yarn, paired, Bool.true_or, Bool.not_true, Bool.or_self, Bool.false_eq_true, if_false, if_true]
  case digestOther =>
    rintro block value s _ yarn paired rfl
    change execDigest block value false s = _
    simp only [execDigest, yarn, paired, Bool.true_or, Bool.not_true, Bool.or_self, Bool.false_eq_true, if_false]
  case warm =>
    intro id row status dw0 dw1 s warm
    change execWarm id row status dw0 dw1 s = _
    simp only [execWarm, warm, if_true]

end Sys2Proof.Machine
end

section
/-! PROOFS. Handovers, proof runs and the joint start (R293 to R295, R406). -/

namespace Sys2Proof.Machine

/-- Settles O35. -/
theorem handovers : Obligations.Handovers := by
  refine ⟨?drainFails, ?drained, ?resend, ?proofStart, ?proofNext, ?proofBack, ?joint⟩
  case drainFails =>
    intro arr h s hh sent hdue busy
    change execHandoverDrainDeadline arr s = _
    simp only [execHandoverDrainDeadline, hh, sent, whenDue_of_le hdue, busy, Bool.false_eq_true, if_false, if_true]
  case drained =>
    intro arr h s hh sent hdue idle stitched
    change execHandoverDrainDeadline arr s = _
    simp only [execHandoverDrainDeadline, hh, sent, whenDue_of_le hdue, idle, stitched, Bool.false_eq_true, if_false]
  case resend =>
    intro arr h s hh sent hdue
    change execHandoverResendTimer arr s = _
    simp only [execHandoverResendTimer, hh, sent, whenDue_of_le hdue, if_true]
  case proofStart =>
    intro s period last minute shadowed proof
    have periodOn : (s.proofPeriod == 0) = false := beq_false_of_ne period
    change execProofRunStart s = _
    simp only [execProofRunStart, periodOn, last, minute, shadowed, proof, bne_self_eq_false, Bool.not_true, Option.isSome_none, Bool.or_self,
      Bool.false_eq_true, if_false]
    rfl
  case proofNext =>
    rintro p n rest s _ hp hdue todo rfl
    refine ⟨fun vectors => ?_, ?_, fun acting => ?_, fun acting => ?_⟩
    · change execProofRunNext false vectors s = _
      simp only [execProofRunNext, hp, whenDue_of_le hdue, todo, Bool.not_false, if_true]
    · change execProofRunNext true false s = _
      simp only [execProofRunNext, hp, whenDue_of_le hdue, todo, Bool.not_true, Bool.not_false, Bool.false_eq_true, if_false, if_true]
    · change execProofRunNext true true s = _
      simp only [execProofRunNext, hp, whenDue_of_le hdue, todo, acting, Bool.not_true, Bool.false_eq_true, if_false, if_true]
    · change execProofRunNext true true s = _
      simp only [execProofRunNext, hp, whenDue_of_le hdue, todo, acting, Bool.not_true, Bool.false_eq_true, if_false]
  case proofBack =>
    intro p labels vectors s hp hdue todo back
    change execProofRunNext labels vectors s = _
    simp only [execProofRunNext, hp, whenDue_of_le hdue, todo, back, Bool.not_true, Bool.false_and, Bool.false_eq_true, if_false]
  case joint =>
    intro arrs s mode joint marks
    have unpaired : s.paired = false := by simp [State.paired, mode]
    change execJointStartYield arrs s = _
    simp only [execJointStartYield, unpaired, mode, joint, marks, bne_self_eq_false, Bool.not_true, Bool.or_self, Bool.false_and,
      Bool.false_eq_true, if_false]

end Sys2Proof.Machine
end

section
/-! PROOFS. The stitches of the partner (R276 to R283, R291): the one rule of a stitch in its turn, and each row by it. -/

namespace Sys2Proof.Machine

/-- The array of a stitch is one that the unit itself acts on (R281). -/
def ownStitch (i : Sys2Proof.Instr) (s : State) : Bool := (stitchHdr i).any fun h => decide (h.arr < 8) && (s.lease h.arr).acting

theorem not_ownStitch_of_replays {h : StHdr} {body : Nat} {i : Sys2Proof.Instr} {s : State} (r : s.Replays h body)
    (hdr : stitchHdr i = some h) : ownStitch i (s.stitched h body) = false := by
  simpa [ownStitch, hdr] using r.theirs

/-- A stitch in its turn, of an array that this unit does not act on, is replayed with its effect. -/
theorem replay_of_replays {h : StHdr} {body : Nat} {i : Sys2Proof.Instr} {s effect : State} (r : s.Replays h body)
    (hdr : stitchHdr i = some h)
    (plays : playStitch i (s.stitched h body) = if ownStitch i (s.stitched h body) then s.stitched h body else effect) :
    replay h body i s = replayed h effect := by
  have turn : (h.num != s.pair.rxStitch) = false := by simp [r.next]
  have effective : playStitch i (s.stitched h body) = effect := by
    rw [plays, not_ownStitch_of_replays r hdr]
    exact if_neg nofun
  have settled := r.settled
  unfold State.stitched at effective settled
  unfold replay
  dsimp only
  simp only [r.yarn, r.open_, turn, settled, effective, Bool.not_true, Bool.or_self, Bool.false_eq_true, if_false]
  rfl

/-- A stitch that is not the next in its stream is not replayed; the acknowledgement says where the stream stands (log 13). -/
theorem replay_of_not_next {h : StHdr} {body : Nat} {s : State} (yarn : s.yarnUp = true) (open_ : s.replays = true)
    (turn : h.num ≠ s.pair.rxStitch) (i : Sys2Proof.Instr) : replay h body i s = ackStitch (yarnFreed 7 (32 + body) s) := by
  have notNext : (h.num != s.pair.rxStitch) = true := bne_iff_ne.2 turn
  simp only [replay, yarn, open_, notNext, Bool.not_true, Bool.or_self, Bool.false_eq_true, if_false, if_true]

/-- Settles O36: each row is `replay`, and each effect the one that `playStitch` names. -/
theorem stitchesReplayed : Obligations.StitchesReplayed := by
  refine ⟨fun h row qid cid opcode lane disp source nsid blocks slba status s r => ?_, fun h row dc bay outcome status lba s r => ?_,
    fun h code obj s r => ?_, fun h row vol method engine dcs s r => ?_, fun h isSet regions s r => ?_,
    fun h pos gen bay st keepers s r => ?_, fun h row pos reason first cnt time s r => ?_, fun h row blk mask reported s r => ?_,
    fun h vol skein row chunks s r => ?_, fun h vol skein row entries s r => ?_, fun h n isEnd s r => ?_,
    fun h vol kind skein chunk s r => ?_, fun h row kind abortRow s r => ?_, fun h row status s r => ?_,
    fun h seq lba nsid cnt row cause s r => ?_, fun h kind c s r => ?_, fun h kind s r => ?_, fun h row key mib s r => ?_,
    fun h reason key off row len s r => ?_, fun h epoch successor shadowed s r => ?_,
    fun h proposal result internal path principal code kind value f s r => ?_, fun h op pass range s r => ?_,
    fun h n isEnd s yarn open_ turn => congrArg Host.Outcome.next (replay_of_not_next yarn open_ turn _)⟩
  all_goals exact congrArg Host.Outcome.next (replay_of_replays r rfl rfl)

end Sys2Proof.Machine
end

section
/-! PROOFS. The cast-on: its start at both units, its steps, what the joiner takes, its deadline and its retry (R260, R296, R297). -/

namespace Sys2Proof.Machine

/-- A cast-on that no check refuses, between units of one dialect, begins with step 1 and a QUERY for every array. -/
theorem beginCastOn_of_allowed {s : State} (allowed : s.castOnRefused = none) (dialect : s.pair.pDialect = some s.img.dialect) (joiner : Bool) :
    beginCastOn joiner s = queryAll ((adoptShelf s).onPair fun p => { p with
      castOn := some { joiner := joiner, step := 1, t0 := s.now }, castRetry := none, warm := false }) := by
  simp only [beginCastOn, allowed, dialect, bne_self_eq_false, Bool.false_eq_true, if_false]

/-- A cast-on that a check refuses is retried by the joiner after 60 s. -/
theorem beginCastOn_of_refused {s : State} {k : Nat} (refused : s.castOnRefused = some k) :
    beginCastOn true s = (fwEvent 8 k unitObj s).onPair fun p => { p with castRetry := some (s.now + 60 * sec) } := by
  simp only [beginCastOn, refused, if_true]

/-- A joiner that ends its cast-on leaves no claim barred. -/
theorem endJoining_noClaim {l : Lease} {s : State} (h : l ∈ (endJoining s).pair.leases) : l.noClaim = false := by
  obtain ⟨old, -, rfl⟩ := List.mem_map.1 h
  rfl

/-- Settles O37: each clause is one row of the step table of `execCastOnStepComplete`, or one guard of the cast-on's start and deadline. -/
theorem castOnSteps : Obligations.CastOnSteps := by
  refine ⟨?joinerStarts, ?serverStarts, ?refused, ?joinerTakes, ?restart, ?step1, ?step2, ?step3, ?step4, ?step5, ?pathBad, ?serverEnds,
    ?joinerEnds, ?deadline, ?early, ?retry⟩
  case joinerStarts =>
    intro s may allowed dialect
    change execCastOnStart true s = _
    simp only [execCastOnStart, may, beginCastOn_of_allowed allowed dialect, if_true]
  case serverStarts =>
    intro s may allowed dialect
    change execCastOnStart false s = _
    simp only [execCastOnStart, may, beginCastOn_of_allowed allowed dialect, Bool.false_eq_true, if_false, if_true]
  case refused =>
    intro k s may refused
    change execCastOnStart true s = _
    simp only [execCastOnStart, may, beginCastOn_of_refused refused, if_true]
  case joinerTakes =>
    intro c seg num s running yarn joiner step
    change execCast seg num s = _
    simp only [execCast, running, yarn, joiner, step, Bool.not_true, Bool.false_eq_true, if_false, if_true]
  case restart =>
    intro c num s running yarn server
    change execCast .restart num s = _
    simp only [execCast, running, yarn, server, Bool.not_true, beq_self_eq_true, Bool.false_eq_true, if_false, if_true]
  case step1 =>
    intro c ok s running yarn step witness
    have row : execCastOnStepComplete ok s = .next (putStep 2 c s) := by
      simp only [execCastOnStepComplete, running, yarn, step, witness, Bool.not_true, Bool.false_eq_true, if_false, if_true]
    exact row
  case step2 =>
    intro c ok s running yarn step joiner
    change execCastOnStepComplete ok s = _
    simp only [execCastOnStepComplete, running, yarn, step, joiner, Bool.not_true, Bool.false_eq_true, if_false]
  case step3 =>
    intro c ok s running yarn step server
    change execCastOnStepComplete ok s = _
    simp only [execCastOnStepComplete, running, yarn, step, server, Bool.not_true, Bool.false_eq_true, if_false]
  case step4 =>
    intro c ok s running yarn step server relinked
    change execCastOnStepComplete ok s = _
    simp only [execCastOnStepComplete, running, yarn, step, server, relinked, Bool.not_true, Bool.false_eq_true, if_false, if_true]
  case step5 =>
    intro c ok s running yarn step joiner replayed
    change execCastOnStepComplete ok s = _
    simp only [execCastOnStepComplete, running, yarn, step, joiner, replayed, List.isEmpty_nil, Bool.not_true, Bool.false_eq_true, if_false,
      if_true]
  case pathBad =>
    intro c s running yarn step
    change execCastOnStepComplete false s = _
    simp only [execCastOnStepComplete, running, yarn, step, Bool.not_true, Bool.not_false, Bool.false_eq_true, if_false, if_true]
  case serverEnds =>
    intro c s running yarn step server
    change execCastOnStepComplete true s = _
    simp only [execCastOnStepComplete, running, yarn, step, server, Bool.not_true, Bool.not_false, Bool.false_eq_true, if_false, if_true]
  case joinerEnds =>
    intro c s running yarn step joiner held partner
    change ∃ t, execCastOnStepComplete true s = _ ∧ _
    simp only [execCastOnStepComplete, running, yarn, step, joiner, held, partner, Bool.not_true, Bool.and_self, beq_self_eq_true,
      Bool.false_eq_true, if_false, if_true]
    exact ⟨_, rfl, rfl, rfl, rfl, fun _ => endJoining_noClaim, rfl, rfl, rfl⟩
  case deadline =>
    intro c s running hdue step
    change execCastOnDeadline s = _
    simp only [execCastOnDeadline, running, whenDue_of_le hdue, beq_false_of_ne step, Bool.false_eq_true, if_false]
  case early =>
    intro c s running inTime
    change execCastOnDeadline s = _
    simp only [execCastOnDeadline, running, whenDue, due, Nat.not_le.2 inTime, decide_false, Bool.false_eq_true, if_false]
  case retry =>
    intro s may
    change execCastOnRetry s = _
    simp only [execCastOnRetry, may, if_true]

end Sys2Proof.Machine
end

section
/-! PROOFS. Frames at the ports: what the MAC drops, what is parsed or held, misses of the context cache, the slow path and bank swaps
(R329 to R348). -/

namespace Sys2Proof.Machine

theorem parserLink_of_noPort {port : Nat} (beyond : 8 ≤ port) (notMgmt : port ≠ 47) : parserLink port = none := by
  simp only [parserLink, Nat.not_lt.2 beyond, beq_false_of_ne notMgmt, Bool.false_eq_true, if_false]

/-! ### Bank swaps -/

/-- What the start of a bank swap makes of a parser: its standby tables wait for the swap. -/
def pauseForSwap (now : Nat) (x : Parser) : Parser :=
  { x with bankNext := some x.nextBank, lanesS := none, dscpS := none, malS := none, tcpClsS := none, swap := 1, swapAt := now }

/-- One class of a port is paused and its pause repeated while the swap lasts. -/
def pauseClass (port now : Nat) (s : State) (c : Nat) : State :=
  updPort port c (fun r => { r with pSent := r.pSent + 1 }) (s.onSw fun w => { w with
    pauseTx := w.pauseTx ++ [(port, c, 65535)]
    pauseRep := (w.pauseRep.filter fun x => !(x.1 == port && x.2.1 == c)) ++ [(port, c, now + 20 * us)] })

theorem execBankSwapPause_of_standby {port : Nat} {s : State} (exists_ : port < 8) (standby : (s.parser port).standby = true)
    (still : ∀ x ∈ s.sw.parsers, x.swap = 0) :
    execBankSwapPause port s = .next ((List.range 8).foldl (pauseClass port s.now) (updParser port (pauseForSwap s.now) s)) := by
  have quiet : (s.sw.parsers.any fun x => x.swap != 0) = false := List.any_eq_false.2 fun x hx => by simp [still x hx]
  simp only [execBankSwapPause, standby, quiet, Nat.not_le.2 exists_, Bool.not_true, Bool.or_self, Bool.false_eq_true, if_false]
  rfl

theorem pauseClasses_parsers (port now : Nat) (l : List Nat) (s : State) : (l.foldl (pauseClass port now) s).sw.parsers = s.sw.parsers := by
  induction l generalizing s with
  | nil => rfl
  | cons c l ih => exact ih _

theorem pauseClasses_pauseTx (port now : Nat) (l : List Nat) (s : State) :
    (l.foldl (pauseClass port now) s).sw.pauseTx = s.sw.pauseTx ++ l.map (fun c => (port, c, 65535)) := by
  induction l generalizing s with
  | nil => exact (List.append_nil _).symm
  | cons c l ih => exact (ih _).trans (List.append_assoc ..)

/-- What the swap makes of a parser: the waiting bank becomes the active one. -/
def swapIn (now : Nat) (x : Parser) : Parser :=
  match x.bankNext with
  | some n => { x with lanes := n.lanes, dscp := n.dscp, txDscp := n.txDscp, mal := n.mal, tcpCls := n.tcpCls, bankNext := none, swap := 0,
                       swaps := x.swaps + 1, swapTime := x.swapTime + (now - (x.swapAt + 4784)) }
  | none => { x with swap := 0 }

/-- One class of a port is released after the swap unless its port is paused for another reason. -/
def releaseClass (port : Nat) (s : State) (c : Nat) : State :=
  if s.sw.pausedBy.contains (port, c) then s
  else s.onSw fun w => { w with pauseTx := w.pauseTx ++ [(port, c, 0)], pauseRep := w.pauseRep.filter fun x => !(x.1 == port && x.2.1 == c) }

theorem releaseClasses_parsers (port : Nat) (l : List Nat) (s : State) : (l.foldl (releaseClass port) s).sw.parsers = s.sw.parsers := by
  induction l generalizing s with
  | nil => rfl
  | cons c l ih =>
    have one : (releaseClass port s c).sw.parsers = s.sw.parsers := by
      unfold releaseClass
      split <;> rfl
    exact (ih _).trans one

/-- The unit after the swap of a port's bank, its stalled frames still waiting. -/
def bankSwapped (port : Nat) (s : State) : State := (List.range 8).foldl (releaseClass port) (updParser port (swapIn s.now) s)

theorem bankSwapped_parsers (port : Nat) (s : State) : (bankSwapped port s).sw.parsers = (updParser port (swapIn s.now) s).sw.parsers := by
  rw [bankSwapped, releaseClasses_parsers]

theorem execBankSwap_of_due {port : Nat} {s : State} (exists_ : port < 8) (stopped : (s.parser port).swap = 2)
    (fetched : (s.parser port).missQ = []) (hdue : (s.parser port).swapAt + 6 * us ≤ s.now) :
    execBankSwap port s
      = .next (resumeStalled port ((bankSwapped port s).parser port).stalled.length (bankSwapped port s)) := by
  simp only [execBankSwap, stopped, fetched, whenDue_of_le hdue, Nat.not_le.2 exists_, bne_self_eq_false, List.isEmpty_nil, Bool.not_true,
    Bool.or_self, Bool.false_eq_true, if_false]
  rfl

/-- Settles O38. -/
theorem framesAndBanks : Obligations.FramesAndBanks := by
  refine ⟨?badFcs, ?parsed, ?held, ?noPort, ?fetched, ?punted, ?echo, ?swapPause, ?stop, ?swap⟩
  case badFcs =>
    intro f k s hk up bad
    change execFrameReceive f s = _
    simp only [execFrameReceive, hk, up, bad, Bool.not_true, Bool.not_false, Bool.true_or, Bool.false_eq_true, if_false, if_true]
  case parsed =>
    intro f k s hk up good mine open_ running stalled
    change execFrameReceive f s = _
    simp only [execFrameReceive, hk, up, good, mine, open_, stalled, beq_false_of_ne running, List.isEmpty_nil, Bool.not_true, Bool.or_self,
      Bool.and_false, Bool.false_and, Bool.false_eq_true, if_false]
  case held =>
    intro f k s hk up good mine open_ stopped
    change execFrameReceive f s = _
    simp only [execFrameReceive, hk, up, good, mine, open_, stopped, beq_self_eq_true, Bool.not_true, Bool.or_self, Bool.true_or,
      Bool.and_false, Bool.false_and, Bool.false_eq_true, if_false, if_true]
  case noPort =>
    intro f s beyond notMgmt
    change execFrameReceive f s = _
    simp only [execFrameReceive, parserLink_of_noPort beyond notMgmt]
  case fetched =>
    rintro id f a s s1 waiting rfl known
    change ∃ s2, _ ∧ execContextFetchComplete id s = _
    simp only [execContextFetchComplete, waiting, List.isEmpty_cons, List.foldl_cons, List.foldl_nil, known, Bool.false_eq_true, if_false]
    exact ⟨_, rfl, rfl⟩
  case punted =>
    intro f rest prof s queue punt
    change execSlowPathFrame s = _
    simp only [execSlowPathFrame, queue, punt]
  case echo =>
    intro f rest s queue punt whole kind addr rate
    change execSlowPathFrame s = _
    simp only [execSlowPathFrame, queue, punt, whole, kind, addr, rate, List.filter_nil, List.length_nil, Nat.zero_lt_succ, decide_true,
      Bool.and_self, Bool.false_eq_true, if_false, if_true]
    rfl
  case swapPause =>
    intro port s exists_ standby still
    exact ⟨_, execBankSwapPause_of_standby exists_ standby still, pauseClasses_pauseTx .., pauseForSwap s.now, pauseClasses_parsers ..,
      fun _ => ⟨rfl, rfl, rfl, rfl, rfl⟩⟩
  case stop =>
    intro port s exists_ paused hdue
    change execParserStop port s = _
    simp only [execParserStop, paused, whenDue_of_le hdue, Nat.not_le.2 exists_, beq_self_eq_true, if_false, if_true]
  case swap =>
    intro port s exists_ stopped fetched hdue
    refine ⟨swapIn s.now, bankSwapped port s, execBankSwap_of_due exists_ stopped fetched hdue, bankSwapped_parsers port s, ?_⟩
    intro x n next
    simp only [swapIn, next]
    trivial

end Sys2Proof.Machine
end

section
/-! PROOFS. Flow control between ports and links: pauses and yarn credits (R313 to R315, R326). -/

namespace Sys2Proof.Machine

theorem closePause_of_over {port cls till t0 : Nat} {s : State}
    (found : (s.sw.pauseRx.find? fun x => x.1 == port && x.2.1 == cls) = some (port, cls, till, t0)) (past : till ≤ s.now) :
    closePause port cls s = updPort port cls (fun r => { r with pTime := r.pTime + (till - t0) })
      (s.onSw fun w => { w with pauseRx := w.pauseRx.filter fun y => !(y.1 == port && y.2.1 == cls) }) := by
  simp only [closePause, found, Nat.min_eq_right past]

/-! ### Credits of a link and class -/

/-- The credits spent of a link and class after those of a link and class are set to `left`. -/
def setCredit (link cls left : Nat) (s : State) : State :=
  let rest := s.sw.credTx.filter fun x => !(x.1 == link && x.2.1 == cls)
  s.onSw fun w => { w with credTx := if left == 0 then rest else (link, cls, left) :: rest }

theorem credSpent_setCredit (link cls left l c : Nat) (s : State) : (setCredit link cls left s).credSpent l c
    = (if link = l ∧ cls = c then left else 0)
      + (((s.sw.credTx.filter fun x => !(x.1 == link && x.2.1 == cls)).filter fun x => x.1 == l && x.2.1 == c).map (·.2.2)).sum := by
  change (((if left == 0 then _ else _ : List _).filter _).map _).sum = _
  obtain rfl | some_ := Nat.eq_zero_or_pos left
  · simp only [beq_self_eq_true, if_true, ite_self, Nat.zero_add]
  · by_cases same : link = l ∧ cls = c
    · obtain ⟨rfl, rfl⟩ := same
      simp only [beq_false_of_ne (Nat.ne_of_gt some_), Bool.false_eq_true, if_false, List.filter_cons, beq_self_eq_true, Bool.and_self,
        if_true, List.map_cons, List.sum_cons, and_self]
    · have notIt : (link == l && cls == c) = false := by simpa using same
      simp only [beq_false_of_ne (Nat.ne_of_gt some_), Bool.false_eq_true, if_false, List.filter_cons, notIt, same, Nat.zero_add]

theorem credSpent_setCredit_same (link cls left : Nat) (s : State) : (setCredit link cls left s).credSpent link cls = left := by
  have gone : ((s.sw.credTx.filter fun x => !(x.1 == link && x.2.1 == cls)).filter fun x => x.1 == link && x.2.1 == cls) = [] :=
    List.filter_eq_nil_iff.2 fun x hx => by simpa [imp_iff_not_or] using (List.mem_filter.1 hx).2
  rw [credSpent_setCredit, gone]
  exact if_pos ⟨rfl, rfl⟩

theorem credSpent_setCredit_of_ne {link cls l c : Nat} (other : l ≠ link ∨ c ≠ cls) (left : Nat) (s : State) :
    (setCredit link cls left s).credSpent l c = s.credSpent l c := by
  have kept : ((s.sw.credTx.filter fun x => !(x.1 == link && x.2.1 == cls)).filter fun x => x.1 == l && x.2.1 == c)
      = s.sw.credTx.filter fun x => x.1 == l && x.2.1 == c := by
    rw [List.filter_filter]
    refine List.filter_congr fun x _ => ?_
    grind
  have notIt : ¬(link = l ∧ cls = c) := by grind
  rw [credSpent_setCredit, kept, if_neg notIt, Nat.zero_add]
  rfl

/-- Settles O39. -/
theorem flowControl : Obligations.FlowControl := by
  refine ⟨?repeats, ?paused, ?released, ?noPort, ?expiry, ?returned, ?early, ?credit⟩
  case repeats =>
    intro port prio t s found hdue
    change execPauseRepeatTimer port prio s = _
    simp only [execPauseRepeatTimer, found, whenDue_of_le hdue]
  case paused =>
    intro port k cls quanta s hk some_
    change execPauseFrame port cls quanta s = _
    simp only [execPauseFrame, hk, beq_false_of_ne some_, quantaTime, Bool.false_eq_true, if_false]
  case released =>
    intro port k cls s hk
    change execPauseFrame port cls 0 s = _
    simp only [execPauseFrame, hk, beq_self_eq_true, if_true]
  case noPort =>
    intro port cls quanta s beyond notMgmt
    change execPauseFrame port cls quanta s = _
    simp only [execPauseFrame, parserLink_of_noPort beyond notMgmt]
  case expiry =>
    intro port cls till t0 s found hdue
    change execPauseExpiry port cls s = _
    simp only [execPauseExpiry, found, whenDue_of_le hdue, closePause_of_over found hdue]
  case returned =>
    intro link cls n t s found hdue
    have now : (decide (64 ≤ n) || decide (t + us ≤ s.now)) = true := by simpa using hdue
    change execCreditReturnTimer link cls s = _
    simp only [execCreditReturnTimer, found, now, if_true]
    rfl
  case early =>
    intro link cls n t s found few inTime
    change execCreditReturnTimer link cls s = _
    simp only [execCreditReturnTimer, found, Nat.not_le.2 few, Nat.not_le.2 inTime, decide_false, Bool.or_self, Bool.false_eq_true, if_false]
  case credit =>
    intro link cls cells s
    exact ⟨setCredit link cls (s.credSpent link cls - cells) s, rfl, credSpent_setCredit_same .., fun _ _ other =>
      credSpent_setCredit_of_ne other .., rfl⟩

end Sys2Proof.Machine
end

section
/-! PROOFS. Departures, ageing, plane failures, gate lists, samples and drive submission (R309, R312, R318 to R324, R351 to R371, R478). -/

namespace Sys2Proof.Machine

/-! ### What the schedulers leave unchanged -/

/-- Nothing but the switch of a unit differs from `s`. -/
def SwitchOnly (s t : State) : Prop := t = { s with sw := t.sw }

theorem SwitchOnly.refl (s : State) : SwitchOnly s s := rfl

theorem SwitchOnly.trans {a b c : State} (ab : SwitchOnly a b) (bc : SwitchOnly b c) : SwitchOnly a c := by
  unfold SwitchOnly at *
  rw [bc, ab]

theorem SwitchOnly.foldl {α : Type} {f : State → α → State} (step : ∀ s x, SwitchOnly s (f s x)) (l : List α) (s : State) :
    SwitchOnly s (l.foldl f s) := by
  induction l generalizing s with
  | nil => exact .refl s
  | cons x l ih => exact (step s x).trans (ih _)

theorem switchOnly_onSw (f : Sw → Sw) (s : State) : SwitchOnly s (s.onSw f) := rfl

theorem switchOnly_updQrec (q : Nat) (f : QRec → QRec) (s : State) : SwitchOnly s (updQrec q f s) := switchOnly_onSw _ s

theorem switchOnly_putSched (x : Sched) (s : State) : SwitchOnly s (putSched x s) := switchOnly_onSw _ s

theorem switchOnly_arbitrate (inst : Nat) (g : Option Gate) (rate : Nat) (bays : Bool) (q0 : Nat) (heads : Nat → Option Head)
    (free : Nat → Bool) (s : State) : SwitchOnly s (arbitrate inst g rate bays q0 heads free s).2 := by
  have counted : ∀ (f : QRec → QRec) (l : List Nat) (s : State), SwitchOnly s (l.foldl (fun st c => updQrec (q0 + c) f st) s) :=
    fun f => SwitchOnly.foldl fun s c => switchOnly_updQrec (q0 + c) f s
  unfold arbitrate
  extract_lets _ _ _ _ _ _ _ _ _ _ _ _ _ _ pick waits lost _ _ s1 s2
  have waited : SwitchOnly s s2 := (counted _ waits s).trans (counted _ lost s1)
  clear_value pick s2
  cases pick with
  | none => exact waited.trans (switchOnly_putSched ..)
  | some c =>
    refine waited.trans (.trans ?_ (switchOnly_putSched ..))
    split
    · exact switchOnly_updQrec ..
    · exact .refl _

/-- Without a gate list, the head of class 7 is chosen where its place is free: no ceiling bounds that class. -/
theorem arbitrate_seven {h : Head} {heads : Nat → Option Head} {free : Nat → Bool} (waiting : heads 7 = some h) (free7 : free 7 = true)
    (inst rate : Nat) (bays : Bool) (q0 : Nat) (s : State) : (arbitrate inst none rate bays q0 heads free s).1 = some 7 := by
  unfold arbitrate
  extract_lets x dt c6 c5 cost say gateOk ceilOk base ok quantum d0 most rr pick
  have eligible : ok 7 = true := by simp [ok, base, ceilOk, gateOk, say, gateTest, waiting, free7]
  have chosen : pick = some 7 := if_pos eligible
  rw [chosen]

/-! ### Departures -/

/-- The highest class that satisfies a predicate is the one found from the top down. -/
theorem find?_topDown {p : Nat → Bool} {c : Nat} (hc : c < 8) (hp : p c = true) (above : ∀ d, c < d → d < 8 → p d = false) :
    ([7, 6, 5, 4, 3, 2, 1, 0].find? p) = some c := by
  refine List.find?_eq_some_iff_append.2 ⟨hp, ((List.range 8).reverse.take (7 - c)), (List.range c).reverse, ?_, ?_⟩
  · interval_cases c <;> rfl
  · intro d hd
    have high : c < d ∧ d < 8 := by
      interval_cases c <;> revert d <;> decide
    simp only [above d high.1 high.2, Bool.not_false]

/-- The cells of CMP, PAR and CPU are not aged. -/
theorem aged_of_unaged {port : Nat} (notAged : agedPort port = false) (s : State) : s.aged (· == port) = [] := by
  refine List.filter_eq_nil_iff.2 fun q _ => ?_
  by_cases here : q.port = port
  · simp [here, notAged]
  · simp [here]

/-- The ports CMP, PAR and CPU: neither a gate list, nor a link, nor credits hold their packets back (R358). -/
structure InnerPort (port : Nat) : Prop where
  unaged : agedPort port = false
  ungated : gateHolder port = none
  noYarn : (port == 32 || port == 33) = false
  up : ∀ s : State, s.portUp port = true

theorem innerPort {port : Nat} (low : 34 ≤ port) (high : port < 47) : InnerPort port := by
  have bounds : ¬port < 8 ∧ ¬port < 32 ∧ ¬port < 34 := by omega
  have others : port ≠ 32 ∧ port ≠ 33 ∧ port ≠ 47 := by omega
  constructor
  · simp [agedPort, bounds, others]
  · simp [gateHolder, bounds, others]
  · simp [others]
  · intro s
    simp [State.portUp, bounds, others]

theorem execEgressSelect_of_inner {port c : Nat} {q : QItem} {s : State} (inner : InnerPort port) (exists_ : port < 48) (hc : c < 8)
    (head : s.headOf port c = some q) (above : ∀ d, c < d → d < 8 → s.headOf port d = none) :
    execEgressSelect port s = .next (depart q s) := by
  have chosen := find?_topDown (p := fun c => ((s.headOf port c).map fun q => ({ id := q.id, cost := s.frameCost port q.bytes } : Head)).isSome)
    hc (by simp [head]) fun d hd hd8 => by simp [above d hd hd8]
  simp only [execEgressSelect, Nat.not_le.2 exists_, aged_of_unaged inner.unaged, inner.up, inner.noYarn, inner.ungated, chosen, head,
    List.foldl_nil, Option.bind_some, Option.isSome_none, Bool.not_true, Bool.and_false, Bool.false_eq_true, if_false]

/-! ### Samples -/

theorem queueSample_numbers (f : QRec → Nat × Nat → QRec) (keeps : ∀ r v, (f r v).q = r.q) (l : List Nat) (s : State) :
    (l.map fun q => f ((s.sw.qrecs.find? (·.q == q)).getD { q := q }) (s.queueNow q)).map (·.q) = l := by
  rw [List.map_map]
  refine (List.map_congr_left fun q _ => ?_).trans l.map_id
  change (f _ _).q = q
  rw [keeps]
  cases found : s.sw.qrecs.find? (·.q == q) with
  | none => rfl
  | some r => exact eq_of_beq (List.find?_some (p := fun r : QRec => r.q == q) found)

/-- One sample of a queue: its depth and its age enter the histograms of its record (R370). -/
def observed (r : QRec) (v : Nat × Nat) : QRec :=
  { r with depth := r.depth.modify (histBin v.1) (· + 1), age := r.age.modify (histBin v.2) (· + 1), samples := r.samples + 1 }

/-! ### Drive submission -/

/-- A command other than a write at the head of class 7, with nothing below it, is submitted; nothing but the switch changes besides. -/
theorem driveSubmission_top {bay : Nat} {d : DrvCmd} {s : State} (exists_ : bay < 24) (open_ : s.bayOpen bay = true) (ungated : s.gateOf 11 = none)
    (head : s.bayHead bay 7 = some d) (below : ∀ c, c < 7 → s.bayHead bay c = none) (notWrite : d.op ≠ .write) :
    ∃ s1, execDriveSubmission bay s = .next (updDc d.id (fun x => { x with subAt := some s.now }) s1) ∧ SwitchOnly s s1 := by
  have cls : d.cls = 7 := by
    have := List.find?_some (p := fun d : DrvCmd => d.bay == bay && d.cls == 7 && d.subAt.isNone) head
    simp only [Bool.and_eq_true, beq_iff_eq] at this
    exact this.1.2
  have free : (d.op != .write) = true := bne_iff_ne.2 notWrite
  have none_ : ∀ c ∈ List.range 8, c ≠ 7 → s.bayHead bay c = none := fun c hc h7 => below c (by have := List.mem_range.1 hc; omega)
  unfold execDriveSubmission
  rw [if_neg (Nat.not_le.2 exists_)]
  extract_lets heads room held s1 r
  have unheld : held = [] := by
    refine List.filterMap_eq_nil_iff.2 fun c hc => ?_
    by_cases h7 : c = 7
    · simp [room, h7, head, free]
    · simp [room, none_ c hc h7]
  have start : s1 = s := by simp only [s1, unheld, List.foldl_nil]
  have chosen : r.1 = some 7 := by
    simp only [r, start, ungated]
    exact arbitrate_seven (h := { id := d.id, cost := s.driveCost d.blocksMoved }) (by simp [heads, head]) (by simp [room, head, free]) ..
  have frame : SwitchOnly s r.2 := by
    simp only [r, start]
    exact switchOnly_arbitrate ..
  refine ⟨r.2, ?_, frame⟩
  simp only [open_, chosen, head, cls, beq_false_of_ne notWrite, Option.bind_some, Bool.not_true, Bool.false_eq_true, if_false,
    Nat.reduceLT, decide_false, Bool.and_false]

/-- Settles O40. -/
theorem switchAndSchedulers : Obligations.SwitchAndSchedulers := by
  refine ⟨?inner, ?down, ?noPort, ?ageing, ?noAgeing, ?plane, ?gateStarts, ?gateRuns, ?samples, ?submission, ?closed, ?noBay⟩
  case inner =>
    intro port c q s low high hc head above
    exact execEgressSelect_of_inner (innerPort low high) (by omega) hc head above
  case down =>
    intro port s exists_ down young
    change execEgressSelect port s = _
    simp only [execEgressSelect, Nat.not_le.2 exists_, young, down, List.foldl_nil, Bool.not_false, if_false, if_true]
  case noPort => exact fun _ _ h => if_pos h
  case ageing => exact fun _ => rfl
  case noAgeing =>
    intro s empty
    change execAgeingSweep s = _
    simp only [execAgeingSweep, State.aged, empty, List.filter_nil, List.foldl_nil]
  case plane =>
    intro plane s exists_ works
    change execPlaneFailure plane [] s = _
    simp only [execPlaneFailure, works, Nat.not_le.2 exists_, List.contains_nil, List.filter_false, List.map_nil, List.sum_nil, List.foldl_nil,
      Nat.add_zero, decide_false, Bool.not_true, Bool.not_false, Bool.or_self, Bool.false_eq_true, if_false]
  case gateStarts =>
    rintro list g e s rfl idle written hdue
    change execGateIntervalEnd list s = _
    simp only [execGateIntervalEnd, idle, written, hdue, Bool.not_false, if_true]
  case gateRuns =>
    rintro list g s rfl runs unwritten hdue
    change execGateIntervalEnd list s = _
    simp only [execGateIntervalEnd, runs, unwritten, Nat.not_lt.2 hdue, Bool.not_true, Bool.false_eq_true, if_false]
  case samples => exact fun s => ⟨_, rfl, queueSample_numbers observed (fun _ _ => rfl) allQueues s, rfl⟩
  case submission =>
    intro bay d s exists_ open_ ungated head below notWrite
    obtain ⟨s1, hs1, frame⟩ := driveSubmission_top exists_ open_ ungated head below notWrite
    refine ⟨s1, hs1, ?_⟩
    rw [frame]
    exact ⟨rfl, rfl, rfl⟩
  case closed =>
    intro bay s exists_ closed
    change execDriveSubmission bay s = _
    simp only [execDriveSubmission, Nat.not_le.2 exists_, closed, Bool.not_false, if_false, if_true]
  case noBay => exact fun _ _ h => if_pos h

end Sys2Proof.Machine
end

section
/-! PROOFS. The bay channels: insertion, removal, ramp, qualification, trips, cool-down, relink, links and readiness (R374 to R381, R407). -/

namespace Sys2Proof.Machine

theorem live_of_on {c : Chan} (on : c.st = .on) : c.live = true := by simp [Chan.live, on]

theorem live_of_qualify {c : Chan} (qualify : c.st = .qualify) : c.live = true := by simp [Chan.live, qualify]

theorem live_of_off {c : Chan} (off : c.st = .off) : c.live = false := by simp [Chan.live, off]

/-- The record of a drive whose presence returns: it is not ready, and refused where it cannot serve (R163). -/
def insertedDrive (d : DriveInfo) : Drive :=
  { serial := d.serial, model := d.model, cap := d.cap, ok := d.ok, gen5 := d.gen5, vwc := d.vwc, states := d.states, nonop := d.nonop,
    capTo := d.capTo, warn := d.warn, role := if d.ok then .unassigned else .refused }

theorem noRelink_of_none {s : State} (h : ∀ n, n < 24 → (s.chan n).relink = none) :
    ((List.range 24).any fun n => (s.chan n).relink.isSome) = false :=
  List.any_eq_false.2 fun n hn => by simp [h n (List.mem_range.1 hn)]

/-- Settles O41: each clause is one guard of its row, met. -/
theorem bayChannels : Obligations.BayChannels := by
  refine ⟨?insert, ?insertTwice, ?remove, ?threshold, ?rampTimeout, ?faultStart, ?faultClear, ?faultExpiry, ?faultEarly, ?hot, ?hotOff,
    ?cooled, ?latched, ?restore, ?relink, ?linkDown, ?linkUp, ?readyWait, ?ready⟩
  case insert =>
    intro bay d s exists_ absent present unpowered never
    refine ⟨insertedDrive d, ?_, rfl, rfl, rfl⟩
    change execBayInsert bay d s = _
    simp only [execBayInsert, Nat.not_le.2 exists_, absent, present, unpowered, never, Bool.not_true, Bool.not_false, Bool.or_self,
      Bool.true_or, Bool.false_eq_true, if_false, if_true]
    rfl
  case insertTwice =>
    intro bay d s exists_ there
    change execBayInsert bay d s = _
    simp only [execBayInsert, Nat.not_le.2 exists_, there, Bool.true_or, if_false, if_true]
  case remove =>
    intro bay s exists_ there present
    change execBayRemove bay s = _
    simp only [execBayRemove, Nat.not_le.2 exists_, there, present, Bool.not_true, Bool.or_self, Bool.false_eq_true, if_false]
  case threshold =>
    intro bay s exists_ ramp noFault
    change execOutputReachesThreshold bay s = _
    simp only [execOutputReachesThreshold, Nat.not_le.2 exists_, ramp, noFault, bne_self_eq_false, Bool.false_and, Option.isSome_none,
      Bool.false_eq_true, if_false]
  case rampTimeout =>
    intro bay t s exists_ ramp since hdue
    change execRampTimeout bay s = _
    simp only [execRampTimeout, Nat.not_le.2 exists_, ramp, since, Option.map_some, whenDue_of_le hdue, beq_self_eq_true, if_false, if_true]
  case faultStart =>
    intro bay s exists_ on noFault
    change execFaultTimerStart bay s = _
    simp only [execFaultTimerStart, Nat.not_le.2 exists_, live_of_on on, noFault, on, beq_self_eq_true, Option.isSome_none, Bool.not_true,
      Bool.or_self, Bool.false_eq_true, if_false]
  case faultClear =>
    intro bay t s exists_ qualify fault
    change execFaultTimerClear bay s = _
    simp only [execFaultTimerClear, Nat.not_le.2 exists_, live_of_qualify qualify, fault, qualify, beq_self_eq_true, Option.isNone_some,
      Bool.not_true, Bool.or_self, Bool.false_eq_true, if_false, if_true]
  case faultExpiry =>
    intro bay t s exists_ on fault hdue
    change execFaultTimerExpiry bay s = _
    simp only [execFaultTimerExpiry, Nat.not_le.2 exists_, live_of_on on, fault, Option.map_some, whenDue_of_le hdue, if_false, if_true]
  case faultEarly =>
    intro bay t s exists_ on fault inTime
    change execFaultTimerExpiry bay s = _
    simp only [execFaultTimerExpiry, Nat.not_le.2 exists_, live_of_on on, fault, Option.map_some, whenDue, due, Nat.not_le.2 inTime,
      decide_false, Bool.false_eq_true, if_false, if_true]
  case hot =>
    intro bay s exists_ on
    change execModelOverTemperature bay s = _
    simp only [execModelOverTemperature, Nat.not_le.2 exists_, live_of_on on, if_false, if_true]
  case hotOff =>
    intro bay s exists_ off
    change execModelOverTemperature bay s = _
    simp only [execModelOverTemperature, Nat.not_le.2 exists_, live_of_off off, Bool.false_eq_true, if_false]
  case cooled =>
    intro bay t temp s exists_ hot cool since hdue budget
    change execCoolDownEnd bay temp s = _
    simp only [execCoolDownEnd, Nat.not_le.2 exists_, hot, Int.not_le.2 cool, whenDue_some since hdue, budget, bne_self_eq_false, decide_false,
      Bool.or_self, Bool.false_eq_true, if_false, if_true]
  case latched =>
    intro bay t temp s exists_ hot cool since hdue budget
    change execCoolDownEnd bay temp s = _
    simp only [execCoolDownEnd, Nat.not_le.2 exists_, hot, Int.not_le.2 cool, whenDue_some since hdue, budget, bne_self_eq_false, decide_false,
      Bool.or_self, Bool.false_eq_true, if_false]
    rfl
  case restore =>
    intro bay t s exists_ on since hdue
    change execRetryBudgetRestore bay s = _
    simp only [execRetryBudgetRestore, Nat.not_le.2 exists_, on, since, Option.map_some, whenDue_of_le hdue, beq_self_eq_true, if_false,
      if_true]
  case relink =>
    intro bay s exists_ on released narrow alone longAgo idle
    change execBayRelink bay s = _
    simp only [execBayRelink, Nat.not_le.2 exists_, on, released, narrow, alone, longAgo, noRelink_of_none idle, bne_self_eq_false,
      Option.isNone_none, Bool.true_or, Bool.not_false, Bool.not_true, beq_true, Bool.or_self, Bool.false_eq_true, if_false, if_true]
  case linkDown =>
    intro bay d s exists_ drive
    change execBayLinkStateChange bay false s = _
    simp only [execBayLinkStateChange, Nat.not_le.2 exists_, drive, Option.isNone_some, Bool.not_false, Bool.false_eq_true, if_false, if_true]
  case linkUp =>
    intro bay d s exists_ drive on released isolated
    change execBayLinkStateChange bay true s = _
    simp only [execBayLinkStateChange, Nat.not_le.2 exists_, drive, on, released, beq_false_of_ne isolated, bne_self_eq_false,
      Option.isNone_some, Bool.not_true, Bool.or_self, Bool.false_eq_true, if_false]
  case readyWait =>
    intro bay t s exists_ waits hdue noMember
    change execDriveReadyWaitExpiry bay s = _
    simp only [execDriveReadyWaitExpiry, Nat.not_le.2 exists_, whenDue_some waits hdue, noMember, if_false]
  case ready =>
    intro bay d s exists_ drive on released serves settled
    have unlabelled : roleOf d none s = .unassigned := by simp only [roleOf, serves, Bool.not_true, Bool.false_eq_true, if_false]
    have noSpare : (DriveRole.unassigned == DriveRole.spare) = false := rfl
    change execDriveReady bay none s = _
    simp only [execDriveReady, Nat.not_le.2 exists_, drive, on, released, settled, unlabelled, noSpare, bne_self_eq_false, Option.isSome_none,
      Option.any_none, Bool.and_false, Bool.or_self, Bool.false_eq_true, if_false]

end Sys2Proof.Machine
end

section
/-! PROOFS. Removal by request, the bay buttons, the service key and the display (R392 to R396). -/

namespace Sys2Proof.Machine

/-- The unit that takes a bay's drive commands away: no drive command at the bay is left. -/
def withoutDcs (bay : Nat) (s : State) : State := s.onIo fun i => { i with dcs := i.dcs.filter fun d => d.bay != bay }

theorem bay_ne_of_withoutDcs {bay : Nat} {s : State} {d : DrvCmd} (h : d ∈ (withoutDcs bay s).io.dcs) : d.bay ≠ bay :=
  bne_iff_ne.1 (List.mem_filter.1 h).2

/-- Settles O42. -/
theorem removalsAndPanel : Obligations.RemovalsAndPanel := by
  refine ⟨?lapse, ?flushed, ?flushEarly, ?shutdown, ?firstPress, ?confirm, ?irresponsible, ?held, ?touch, ?holdStandby, ?holdOn, ?longHold,
    ?unpowered, ?backlight⟩
  case lapse =>
    intro bay t s exists_ prepared hdue
    change execRemovalPreparationLapse bay s = _
    simp only [execRemovalPreparationLapse, Nat.not_le.2 exists_, whenDue_some prepared hdue, if_false]
  case flushed =>
    intro bay s exists_ step flushed
    refine ⟨withoutDcs bay (endDcs (fun d => d.bay == bay && d.why != .removal) s), ?_, fun _ => bay_ne_of_withoutDcs⟩
    change execRemovalFlushDeadline bay s = _
    simp only [execRemovalFlushDeadline, Nat.not_le.2 exists_, step, flushed, bne_self_eq_false, Bool.true_or, Bool.not_true, Bool.or_self,
      Bool.false_eq_true, if_false, if_true]
    rfl
  case flushEarly =>
    intro bay s exists_ step unflushed inTime
    change execRemovalFlushDeadline bay s = _
    simp only [execRemovalFlushDeadline, Nat.not_le.2 exists_, unflushed, Nat.not_le.2 inTime, decide_false, Bool.or_self, Bool.not_false,
      Bool.or_true, if_false, if_true]
  case shutdown =>
    intro bay s exists_ step
    change execRemovalShutdownDeadline bay true s = _
    simp only [execRemovalShutdownDeadline, Nat.not_le.2 exists_, step, bne_self_eq_false, Bool.true_or, Bool.not_true, Bool.or_self,
      Bool.false_eq_true, if_false]
  case firstPress =>
    intro bay s exists_ responsible unprepared
    change execBayButtonPress bay s = _
    simp only [execBayButtonPress, Nat.not_le.2 exists_, responsible, unprepared, Option.any_none, Bool.not_true, Bool.false_eq_true, if_false]
    rfl
  case confirm =>
    intro bay t s exists_ responsible prepared inTime
    change execBayButtonPress bay s = _
    simp only [execBayButtonPress, Nat.not_le.2 exists_, responsible, prepared, Option.any_some, inTime, decide_true, Bool.not_true,
      Bool.false_eq_true, if_false, if_true]
  case irresponsible =>
    intro bay s exists_ irresponsible
    constructor
    · change execBayButtonPress bay s = _
      simp only [execBayButtonPress, Nat.not_le.2 exists_, irresponsible, Bool.not_false, if_false, if_true]
    · change execBayButtonHeld bay s = _
      simp only [execBayButtonHeld, Nat.not_le.2 exists_, irresponsible, Bool.false_eq_true, if_false]
  case held =>
    intro bay s exists_ responsible
    change execBayButtonHeld bay s = _
    simp only [execBayButtonHeld, Nat.not_le.2 exists_, responsible, if_false, if_true]
  case touch =>
    intro s powered
    exact congrArg Host.Outcome.next (if_pos powered)
  case holdStandby =>
    intro s powered standby
    change execServiceKeyHold s = _
    simp only [execServiceKeyHold, powered, standby, beq_self_eq_true, Bool.not_true, Bool.false_eq_true, if_false, if_true]
  case holdOn =>
    intro s powered running dark
    change execServiceKeyHold s = _
    simp only [execServiceKeyHold, powered, beq_false_of_ne running, dark, Bool.not_true, Bool.false_eq_true, if_false]
  case longHold =>
    intro s powered
    exact congrArg Host.Outcome.next (if_pos powered)
  case unpowered =>
    intro s unpowered
    have off : ¬s.md.powered = true := Bool.not_eq_true _ ▸ unpowered
    refine ⟨congrArg Host.Outcome.next (if_neg off), congrArg Host.Outcome.next (if_pos ?_), congrArg Host.Outcome.next (if_neg off)⟩
    simp only [unpowered, Bool.not_false]
  case backlight =>
    intro t s lit hdue
    exact congrArg Host.Outcome.next (whenDue_some lit hdue _)

end Sys2Proof.Machine
end

section
/-! PROOFS. The power path: line voltage, budget, measurement, mains, hold-up, fans, OSFP cages and port links (R382 to R391, R351). -/

namespace Sys2Proof.Machine

/-! ### What the folds of this layer leave unchanged -/

/-- What no step changes, the fold of the steps does not change. -/
theorem foldl_unchanged {α β : Type} {f : State → α → State} {g : State → β} (step : ∀ s x, g (f s x) = g s) (l : List α) (s : State) :
    g (l.foldl f s) = g s := by
  induction l generalizing s with
  | nil => rfl
  | cons x l ih => exact (ih _).trans (step s x)

theorem portDowns_io (l : List Nat) (s : State) : (l.foldl (fun t p => portDown p t) s).io = s.io :=
  foldl_unchanged (f := fun t p => portDown p t) (fun _ _ => rfl) l s

theorem updDrives_io {α : Type} (bay : α → Nat) (f : Drive → Drive) (l : List α) (s : State) :
    (l.foldl (fun t d => updDrive (bay d) f t) s).io = s.io :=
  foldl_unchanged (f := fun t d => updDrive (bay d) f t) (fun _ _ => rfl) l s

/-- Without associations no event is raised at one. -/
theorem raiseAll_of_noAssocs {s : State} (none_ : s.io.assocs = []) (p : Assoc → Bool) (etype info page : Nat) :
    raiseAll p etype info page s = s := by
  simp only [raiseAll, none_, List.filter_nil, List.map_nil, List.foldl_nil]

/-! ### Measurement of the bays -/

/-- What a measurement of the powers leaves in a channel (R384). -/
def Chan.measured (c : Chan) (p : Nat) : Chan := { c with power := p, cur := p * 25 / 3, energy := c.energy + p / 10 }

/-- The unit after a measurement of the bays' powers (R384). -/
def State.measured (powers : List Nat) (s : State) : State :=
  s.onBays fun b => { b with ch := b.ch.mapIdx fun n c => c.measured (powers.getD n 0) }

theorem chan_measured {powers : List Nat} {n : Nat} {s : State} (h : n < s.bays.ch.length) :
    (s.measured powers).chan n = (s.chan n).measured (powers.getD n 0) := by
  simp [State.measured, State.chan, State.onBays, h]

/-! ### Fans -/

/-- The duty that the fan loop sets: full in SAFE, after a thermal reset and with a failed fan, otherwise 30 to 100 (R390). -/
def State.loopDuty (s : State) : Nat :=
  if s.md.mode == .safe || s.md.held == 3 || s.bays.fans.any (·.failed) then 100 else 30 + Config.fanDuty s.free % 71

theorem loopDuty_bounds (s : State) : 30 ≤ s.loopDuty ∧ s.loopDuty ≤ 100 := by
  unfold State.loopDuty
  split <;> omega

theorem loopDuty_of_safe {s : State} (safe : s.md.mode = .safe) : s.loopDuty = 100 := by
  simp [State.loopDuty, safe]

theorem loopDuty_of_failed {s : State} (failed : (s.bays.fans.any (·.failed)) = true) : s.loopDuty = 100 := by
  simp only [State.loopDuty, failed, Bool.or_true, if_true]

/-- The unit after the fan loop's sensors, duties and speeds, before its events. -/
def State.fanned (sensors : List Int) (drives tachs : List Nat) (s : State) : State :=
  s.drawn.onBays fun b => { b with
    sensors := sensors
    fans := b.fans.mapIdx fun n f => { f with duty := s.loopDuty, rpm := tachs.getD n f.rpm }
    drives := b.drives.mapIdx fun n d => d.map fun x => { x with health := drives.getD n x.health } }

theorem duty_of_fanned {sensors : List Int} {drives tachs : List Nat} {s : State} {f : Fan} (h : f ∈ (s.fanned sensors drives tachs).bays.fans) :
    f.duty = s.loopDuty := by
  obtain ⟨_, _, rfl⟩ := List.mem_mapIdx.1 h
  rfl

theorem execFanLoop_of_noAssocs {s : State} (none_ : s.io.assocs = []) (sensors : List Int) (drives tachs : List Nat) :
    execFanLoop sensors drives tachs [] s = .next (s.fanned sensors drives tachs) :=
  congrArg Host.Outcome.next (raiseAll_of_noAssocs (s := s.fanned sensors drives tachs) none_ ..)

/-- Settles O43. -/
theorem powerPath : Obligations.PowerPath := by
  refine ⟨?line, ?rise, ?measured, ?loss, ?lossAgain, ?driveDeadline, ?dumpEnd, ?off, ?resumed, ?returned, ?returnedEarly, ?returnedDump,
    ?dumpRate, ?holdTime, ?fans, ?fanFails, ?unplugged, ?tooHigh, ?shut, ?portDown, ?mgmtUp⟩
  case line => exact fun _ _ => rfl
  case rise =>
    intro b t s rise hdue
    change execBudgetRiseHold s = _
    simp only [execBudgetRiseHold, rise, whenDue_of_le hdue]
  case measured =>
    intro powers s within never
    refine ⟨(s.measured powers).onBays fun b => { b with overSince := some s.now }, ?_, rfl, List.length_mapIdx, fun n hn => ?_, rfl, rfl⟩
    · change execPowerMeasurementCheck powers s = _
      simp only [execPowerMeasurementCheck, Nat.not_lt.2 within, never, if_false]
      rfl
    · have chan := chan_measured (powers := powers) hn
      unfold State.chan at chan ⊢
      rw [State.onBays_bays, chan]
      exact ⟨rfl, rfl, rfl⟩
  case loss =>
    intro s mains powered first alone
    change ∃ t, execMainsLoss s = _ ∧ _
    simp only [execMainsLoss, mains, powered, first, alone, Bool.not_true, Bool.or_self, Bool.false_and, Bool.false_eq_true, if_false]
    exact ⟨_, rfl, rfl, rfl, rfl, _, rfl, rfl, rfl, rfl, rfl, rfl⟩
  case lossAgain =>
    intro s noMains
    change execMainsLoss s = _
    simp only [execMainsLoss, noMains, Bool.not_false, Bool.true_or, if_true]
  case driveDeadline =>
    intro h s hold handing phase hdue
    change ∃ t, execHoldUpDriveDeadline s = _ ∧ _
    simp only [execHoldUpDriveDeadline, hold, handing, phase, whenDue_of_le hdue, bne_self_eq_false, Bool.or_self, Bool.false_eq_true, if_false]
    refine ⟨_, rfl, ?_, ⟨_, rfl, rfl, rfl, rfl⟩, ?_, ?_⟩
    all_goals simp only [State.onBays_io, portDowns_io, State.onIo_io, updDrives_io (α := DrvCmd) (·.bay), State.onAudit_io]
  case dumpEnd =>
    intro done h s hold handing phase away
    change ∃ t, execHoldUpDumpEnd done s = _ ∧ _
    simp only [execHoldUpDumpEnd, hold, handing, phase, away, bne_self_eq_false, Bool.or_self, Bool.false_and, Bool.false_eq_true, if_false]
    exact ⟨_, rfl, rfl, rfl, ⟨_, rfl, rfl⟩, rfl⟩
  case off =>
    intro h s hold phase away
    change execHoldUpEnd s = _
    simp only [execHoldUpEnd, hold, phase, away, beq_self_eq_true, Bool.false_and, Bool.or_true, Bool.false_eq_true, if_false, if_true]
  case resumed =>
    intro h s hold phase back
    change execHoldUpEnd s = _
    simp only [execHoldUpEnd, hold, phase, back, beq_self_eq_true, Bool.true_and, Bool.or_true, if_true]
  case returned =>
    intro s never
    change execMainsReturn s = _
    simp only [execMainsReturn, never]
    rfl
  case returnedEarly =>
    intro h s hold handing phase inTime
    change execMainsReturn s = _
    simp only [execMainsReturn, hold, handing, phase, inTime, beq_self_eq_true, decide_true, Bool.or_true, Bool.true_or, if_true]
  case returnedDump =>
    intro h s hold handing phase
    change execMainsReturn s = _
    simp only [execMainsReturn, hold, handing, phase, Bool.false_or, Bool.false_eq_true, Nat.reduceBEq, if_false]
  case dumpRate =>
    intro arr rate s acts
    exact congrArg Host.Outcome.next (if_pos acts)
  case holdTime => exact fun _ _ => rfl
  case fans =>
    intro sensors drives tachs s none_
    refine ⟨s.fanned sensors drives tachs, execFanLoop_of_noAssocs none_ .., rfl, List.length_mapIdx, fun f hf => ?_, fun safe f hf => ?_,
      fun failed f hf => ?_, rfl⟩
    · rw [duty_of_fanned hf]
      exact loopDuty_bounds s
    · rw [duty_of_fanned hf, loopDuty_of_safe safe]
    · rw [duty_of_fanned hf, loopDuty_of_failed failed]
  case fanFails =>
    intro fan s exists_ works quiet
    change execFanFailure fan s = _
    simp only [execFanFailure, Nat.not_le.2 exists_, works, quiet, decide_false, Bool.or_self, Bool.false_eq_true, if_false]
  case unplugged =>
    intro cage watts s exists_
    change execOsfpPresence cage false watts s = _
    simp only [execOsfpPresence, Nat.not_le.2 exists_, Bool.not_false, if_false, if_true]
  case tooHigh =>
    intro cage watts s exists_ high
    change execOsfpPresence cage true watts s = _
    simp only [execOsfpPresence, Nat.not_le.2 exists_, Nat.not_le.2 high, decide_false, Bool.false_and, Bool.not_true, Bool.false_eq_true,
      if_false]
  case shut =>
    intro cage temp s exists_ present
    change execOsfpMonitor cage temp true s = _
    simp only [execOsfpMonitor, Nat.not_le.2 exists_, present, Bool.not_true, Bool.or_self, Bool.false_eq_true, if_false]
  case portDown =>
    intro port rate s exists_
    change execPortLinkStateChange port false rate s = _
    simp only [execPortLinkStateChange, Nat.not_le.2 exists_, decide_false, Bool.false_and, Bool.not_false, Bool.false_eq_true, if_false,
      if_true]
  case mgmtUp =>
    intro rate s powered
    change execPortLinkStateChange 47 true rate s = _
    simp only [execPortLinkStateChange, powered, bne_self_eq_false, beq_self_eq_true, Bool.and_false, Bool.false_and, Bool.not_true,
      Bool.or_self, Bool.false_eq_true, if_false, if_true]
    rfl

end Sys2Proof.Machine
end

section
/-! PROOFS. Start-up, changes of mode, resets by the unit's protection, presence (R403 to R421, R508 to R512). -/

namespace Sys2Proof.Machine

/-- Steps that leave a state as it is, folded, leave it as it is. -/
theorem foldl_fixed {α : Type} {f : State → α → State} {s : State} {l : List α} (h : ∀ x ∈ l, f s x = s) : l.foldl f s = s := by
  induction l with
  | nil => rfl
  | cons x l ih =>
    rw [List.foldl_cons, h x List.mem_cons_self]
    exact ih fun y hy => h y (List.mem_cons_of_mem x hy)

theorem duty_of_mem_map {l : List Fan} {d : Nat} {f : Fan} (h : f ∈ l.map fun f => { f with duty := d }) : f.duty = d := by
  obtain ⟨_, _, rfl⟩ := List.mem_map.1 h
  rfl


theorem bootCondition_false (s : State) : s.bootCondition false = some 1 := rfl

theorem bootCondition_true {s : State} (swatch : s.audit.swOk = true) (quiet : s.md.wdResets = []) : s.bootCondition true = none := by
  simp [State.bootCondition, swatch, quiet]

/-- The unit in which the firmware runs and has found its drive budget (R383, R407). -/
def State.firmwareUp (volts : Nat) (s : State) : State :=
  let s2 := ((s.onMd fun m => { m with fw := true }).onImg fun i => { i with slotsOk := true }).onBays fun b => { b with volts := volts }
  s2.onBays fun b => { b with drvBudget := s2.ownBudget, budget := s2.ownBudget, rise := none }

/-- No bay holds a drive: no group of bays is left to power. -/
theorem noBays_of_absent {s : State} (absent : ∀ n, n < 24 → (s.chan n).present = false) :
    ((List.range 24).filter fun n => decide (s.md.bayNext ≤ n) && (s.chan n).present && (s.chan n).st == .off) = [] :=
  List.filter_eq_nil_iff.2 fun n hn => by simp [absent n (List.mem_range.1 hn)]

/-- Settles O44. -/
theorem startUpAndModes : Obligations.StartUpAndModes := by
  refine ⟨?mains, ?mainsAgain, ?heldInStandby, ?boots, ?rootLock, ?badImage, ?firmware, ?noBays, ?cold, ?warm, ?drained, ?draining, ?standby,
    ?watchdog, ?halted, ?lockLost, ?hot, ?cooled, ?notHot, ?partnerGone, ?partnerBack, ?slotEmpty, ?pulled, ?pulledAgain⟩
  case mains =>
    intro s off
    change ∃ t, execMainsApplied s = _ ∧ _
    simp only [execMainsApplied, off, Bool.false_eq_true, if_false]
    exact ⟨_, rfl, rfl, rfl, rfl, rfl, rfl, fun _ => duty_of_mem_map, rfl, rfl, rfl⟩
  case mainsAgain =>
    intro s on
    exact congrArg Host.Outcome.next (if_pos on)
  case heldInStandby =>
    intro slotOpen swatchOk s powered notReady stays
    change execServiceDomainReady slotOpen swatchOk true s = _
    have stays' : (((s.onMd fun m => { m with svcReady := true, slot := if slotOpen then 1 else 0, slotIn := if slotOpen then 1 else 0 }).onAudit
      fun a => { a with swOk := swatchOk }).settingN 0x0180 == 2) = true := beq_iff_eq.2 stays
    simp only [execServiceDomainReady, powered, notReady, stays', Bool.not_true, Bool.or_self, Bool.false_eq_true, if_false, if_true]
  case boots =>
    intro slotOpen swatchOk s powered notReady starts
    change execServiceDomainReady slotOpen swatchOk true s = _
    have starts' : (((s.onMd fun m => { m with svcReady := true, slot := if slotOpen then 1 else 0, slotIn := if slotOpen then 1 else 0 }).onAudit
      fun a => { a with swOk := swatchOk }).settingN 0x0180 == 2) = false := beq_false_of_ne starts
    simp only [execServiceDomainReady, powered, notReady, starts', Bool.not_true, Bool.or_self, Bool.false_eq_true, if_false, if_true]
  case rootLock =>
    intro s boot free ready
    have held : (s.md.mode != .boot || s.md.held != 0 || !s.md.svcReady) = false := by simp [boot, free, ready]
    exact congrArg Host.Outcome.next (if_neg (Bool.eq_false_iff.1 held))
  case badImage =>
    intro volts s boot locked notYet
    change execManagementFirmwareRunning false volts s = _
    simp only [execManagementFirmwareRunning, boot, locked, notYet, bootCondition_false, bne_self_eq_false, Bool.not_true, Bool.or_self,
      Bool.false_eq_true, if_false]
  case firmware =>
    intro volts s boot locked notYet swatch quiet cold
    have starts := bootCondition_true (s := (s.onMd fun m => { m with fw := true }).onImg fun i => { i with slotsOk := true }) swatch quiet
    refine ⟨s.firmwareUp volts, ?_, rfl, rfl, rfl, rfl⟩
    change execManagementFirmwareRunning true volts s = _
    simp only [execManagementFirmwareRunning, boot, locked, notYet, starts, cold, bne_self_eq_false, beq_self_eq_true, Bool.not_true,
      Bool.or_self, Bool.false_eq_true, if_false, if_true]
    rfl
  case noBays =>
    intro t s powers timer hdue absent
    change execBayGroupTimer s = _
    simp only [execBayGroupTimer, powers, whenDue_some timer hdue, noBays_of_absent absent, List.take_nil, List.drop_nil, List.foldl_nil,
      List.head?_nil, Bool.not_true, Bool.false_eq_true, if_false]
  case cold =>
    intro bitmaps bad th s boot fw notYet settled cold
    change execArraysAssembled bitmaps bad th s = _
    simp only [execArraysAssembled, boot, fw, notYet, settled, cold, bne_self_eq_false, Bool.not_true, Bool.or_self, Bool.false_eq_true,
      Nat.reduceBEq, if_false]
  case warm =>
    intro bitmaps bad th s boot fw notYet settled warm
    change execArraysAssembled bitmaps bad th s = _
    simp only [execArraysAssembled, boot, fw, notYet, settled, warm, bne_self_eq_false, Bool.not_true, Bool.or_self, Bool.false_eq_true,
      beq_self_eq_true, if_false, if_true]
  case drained =>
    intro op s drain clean noHand noQueue noAfter notYet alone
    change execModeDrainComplete s = _
    simp only [execModeDrainComplete, drain, clean, noHand, noQueue, noAfter, notYet, alone, List.any_nil, List.isEmpty_nil, List.contains_nil,
      Option.isSome_none, Bool.not_true, Bool.or_self, beq_self_eq_true, Bool.false_eq_true, if_false, if_true]
  case draining =>
    intro op x s drain one dirty
    change execModeDrainComplete s = _
    simp only [execModeDrainComplete, drain, one, dirty, List.any_cons, Bool.true_or, if_true]
  case standby =>
    intro t req op s timer drain hdue
    change execStandbyShutdownDeadline s = _
    simp only [execStandbyShutdownDeadline, timer, drain, hdue, decide_true, Bool.true_or, if_true]
  case watchdog =>
    intro s on fw solo
    have served : (Mode.solo == Mode.maintenance || Mode.solo == Mode.safe) = false := rfl
    change execWatchdogLapse s = _
    simp only [execWatchdogLapse, on, fw, solo, served, Bool.false_and, Bool.not_false, Bool.and_self, if_true]
  case halted =>
    intro s on fw maintenance halted
    change execWatchdogLapse s = _
    simp only [execWatchdogLapse, maintenance, halted, beq_self_eq_true, Bool.true_or, Bool.and_self, Bool.not_true, Bool.and_false,
      Bool.false_eq_true, if_false]
  case lockLost =>
    intro s on away
    change execRootLockLoss s = _
    simp only [execRootLockLoss, on, away, Bool.false_eq_true, if_false, if_true]
  case hot =>
    intro s powered running notYet
    change ∃ t, execThermalLimit s = _ ∧ _
    simp only [execThermalLimit, powered, beq_false_of_ne running, beq_false_of_ne notYet, Bool.not_true, Bool.or_self, Bool.false_eq_true,
      if_false]
    exact ⟨_, rfl, rfl, fun _ => duty_of_mem_map⟩
  case cooled =>
    intro s held
    exact congrArg Host.Outcome.next (if_pos (beq_iff_eq.2 held))
  case notHot =>
    intro s free
    exact congrArg Host.Outcome.next (if_neg (by simpa using free))
  case partnerGone =>
    intro s there
    change execPartnerPresenceChange false s = _
    simp only [execPartnerPresenceChange, there, Bool.false_eq_true, if_false]
    rfl
  case partnerBack =>
    intro s gone
    change execPartnerPresenceChange true s = _
    simp only [execPartnerPresenceChange, gone, if_true]
    rfl
  case slotEmpty =>
    intro t s gone timer hdue alone
    have row : execPartnerSlotEmptyTimeout s = .next (s.onMd fun m => { m with pEmptyAt := none }) := by
      simp only [execPartnerSlotEmptyTimeout, gone, whenDue_some timer hdue, alone, Bool.not_false, Bool.false_eq_true, if_false, if_true]
    exact row
  case pulled =>
    intro s there dead
    have unpowered : ∀ n ∈ List.range 24, ((s.onMd fun m => { m with modPres := false }).chan n).live = false := fun n hn =>
      dead n (List.mem_range.1 hn)
    change execModPresBreak s = _
    simp only [execModPresBreak, there, Bool.not_true, Bool.false_eq_true, if_false]
    rw [foldl_fixed fun n hn => if_neg (Bool.eq_false_iff.1 (unpowered n hn))]
  case pulledAgain =>
    intro s gone
    exact congrArg Host.Outcome.next (if_pos (by simp only [gone, Bool.not_false]))

end Sys2Proof.Machine
end

section
/-! PROOFS. Device time, PTP, leap seconds and the power states (R422 to R433). -/

namespace Sys2Proof.Machine

/-! ### Syncs of a locked unit -/

/-- What a Sync leaves in the time of a locked unit before its offset is slewed away or stepped (R423). -/
def State.synced (off : Int) (s : State) : State :=
  s.onTime fun t => { t with
    lastOff := off, good := if off.natAbs < 1000 then min 16 (s.time.good + 1) else 0, st := 3, unsync := false }

/-- The slew of an offset: a free value within 50 ppm, in the offset's direction (R423, log 7). -/
def State.slewed (off : Int) (s : State) : State :=
  let mag : Int := Config.slew s.free % 201
  let adj := if 0 < off then mag else if off < 0 then -mag else 0
  (s.synced off).drawn.onTime fun t => { t with adj := adj, rates := (t.now, adj) :: t.rates.filter fun r => decide (t.now < r.1 + 60 * sec) }

theorem execPtpMessage_sync_of_locked {s : State} (fw : s.md.fw = true) (link : s.sw.linkUp.getD 8 false = true) (locked : s.time.st = 3)
    (off : Int) : execPtpMessage (.sync off) s = .next (
      if (off.natAbs : Int) ≤ s.settingN 0x0E85 * 1000 then s.slewed off
      else if s.bays.hold.isSome then s.synced off else ptpStep off (s.synced off)) := by
  simp only [execPtpMessage, fw, link, locked, bne_self_eq_false, beq_self_eq_true, Bool.and_false, Bool.true_or, Bool.not_true, Bool.or_self,
    Bool.false_eq_true, if_false, if_true]
  rfl

theorem adj_slewed {off : Int} (ahead : 0 < off) (s : State) : 0 ≤ (s.slewed off).time.adj ∧ (s.slewed off).time.adj ≤ 200 := by
  change 0 ≤ (if 0 < off then (_ : Int) else _) ∧ (if 0 < off then (_ : Int) else _) ≤ 200
  rw [if_pos ahead]
  omega

/-- Settles O45. -/
theorem timeAndPowerStates : Obligations.TimeAndPowerStates := by
  refine ⟨?announce, ?slew, ?step, ?noFirmware, ?silent, ?save, ?saveEarly, ?leap, ?leapEarly, ?ps1, ?ps1Loaded, ?idle, ?busy, ?safeBusy,
    ?safeDrives, ?safeDone, ?leavePs1, ?leavePs2, ?awake, ?timeout⟩
  case announce =>
    intro gm interval leap s fw link listening
    change execPtpMessage (.announce gm none leap interval) s = _
    simp only [execPtpMessage, fw, link, listening, beq_self_eq_true, Bool.true_or, Option.isSome_none, Bool.false_and, Bool.not_true,
      Bool.or_self, Bool.false_eq_true, if_false, if_true]
  case slew =>
    intro off s fw link locked ahead within
    have small : (off.natAbs : Int) ≤ s.settingN 0x0E85 * 1000 := by omega
    obtain ⟨low, high⟩ := adj_slewed ahead s
    exact ⟨s.slewed off, (execPtpMessage_sync_of_locked fw link locked off).trans (congrArg _ (if_pos small)), rfl, rfl, rfl, rfl, low, high⟩
  case step =>
    intro off s fw link locked beyond noHold
    have large : ¬(off.natAbs : Int) ≤ s.settingN 0x0E85 * 1000 := by omega
    refine ⟨s.synced off, (execPtpMessage_sync_of_locked fw link locked off).trans (congrArg _ ?_), rfl, rfl, rfl⟩
    rw [if_neg large, noHold]
    rfl
  case noFirmware =>
    intro m s down
    change execPtpMessage m s = _
    simp only [execPtpMessage, down, Bool.not_false, Bool.true_or, if_true]
  case silent =>
    intro t s since hdue unlocked
    have row : execAnnounceReceiptTimeout s = .next (s.onTime fun t => { t with annAt := none, gm := 0 }) := by
      simp only [execAnnounceReceiptTimeout, whenDue_some since hdue, beq_false_of_ne unlocked, Bool.false_eq_true, if_false]
    exact row
  case save =>
    intro s powered hdue
    change execDeviceTimeSave s = _
    simp only [execDeviceTimeSave, powered, whenDue_of_le hdue, Bool.not_true, Bool.false_eq_true, if_false]
    rfl
  case saveEarly =>
    intro s powered inTime
    change execDeviceTimeSave s = _
    simp only [execDeviceTimeSave, powered, whenDue, due, Nat.not_le.2 inTime, decide_false, Bool.not_true, Bool.false_eq_true, if_false]
  case leap =>
    intro t ch s leap hdue
    change execLeapSecond s = _
    simp only [execLeapSecond, leap, hdue, if_true]
  case leapEarly =>
    intro t ch s leap inTime
    change execLeapSecond s = _
    simp only [execLeapSecond, leap, Nat.not_le.2 inTime, if_false]
  case ps1 =>
    intro load idle s mode auto awake settled rested low
    change execPs1Entry load idle s = _
    simp only [execPs1Entry, mode, auto, awake, settled, rested, Nat.not_le.2 low, bne_self_eq_false, decide_false, Bool.false_and,
      Bool.not_true, Bool.or_self, Bool.false_eq_true, if_false]
  case ps1Loaded =>
    intro load idle s mode auto loaded
    change execPs1Entry load idle s = _
    simp only [execPs1Entry, loaded, decide_true, Bool.or_true, if_true]
  case idle =>
    intro s noRequest mode auto timed awake settled quiet hdue
    change execPs2IdleExpiry s = _
    simp only [execPs2IdleExpiry, noRequest, mode, auto, beq_false_of_ne timed, beq_false_of_ne awake, settled, quiet, whenDue_of_le hdue,
      bne_self_eq_false, Bool.not_true, Bool.or_self, Bool.false_eq_true, if_false]
  case busy =>
    intro s noRequest work
    change execPs2IdleExpiry s = _
    simp only [execPs2IdleExpiry, noRequest, work, Bool.or_true, if_true]
  case safeBusy =>
    intro s entering work
    change execPs2SafePoint s = _
    simp only [execPs2SafePoint, beq_false_of_ne entering, work, Bool.false_eq_true, if_false, if_true]
  case safeDrives =>
    intro s entering quiet
    change execPs2SafePoint s = _
    simp only [execPs2SafePoint, entering, quiet, Nat.reduceBEq, Bool.false_eq_true, if_false, if_true]
    rfl
  case safeDone =>
    intro s entering quiet
    change execPs2SafePoint s = _
    simp only [execPs2SafePoint, entering, quiet, Nat.reduceBEq, Bool.false_eq_true, if_false]
  case leavePs1 =>
    intro why s ps cause
    have leaves : (s.md.ps == 1 && (why == 0 || why == 1 || why == 4)) = true := by simpa [ps, or_assoc] using cause
    exact congrArg Host.Outcome.next (if_pos leaves)
  case leavePs2 =>
    intro why s ps cause
    have stays : ¬(s.md.ps == 1 && (why == 0 || why == 1 || why == 4)) = true := by simp [ps]
    have leaves : (s.md.ps == 2 && (why == 2 || why == 3 || why == 4)) = true := by simpa [ps, or_assoc] using cause
    exact congrArg Host.Outcome.next ((if_neg stays).trans (if_pos leaves))
  case awake =>
    intro why s ps
    change execPowerStateExit why s = _
    simp only [execPowerStateExit, ps, Nat.reduceBEq, Bool.false_and, Bool.false_eq_true, if_false]
  case timeout =>
    intro t mb s request settled awake hdue
    change execPs2RequestTimeout s = _
    simp only [execPs2RequestTimeout, request, settled, bne_iff_ne.2 awake, whenDue_of_le hdue, beq_self_eq_true, Bool.and_self, if_true]

end Sys2Proof.Machine
end

section
/-! PROOFS. Parts: drains, online tests, recalls, the recovery ladder and HBM (R472 to R484). -/

namespace Sys2Proof.Machine

theorem part_key (cls inst : Nat) (s : State) : (s.part cls inst).cls = cls ∧ (s.part cls inst).inst = inst := by
  unfold State.part
  cases found : s.parts.find? fun p => p.cls == cls && p.inst == inst with
  | none => exact ⟨rfl, rfl⟩
  | some p => simpa using List.find?_some found

/-- The record of a part reads back as it was updated. -/
theorem part_updPart_same {f : Part → Part} (cls_kept : ∀ p, (f p).cls = p.cls) (inst_kept : ∀ p, (f p).inst = p.inst) (cls inst : Nat)
    (s : State) : (updPart cls inst f s).part cls inst = f (s.part cls inst) := by
  obtain ⟨hcls, hinst⟩ := part_key cls inst s
  have here : ((f (s.part cls inst)).cls == cls && (f (s.part cls inst)).inst == inst) = true := by
    simp only [cls_kept, inst_kept, hcls, hinst, beq_self_eq_true, Bool.and_self]
  change ((List.find? _ (f (s.part cls inst) :: _)).getD _) = _
  rw [List.find?_cons_of_pos (p := fun p : Part => p.cls == cls && p.inst == inst) here]
  rfl

/-- A tag abort whose bound has passed is late (R148, R472). -/
theorem late_of_matchAt {c : Cmd} {t : Nat} {s : State} (tag : c.tag = true) (holds : s.ladderHolds c = true) (reached : c.matchAt = some t)
    (past : t + 2 * ms ≤ s.now) : (c.tag && s.ladderHolds c && due (c.matchAt.map (· + 2 * ms)) s) = true := by
  simp only [tag, holds, reached, Option.map_some, due, past, decide_true, Bool.and_self]

/-- Settles O46. -/
theorem partsAndTests : Obligations.PartsAndTests := by
  refine ⟨?drained, ?notDraining, ?portDrained, ?copied, ?notCopying, ?passed, ?failed, ?noTest, ?recalled, ?noRecall, ?late, ?noCmds, ?rung3,
    ?rung4, ?uncorrected⟩
  case drained =>
    intro inst s draining
    change execPartDrainComplete 0x3002 inst s = _
    simp only [execPartDrainComplete, draining, State.partBusy, bne_self_eq_false, Nat.reduceBEq, Bool.or_self, Bool.false_and,
      Bool.false_eq_true, if_false]
  case notDraining =>
    intro cls inst s idle
    change execPartDrainComplete cls inst s = _
    simp only [execPartDrainComplete, bne_iff_ne.2 idle, Bool.true_or, if_true]
  case portDrained =>
    intro port t s exists_ draining timer hdue
    change execNetPortDrainEnd port s = _
    simp only [execNetPortDrainEnd, Nat.not_le.2 exists_, draining, whenDue_some timer hdue, beq_self_eq_true, if_false, if_true]
  case copied =>
    intro pcp s exists_ draining fresh
    change execHbmCopyComplete pcp s = _
    simp only [execHbmCopyComplete, Nat.not_le.2 exists_, draining, fresh, beq_self_eq_true, Bool.and_self, if_false, if_true]
  case notCopying =>
    intro pcp s exists_ serves
    change execHbmCopyComplete pcp s = _
    simp only [execHbmCopyComplete, Nat.not_le.2 exists_, serves, Nat.reduceBEq, Bool.false_and, Bool.false_eq_true, if_false]
  case passed =>
    intro cls inst s test out stays noOper
    change execOnlineTestEnd cls inst true s = _
    simp only [execOnlineTestEnd, beq_false_of_ne test, out, stays, noOper, beq_self_eq_true, Bool.true_or, Bool.not_true, Bool.or_self,
      Bool.false_eq_true, if_false, if_true, Nat.zero_add]
  case failed =>
    intro inst s test out noOper noSpare
    change execOnlineTestEnd 0x3002 inst false s = _
    simp only [execOnlineTestEnd, beq_false_of_ne test, out, noOper, noSpare, bne_self_eq_false, Nat.reduceBEq, beq_self_eq_true, Bool.true_or,
      Bool.not_true, Bool.or_self, Bool.false_eq_true, if_false]
  case noTest =>
    intro cls inst pass s none_
    change execOnlineTestEnd cls inst pass s = _
    simp only [execOnlineTestEnd, none_, beq_self_eq_true, Bool.true_or, if_true]
  case recalled =>
    intro cls inst cause s recalls serves on watched notSolo
    change execTileWatchdog cls inst cause s = _
    simp only [execTileWatchdog, recalls, Nat.not_le.2 serves, on, beq_false_of_ne watched, beq_false_of_ne notSolo, decide_false,
      Bool.and_false, Bool.false_and, Bool.not_true, Bool.or_self, Bool.false_eq_true, if_false]
  case noRecall =>
    intro cls inst cause s never
    change execTileWatchdog cls inst cause s = _
    simp only [execTileWatchdog, never, Bool.not_false, Bool.true_or, if_true]
  case late =>
    intro obj c t s one here tag holds reached past
    change execRecoveryRungOverrun 1 obj s = _
    simp only [execRecoveryRungOverrun, one, here, late_of_matchAt tag holds reached past, List.any_cons, beq_self_eq_true, Bool.and_self,
      Bool.true_or, if_true]
  case noCmds =>
    intro obj s empty
    change execRecoveryRungOverrun 1 obj s = _
    simp only [execRecoveryRungOverrun, empty, List.any_nil, beq_self_eq_true, Bool.false_eq_true, if_false, if_true]
  case rung3 =>
    intro obj s on fw
    change execRecoveryRungOverrun 3 obj s = _
    simp only [execRecoveryRungOverrun, on, fw, Nat.reduceBEq, Bool.and_self, Bool.false_eq_true, if_false, if_true]
  case rung4 =>
    intro obj t s reset hdue
    change execRecoveryRungOverrun 4 obj s = _
    simp only [execRecoveryRungOverrun, reset, due, hdue, decide_true, Nat.reduceBEq, Bool.and_self, Bool.false_eq_true, if_false, if_true]
  case uncorrected =>
    intro pcp s exists_ on serves
    have still : ((updPart 0x2001 pcp (fun p => { p with uncorr := p.uncorr + 1 }) s).part 0x2001 pcp).st = 0 := by
      rw [part_updPart_same (f := fun p => { p with uncorr := p.uncorr + 1 }) (fun _ => rfl) fun _ => rfl]
      exact serves
    refine ⟨_, ?_, rfl⟩
    change execHbmUncorrectedError pcp [] s = _
    simp only [execHbmUncorrectedError, Nat.not_le.2 exists_, on, still, List.filter_nil, List.foldl_nil, bne_self_eq_false, decide_false,
      Bool.not_true, Bool.or_self, Bool.false_eq_true, if_false]

end Sys2Proof.Machine
end
